-- ==== Sys2Proof/Word.lean ====
section
/-! DEFINITION. The word types of the machine: the 64-bit register value, the byte, the 32-bit instruction
word (R44), and names for the register fields of R47. -/

namespace Sys2Proof

/-- An integer register's value (R30). -/
abbrev Word := BitVec 64

/-- One byte of memory. -/
abbrev Byte := BitVec 8

/-- One instruction word (R44). -/
abbrev IWord := BitVec 32

/-- A trap cause code (R276). -/
abbrev Cause := BitVec 8

/-- A 6-bit integer register field: bit 5 = 0 names `x`, bit 5 = 1 names `s` (R30, R47). -/
abbrev IntReg := BitVec 6

/-- A 5-bit field that names `x0`-`x31` (R47). -/
abbrev XReg := BitVec 5

/-- A 5-bit field that names `f0`-`f31` (R47). -/
abbrev FReg := BitVec 5

/-- A 5-bit field that names `v0`-`v31` (R47). -/
abbrev VReg := BitVec 5

/-- A 3-bit field that names `m0`-`m7` (R47). -/
abbrev MReg := BitVec 3

/-- A 3-bit field that names `t0`-`t7` (R47). -/
abbrev TReg := BitVec 3

/-- A vector register's value (R30). -/
abbrev VWord := BitVec 1024

/-- A mask register's value, one bit for each byte lane (R30). -/
abbrev MWord := BitVec 128

/-- An accumulator cell (R84). -/
abbrev Cell96 := BitVec 96

/-- A strand: the global core number and the strand number 0-5 (R10, R23). -/
structure StrandId where
  core : Nat
  num  : Nat
  deriving DecidableEq, Repr

end Sys2Proof
end

