-- ==== Sys2Proof/Config.lean ====
section
/-! DEFINITION. What an implementation fixes, and the free values: constants with no body, which no proof can
evaluate. A claim about one of them is true whatever it is. -/

namespace Sys2Proof.Config

/-- Window of the scratchpads: base (R12). -/
def spadWindowBase : Nat := 0xFC0000000000
/-- Window of the scratchpads: end, exclusive (R12). -/
def spadWindowEnd : Nat := 0xFC1000000000
/-- Self window: base (R13). -/
def selfWindowBase : Nat := 0xFBFFFFE00000
/-- Self window: end, exclusive (R13). -/
def selfWindowEnd : Nat := 0xFC0000000000
/-- Bytes of one scratchpad (R12). -/
def spadBytes : Nat := 0x80000
/-- Bytes of a core's block in the scratchpad window (R12). -/
def spadBlock : Nat := 0x100000
/-- End of stacked DRAM in the physical map (R323). -/
def dramEnd : Nat := 0x9000000000
/-- Hub register region: base (R323). -/
def hubBase : Nat := 0x7000000000000
/-- Hub register region: end, exclusive (R323). -/
def hubEnd : Nat := 0x7000100000000
/-- Host memory over CXL: base (R323). -/
def hostBase : Nat := 0x8000000000000
/-- End of the 52-bit physical space (R9, R323). -/
def physEnd : Nat := 0x10000000000000
/-- Model's own: the location of byte `o` of the scratchpad of global core `g` is this base + `g` * 2^20 + `o`. -/
def spadLocBase : Nat := 0x10000000000000

/-- The key slot that system software fills with the shared key at bring-up (R283). DESIGN CHOICE: assumption 6. -/
def sharedSlot : Nat := 1023

/-- How many of a strand's younger tile instructions its engine holds when a `tstat` retires, taken modulo 17, by the place in the run
(R177; assumption 37). -/
opaque tilePending : Nat → Nat

/-- Free value: whether, at the `n`-th free choice, a load takes its bytes from the sibling strand's buffered store of a number
(R154). Assumption 10. -/
opaque takeSibling : Nat → Nat → Bool

/-- Free value: whether the fetch at the `n`-th free choice takes its word from the line as the strand has fetched it before (R160).
Assumption 11. -/
opaque fetchStale : Nat → Bool

/-- Free value: whether word `w` of a discardable line, after the `n`-th last-use access, reads the value last written
back (R100, R329). Assumption 12. -/
opaque lastUseDropped : Nat → Nat → Bool

/-- Free value: what byte `a` reads when its line is tagged with the reader's key slot under an earlier key (R257, R269).
Assumption 13. -/
opaque staleKeyByte : Nat → Nat → Byte

/-- Free value: the bytes an unassigned offset of the hub register region reads (R323). Assumption 14. -/
opaque hubUnassigned : Nat → Nat → Word

/-- Free value: the handler chain that a host write of a doubleword at an address places: a cluster, and its entries as
core-in-cluster and entry address (R262). Assumption 4. -/
opaque chainWrite : Nat → Word → Option (Nat × List (Nat × Word))

/-- Free value: the urgent-table entry that a host write of a doubleword at an address places (R275). Assumption 4. -/
opaque urgentWrite : Nat → Word → Option (Nat × Word)

/-- Free value: the partition, and the clusters it is made of, that a host write of a doubleword at an address places (R267).
Assumption 4. -/
opaque partitionWrite : Nat → Word → Option (Nat × List Nat)

/-- Free value: where the search for an unused group number begins at the `n`-th free choice (R259). Assumption 21. -/
opaque groupNumber : Nat → Nat

/-- Free value: the word `grank` writes at the `n`-th free choice on a core that is in no group (R243). Assumption 18. -/
opaque noGroupRank : Nat → Word

/-- Free value: the number, before it is reduced modulo V, that a channel word takes as its own virtual core's in a task that is none: of
the kernel slot, the strand's tid, and the record of its task as 32 bytes (R322). Assumption 20. -/
opaque virtualCore : Nat → Nat → Nat → Nat

/-- Free value: whether, at the `n`-th free choice, two urgent requests that merge keep the operands of the earlier one (R275).
Assumption 19. -/
opaque urgentKeeps : Nat → Bool

/-- Free value: the fused firmware anti-rollback counter (R343). Assumption 7. -/
opaque fusedFwctr : BitVec 6
/-- Free value: the fused kernel anti-rollback counter (R343). Assumption 7. -/
opaque fusedKctr : BitVec 6
/-- Free value: whether a debug-authorisation key digest is fused (R343). Assumption 7. -/
opaque fusedDebug : Bool
/-- Free value: the number of kernel-signing keys installed, before it is reduced modulo 5 (R343). Assumption 7. -/
opaque fusedKeys : BitVec 3

/-- Free value: whether a signature of the given bytes verifies under one of the installed kernel-signing keys
(R309, R311). Assumption 15. -/
opaque kernelSignatureOk : List Byte → Bool

/-- Free value: whether a token is a signature of a message under the fused debug-authorisation key (R349). Assumption 15. -/
opaque debugTokenOk : List Byte → List Byte → Bool

/-- Free value: the digest SHA-512 of a byte string (R309, R346). Assumption 15. -/
opaque sha512 : List Byte → List Byte

/-- Free value: the identity key's digest, the firmware digest (R346). Assumption 15. -/
opaque identityDigest : List Byte
/-- Free value: SHA-512 over the firmware images (R346). Assumption 15. -/
opaque firmwareDigest : List Byte
/-- Free value: the signature of a report body under the identity key (R346). Assumption 15. -/
opaque identitySign : List Byte → List Byte

/-- Free value: which of the ports that can carry a flit takes it, at the `n`-th free choice (R337). Assumption 98. -/
opaque routePort : Nat → Nat

/-- Free value: how many flits of a port's replay buffer its peer has taken when the port goes Down, at the `n`-th free choice, before it
is reduced to their number (R335). Assumption 98. -/
opaque peerTook : Nat → Nat

/-- Free value: byte `i` of the record that holds a strand in the save area, at the `n`-th free choice (R265). Assumption 55. -/
opaque recordByte : Nat → Nat → Byte

/-- Free value: doubleword `i` of the boot nonce of the `n`-th cold reset (R342, R343). Assumption 8. -/
opaque bootNonce : Nat → Nat → Word


end Sys2Proof.Config
end

