-- ==== Sys2Proof/Machine/Bits.lean ====
section
/-! DEFINITION. Bit fields, byte order and extension, used by every layer of the machine. -/

namespace Sys2Proof.Machine

/-- Bits [lo + n - 1 : lo] of a number. -/
def bitsAt (w lo n : Nat) : Nat := w / 2 ^ lo % 2 ^ n

/-- Bit `i` of a number. -/
def bitAt (w i : Nat) : Bool := w / 2 ^ i % 2 == 1

/-- A word with bits [lo + n - 1 : lo] replaced. -/
def putBits {m : Nat} (w : BitVec m) (lo n : Nat) (v : Nat) : BitVec m :=
  BitVec.ofNat m (w.toNat - bitsAt w.toNat lo n * 2 ^ lo + v % 2 ^ n * 2 ^ lo)

/-- 1 or 0. -/
def flag (b : Bool) : Nat := if b then 1 else 0

/-- 1 or 0 as a register value. -/
def flagWord (b : Bool) : Word := if b then 1 else 0

/-- The low `n` bits of a number as a signed integer. -/
def toSigned (n w : Nat) : Int :=
  if w % 2 ^ n < 2 ^ (n - 1) then (w % 2 ^ n : Nat) else ((w % 2 ^ n : Nat) : Int) - (2 ^ n : Nat)

/-- SExt (R88): the low `n` bits extended with their top bit. -/
def sext (n : Nat) (w : Nat) : Word := BitVec.ofInt 64 (toSigned n w)

/-- ZExt (R88): the low `n` bits extended with zeros. -/
def zext (n : Nat) (w : Nat) : Word := BitVec.ofNat 64 (w % 2 ^ n)

/-- The value of a little-endian byte string (R3). -/
def leNat (bs : List Byte) : Nat :=
  match bs with
  | [] => 0
  | b :: rest => b.toNat + 256 * leNat rest

/-- The low `n` bytes of a number, least significant first (R3). -/
def leBytes (n w : Nat) : List Byte :=
  match n with
  | 0 => []
  | k + 1 => BitVec.ofNat 8 w :: leBytes k (w / 256)

/-- Byte `i` of a bit vector. -/
def byteOf {m : Nat} (w : BitVec m) (i : Nat) : Byte := BitVec.ofNat 8 (w.toNat / 2 ^ (8 * i))

/-- The number rounded down to a multiple of `n`. -/
def alignDown (a n : Nat) : Nat := a / n * n

/-- Addresses wrap modulo 2^64 (R95). -/
def wrap64 (a : Nat) : Nat := a % 2 ^ 64

/-- Two ranges meet when each begins below the other's end; a range without bytes meets nothing (R165). -/
def meets (alo ahi blo bhi : Nat) : Bool := decide (alo < ahi ∧ blo < bhi ∧ alo < bhi ∧ blo < ahi)

/-- The number of the lowest set bit among the low `n` bits, or `n`. -/
def lowestBit (n : Nat) (w : Nat) : Nat := ((List.range n).find? (fun i => bitAt w i)).getD n

/-- The number of one bits among the low `n`. -/
def countBits (n : Nat) (w : Nat) : Nat := ((List.range n).filter (fun i => bitAt w i)).length

/-- The length of the number in bits. -/
def bitLength (w : Nat) : Nat := if w = 0 then 0 else Nat.log2 w + 1

/-- Pairs a list of bytes with the locations from `loc` on. -/
def cellsAt (loc : Nat) (bs : List Byte) : List Host.Cell :=
  match bs with
  | [] => []
  | b :: rest => (loc, b) :: cellsAt (loc + 1) rest

/-- A list without repeats, in order of first appearance. -/
def dedup (l : List Nat) : List Nat :=
  l.foldl (fun acc k => if acc.contains k then acc else acc ++ [k]) []

end Sys2Proof.Machine
end

