-- ==== Sys2Proof/Machine/Table.lean ====
section
/-! DEFINITION. Sparse tables: a list of (key, value) pairs with strictly rising keys. Every collection of the machine that a
number selects (registers of a file, strands, memory bytes, contexts, queues) is one of these. -/

namespace Sys2Proof.Machine

/-- A table that lists the keys it holds a value for, keys rising. -/
abbrev Sparse (α : Type) : Type := List (Nat × α)

/-- The listed value of a key. -/
def Sparse.get? {α : Type} (t : Sparse α) (k : Nat) : Option α :=
  match t with
  | [] => none
  | (j, v) :: rest => if j = k then some v else Sparse.get? rest k

/-- The value of a key, `d` where it is not listed. -/
def Sparse.at {α : Type} (d : α) (t : Sparse α) (k : Nat) : α := (t.get? k).getD d

/-- Lists `v` for the key `k`, in place. -/
def Sparse.set {α : Type} (t : Sparse α) (k : Nat) (v : α) : Sparse α :=
  match t with
  | [] => [(k, v)]
  | (j, w) :: rest =>
    if k < j then (k, v) :: (j, w) :: rest
    else if k = j then (k, v) :: rest
    else (j, w) :: Sparse.set rest k v

/-- The table without the key `k`. -/
def Sparse.erase {α : Type} (t : Sparse α) (k : Nat) : Sparse α :=
  match t with
  | [] => []
  | (j, w) :: rest => if j = k then Sparse.erase rest k else (j, w) :: Sparse.erase rest k

/-- Writes `v` at `k` in a table whose unlisted keys hold `d`: the entry goes when `v` is `d`. -/
def Sparse.put {α : Type} [DecidableEq α] (d : α) (t : Sparse α) (k : Nat) (v : α) : Sparse α :=
  if v = d then t.erase k else t.set k v

/-- Every key of the table is at least `lo`, and keys strictly rise. -/
def Sparse.sortedFrom {α : Type} (lo : Nat) (t : Sparse α) : Bool :=
  match t with
  | [] => true
  | (k, _) :: rest => decide (lo ≤ k) && Sparse.sortedFrom (k + 1) rest

/-- The canonical form: keys strictly rising, no entry equal to the unlisted value `d`. -/
def Sparse.canon {α : Type} [DecidableEq α] (d : α) (t : Sparse α) : Bool :=
  Sparse.sortedFrom 0 t && t.all (fun e => decide (e.2 ≠ d))

/-- The keys that are listed. -/
def Sparse.keys {α : Type} (t : Sparse α) : List Nat := t.map (·.1)

/-- Inserts a number into a strictly rising list of numbers. -/
def insertNat (l : List Nat) (k : Nat) : List Nat :=
  match l with
  | [] => [k]
  | j :: rest => if k < j then k :: j :: rest else if k = j then j :: rest else j :: insertNat rest k

/-- A list of numbers without `k`. -/
def removeNat (l : List Nat) (k : Nat) : List Nat := l.filter (fun j => j != k)

/-- The first element of a list that satisfies `p`, with the list without it. -/
def takeFirst {α : Type} (p : α → Bool) (l : List α) : Option (α × List α) :=
  match l with
  | [] => none
  | a :: rest =>
    if p a then some (a, rest)
    else match takeFirst p rest with
      | none => none
      | some (b, more) => some (b, a :: more)

/-- Replaces the first element that satisfies `p` by its image under `f`. -/
def updateFirst {α : Type} (p : α → Bool) (f : α → α) (l : List α) : List α :=
  match l with
  | [] => []
  | a :: rest => if p a then f a :: rest else a :: updateFirst p f rest

end Sys2Proof.Machine
end

