-- ==== Sys2Proof/Syntax.lean ====
section
/-! DEFINITION. The one inductive of the machine's steps: a constructor for every row of spec/opcode_table.json.
The first 241 are instruction words (R57). The other 106 are the table's events (spec/95_what_each_step_holds.md): steps of
the device that no program word encodes; their operands name which unit, copy, queue or port takes the step. -/

namespace Sys2Proof

/-- Who waits on a fault-queue entry: a strand, a tile instruction's strand on an engine, or a copy (R291, R293). -/
inductive Requester where
  | strand (sid : StrandId)
  | engine (sid : StrandId) (engine : Nat)
  | copy (id : Nat)
  deriving DecidableEq, Repr

/-- Which lanes of a Driost port trained (R335). -/
inductive Lanes where
  | all | low | high | neither
  deriving DecidableEq, Repr

/-- A Driost flit as its receiver meets it (R333, R334): its virtual network, sequence number, destination socket and
number of hops taken; whether its CRC holds; its 240 payload bytes. -/
structure Flit where
  network : BitVec 2
  seq     : Nat
  socket  : Nat
  hops    : Nat
  crcOk   : Bool
  payload : List Byte
  deriving DecidableEq, Repr

/-- A part of a strand's state that a debug access names (R347): an integer, vector or mask register of it or its core, an elastic
granule, a control register, the PC, a tile's bytes, format tag or scale side-car, an accumulator cell by its number; and what only mode 3
reaches: a range-counter slot, the pending fences, a class count, WIDX, RIDX or SEQ, the pending interrupts, the wake condition, WOKE. -/
inductive DebugReg where
  | x (n : BitVec 5)
  | s (n : BitVec 5)
  | v (n : BitVec 5)
  | m (n : BitVec 3)
  | granule (n : BitVec 6)
  | csr (n : BitVec 5)
  | pc
  | tile (t : TReg)
  | tileTag (t : TReg)
  | tileSide (t : TReg)
  | acc (cell : BitVec 14)
  | slot (n : BitVec 3)
  | fences
  | count (cls : BitVec 2)
  | ring (n : BitVec 2)
  | pending
  | wait
  | woke
  deriving DecidableEq, Repr

/-- A host debug access (R347, R348): what it reads or does. -/
inductive DebugAccess where
  | readStrandState (sid : StrandId)
  | readPc (sid : StrandId)
  | readQueueOccupancy (engine : Nat)
  | readReg (sid : StrandId) (reg : DebugReg)
  | writeReg (sid : StrandId) (reg : DebugReg) (value : Nat)
  | readMem (addr : Nat)
  | writeMem (addr : Nat) (value : Byte)
  | readEngine (engine : Nat)
  | writeEntry (engine index prio since : Nat)
  | writeTurn (engine last : Nat)
  | stopStrand (sid : StrandId)
  | stepStrand (sid : StrandId)
  | resumeStrand (sid : StrandId)
  deriving DecidableEq, Repr

/-- The reference clocks (R361). -/
inductive RefClock where
  | host | driost (pair : BitVec 2) | management
  deriving DecidableEq, Repr

/-- The supply rails (R355). -/
inductive Rail where
  | vcore | veng | vmesh | vmem | vio | vaon
  deriving DecidableEq, Repr

/-- Where a soft error strikes and what the protection makes of it (R331, R353). -/
inductive SoftSite where
  | corrected (source : Nat) (line : Option Nat)
  | cleanLine (core line : Nat)
  | cleanTlb (core va : Nat)
  | sram (sid : StrandId)
  | scratchpad (core word : Nat)
  | siltOnEviction (line : Nat)
  | siltOnHit (line : Nat)
  | dramOnRead (line : Nat)
  | registerFile (sid : StrandId) (again : Bool)
  | blackBoxOrFuse
  deriving DecidableEq, Repr

/-- A step of the machine: one constructor per row of the opcode table, in the table's order. -/
inductive Instr where
  /-- R52. Immediate-extension hint that supplies the high bits of the next instruction's immediate or displacement. -/
  | himm (p : BitVec 24)
  /-- R53. Scheduling hint that sets branch likelihood, no-speculation or an issue-priority nudge for the next word. -/
  | hsched (b : BitVec 2) (n : BitVec 1) (u : BitVec 2)
  /-- R54. Modifier that forbids the next load from taking a value from the shared store buffer. -/
  | hmodNofwd
  /-- R54. Modifier that makes the next access allocate no line in the L1 data cache. -/
  | hmodL1na
  /-- R56. Format prefix that sets operand formats, rounding override and FP8 overflow mode for the next instruction. -/
  | fmt (a : BitVec 4) (b : BitVec 4) (o : BitVec 4) (r : BitVec 3) (v : BitVec 1)
  /-- R89. Writes a + b. -/
  | add (d : IntReg) (a : IntReg) (b : IntReg)
  /-- R89. Writes a - b. -/
  | sub (d : IntReg) (a : IntReg) (b : IntReg)
  /-- R89. Writes a AND b. -/
  | and (d : IntReg) (a : IntReg) (b : IntReg)
  /-- R89. Writes a OR b. -/
  | or (d : IntReg) (a : IntReg) (b : IntReg)
  /-- R89. Writes a XOR b. -/
  | xor (d : IntReg) (a : IntReg) (b : IntReg)
  /-- R89. Writes a AND NOT b. -/
  | andn (d : IntReg) (a : IntReg) (b : IntReg)
  /-- R89. Writes a OR NOT b. -/
  | orn (d : IntReg) (a : IntReg) (b : IntReg)
  /-- R89. Writes NOT (a XOR b). -/
  | xnor (d : IntReg) (a : IntReg) (b : IntReg)
  /-- R89. Shifts a left by b[5:0]. -/
  | sll (d : IntReg) (a : IntReg) (b : IntReg)
  /-- R89. Shifts a right logically by b[5:0]. -/
  | srl (d : IntReg) (a : IntReg) (b : IntReg)
  /-- R89. Shifts a right arithmetically by b[5:0]. -/
  | sra (d : IntReg) (a : IntReg) (b : IntReg)
  /-- R89. Rotates a left by b[5:0]. -/
  | rol (d : IntReg) (a : IntReg) (b : IntReg)
  /-- R89. Rotates a right by b[5:0]. -/
  | ror (d : IntReg) (a : IntReg) (b : IntReg)
  /-- R89. Writes 1 if a < b signed, else 0. -/
  | slt (d : IntReg) (a : IntReg) (b : IntReg)
  /-- R89. Writes 1 if a < b unsigned, else 0. -/
  | sltu (d : IntReg) (a : IntReg) (b : IntReg)
  /-- R89. Writes the signed minimum. -/
  | min (d : IntReg) (a : IntReg) (b : IntReg)
  /-- R89. Writes the signed maximum. -/
  | max (d : IntReg) (a : IntReg) (b : IntReg)
  /-- R89. Writes the unsigned minimum. -/
  | minu (d : IntReg) (a : IntReg) (b : IntReg)
  /-- R89. Writes the unsigned maximum. -/
  | maxu (d : IntReg) (a : IntReg) (b : IntReg)
  /-- R89. Writes the low 64 bits of a × b. -/
  | mul (d : IntReg) (a : IntReg) (b : IntReg)
  /-- R89. Writes the high 64 bits of the signed product. -/
  | mulh (d : IntReg) (a : IntReg) (b : IntReg)
  /-- R89. Writes the high 64 bits of the unsigned product. -/
  | mulhu (d : IntReg) (a : IntReg) (b : IntReg)
  /-- R89. Writes the high 64 bits of the signed-by-unsigned product. -/
  | mulhsu (d : IntReg) (a : IntReg) (b : IntReg)
  /-- R90. Writes the signed quotient, with fixed non-trapping edge cases. -/
  | div (d : IntReg) (a : IntReg) (b : IntReg)
  /-- R90. Writes the unsigned quotient. -/
  | divu (d : IntReg) (a : IntReg) (b : IntReg)
  /-- R90. Writes the signed remainder. -/
  | rem (d : IntReg) (a : IntReg) (b : IntReg)
  /-- R90. Writes the unsigned remainder. -/
  | remu (d : IntReg) (a : IntReg) (b : IntReg)
  /-- R89. Writes the count of leading zero bits of a. -/
  | clz (d : IntReg) (a : IntReg)
  /-- R89. Writes the count of trailing zero bits of a. -/
  | ctz (d : IntReg) (a : IntReg)
  /-- R89. Writes the count of one bits of a. -/
  | popc (d : IntReg) (a : IntReg)
  /-- R89. Writes a with its bytes reversed. -/
  | bswap (d : IntReg) (a : IntReg)
  /-- R91. Writes a if the old destination is nonzero, else b. -/
  | sel (d : IntReg) (a : IntReg) (b : IntReg)
  /-- R92. Writes a plus the sign-extended or widened immediate. -/
  | addi (d : IntReg) (a : IntReg) (i : BitVec 14)
  /-- R92. Writes a AND the immediate. -/
  | andi (d : IntReg) (a : IntReg) (i : BitVec 14)
  /-- R92. Writes a OR the immediate. -/
  | ori (d : IntReg) (a : IntReg) (i : BitVec 14)
  /-- R92. Writes a XOR the immediate. -/
  | xori (d : IntReg) (a : IntReg) (i : BitVec 14)
  /-- R93. Shifts a left by an immediate count. -/
  | slli (d : BitVec 6) (a : BitVec 6) (n : BitVec 6)
  /-- R93. Shifts a right logically by an immediate count. -/
  | srli (d : BitVec 6) (a : BitVec 6) (n : BitVec 6)
  /-- R93. Shifts a right arithmetically by an immediate count. -/
  | srai (d : BitVec 6) (a : BitVec 6) (n : BitVec 6)
  /-- R93. Rotates a right by an immediate count. -/
  | rori (d : BitVec 6) (a : BitVec 6) (n : BitVec 6)
  /-- R94. Sets the top 14 bits of a value, keeping bits 49:0 of the source. -/
  | lih (d : IntReg) (a : IntReg) (i : BitVec 14)
  /-- R92. Writes 1 if a < immediate signed. -/
  | slti (d : IntReg) (a : IntReg) (i : BitVec 14)
  /-- R92. Writes 1 if a < immediate unsigned. -/
  | sltiu (d : IntReg) (a : IntReg) (i : BitVec 14)
  /-- R92. Writes the low 64 bits of a × immediate. -/
  | muli (d : IntReg) (a : IntReg) (i : BitVec 14)
  /-- R95. Loads 1 to 8 bytes at base plus scaled displacement, sign- or zero-extended. -/
  | ld (d : IntReg) (b : IntReg) (s : BitVec 3) (e : BitVec 2) (l : BitVec 1) (p : BitVec 8)
  /-- R99. Prefetches the line holding base plus displacement × 64 into the L1 and Silt slice. -/
  | pf (b : IntReg) (e : BitVec 2) (l : BitVec 1) (p : BitVec 8)
  /-- R95. Stores 1 to 8 bytes at base plus scaled displacement and sets the word full. -/
  | st (d : IntReg) (b : IntReg) (s : BitVec 3) (e : BitVec 2) (l : BitVec 1) (p : BitVec 8)
  /-- R95. Loads at base plus index × access size. -/
  | ldx (d : IntReg) (b : IntReg) (s : BitVec 3) (e : BitVec 2) (l : BitVec 1) (i : IntReg)
  /-- R99. Prefetches the line at base plus index × 64. -/
  | pfIndexed (b : IntReg) (e : BitVec 2) (l : BitVec 1) (i : IntReg)
  /-- R95. Stores at base plus index × access size. -/
  | stx (d : IntReg) (b : IntReg) (s : BitVec 3) (e : BitVec 2) (l : BitVec 1) (i : IntReg)
  /-- R101. Atomically swaps a word at its home and returns the old value. -/
  | amoSwap (d : IntReg) (a : IntReg) (b : IntReg) (w : BitVec 1)
  /-- R101. Atomically compares with D and writes B on equality, returning the old value. -/
  | amoCas (d : IntReg) (a : IntReg) (b : IntReg) (w : BitVec 1)
  /-- R101. Atomically adds to a word. -/
  | amoAdd (d : IntReg) (a : IntReg) (b : IntReg) (w : BitVec 1)
  /-- R101. Atomically ANDs into a word. -/
  | amoAnd (d : IntReg) (a : IntReg) (b : IntReg) (w : BitVec 1)
  /-- R101. Atomically ORs into a word. -/
  | amoOr (d : IntReg) (a : IntReg) (b : IntReg) (w : BitVec 1)
  /-- R101. Atomically XORs into a word. -/
  | amoXor (d : IntReg) (a : IntReg) (b : IntReg) (w : BitVec 1)
  /-- R101. Atomically stores the signed minimum. -/
  | amoMin (d : IntReg) (a : IntReg) (b : IntReg) (w : BitVec 1)
  /-- R101. Atomically stores the signed maximum. -/
  | amoMax (d : IntReg) (a : IntReg) (b : IntReg) (w : BitVec 1)
  /-- R101. Atomically stores the unsigned minimum. -/
  | amoMinu (d : IntReg) (a : IntReg) (b : IntReg) (w : BitVec 1)
  /-- R101. Atomically stores the unsigned maximum. -/
  | amoMaxu (d : IntReg) (a : IntReg) (b : IntReg) (w : BitVec 1)
  /-- R104. Waits for the word to be full, then reads it and makes it empty. -/
  | ldc (d : IntReg) (a : IntReg)
  /-- R104. Waits for the word to be empty, then writes it and makes it full. -/
  | stp (a : IntReg) (b : IntReg)
  /-- R104. Waits for the word to be full, then reads it leaving it full. -/
  | ldf (d : IntReg) (a : IntReg)
  /-- R104. Makes the word empty without changing it. -/
  | feSet (a : IntReg)
  /-- R104. Makes the word full without changing it. -/
  | feFill (a : IntReg)
  /-- R104. Writes 1 if the word is full, 0 if empty. -/
  | feProbe (d : IntReg) (a : IntReg)
  /-- R108. Branches if a = b. -/
  | beq (a : IntReg) (b : IntReg) (o : BitVec 14)
  /-- R108. Branches if a ≠ b. -/
  | bne (a : IntReg) (b : IntReg) (o : BitVec 14)
  /-- R108. Branches if a < b signed. -/
  | blt (a : IntReg) (b : IntReg) (o : BitVec 14)
  /-- R108. Branches if a ≥ b signed. -/
  | bge (a : IntReg) (b : IntReg) (o : BitVec 14)
  /-- R108. Branches if a < b unsigned. -/
  | bltu (a : IntReg) (b : IntReg) (o : BitVec 14)
  /-- R108. Branches if a ≥ b unsigned. -/
  | bgeu (a : IntReg) (b : IntReg) (o : BitVec 14)
  /-- R109. Jumps to PC plus 4 × OFF26. -/
  | j (o : BitVec 26)
  /-- R109. Jumps to PC plus 4 × OFF26 and writes the return address to x1. -/
  | call (o : BitVec 26)
  /-- R110. Jumps to the address in a register. -/
  | jr (a : IntReg)
  /-- R110. Jumps to a register address and writes the return address to x1. -/
  | callr (a : IntReg)
  /-- R110. Jumps to the address in x1. -/
  | ret
  /-- R115. Elastic a + b rounded at PREC.P. -/
  | fadd (d : FReg) (a : FReg) (b : FReg)
  /-- R115. Elastic a - b rounded at PREC.P. -/
  | fsub (d : FReg) (a : FReg) (b : FReg)
  /-- R115. Elastic a × b rounded at PREC.P. -/
  | fmul (d : FReg) (a : FReg) (b : FReg)
  /-- R115. Elastic a ÷ b correctly rounded. -/
  | fdiv (d : FReg) (a : FReg) (b : FReg)
  /-- R115. Elastic square root correctly rounded. -/
  | fsqrt (d : FReg) (a : FReg)
  /-- R115. Elastic fused a × b + c with one rounding. -/
  | fma (d : FReg) (a : FReg) (b : FReg) (c : FReg)
  /-- R115. Elastic fused a × b - c. -/
  | fms (d : FReg) (a : FReg) (b : FReg) (c : FReg)
  /-- R115. Elastic fused c - a × b. -/
  | fnma (d : FReg) (a : FReg) (b : FReg) (c : FReg)
  /-- R119. Returns the smaller elastic operand unchanged. -/
  | fmin (d : FReg) (a : FReg) (b : FReg)
  /-- R119. Returns the larger elastic operand unchanged. -/
  | fmax (d : FReg) (a : FReg) (b : FReg)
  /-- R117. Writes the RNE-rounded sum and its exact error. -/
  | ftwosum (d : FReg) (a : FReg) (b : FReg) (c : FReg)
  /-- R117. Writes the RNE-rounded product and its exact error. -/
  | ftwoprod (d : FReg) (a : FReg) (b : FReg) (c : FReg)
  /-- R118. Rounds an elastic value to an integral value in SSW.RM. -/
  | fround (d : FReg) (a : FReg)
  /-- R118. Multiplies an elastic value by 2 to the power of an integer register. -/
  | fscale (d : FReg) (a : FReg) (b : XReg)
  /-- R119. Copies an elastic value. -/
  | fmov (d : FReg) (a : FReg)
  /-- R119. Inverts the sign of an elastic value. -/
  | fneg (d : FReg) (a : FReg)
  /-- R119. Clears the sign of an elastic value. -/
  | fabs (d : FReg) (a : FReg)
  /-- R126. Loads an elastic record at base plus DISP12 and rounds it to PREC.P. -/
  | fld (d : FReg) (b : IntReg) (p : BitVec 12)
  /-- R126. Stores an elastic register as a record at base plus DISP12. -/
  | fst (d : FReg) (b : IntReg) (p : BitVec 12)
  /-- R126. Loads an elastic record at base plus byte index. -/
  | fldS (d : FReg) (b : IntReg) (i : IntReg)
  /-- R126. Stores an elastic record at base plus byte index. -/
  | fstS (d : FReg) (b : IntReg) (i : IntReg)
  /-- R123. Sets PREC.P and re-lays every elastic register at the new window length. -/
  | setprec (a : XReg)
  /-- R124. Writes PREC.P to an integer register. -/
  | getprec (d : XReg)
  /-- R124. Sets SSW.RM from an integer register, trapping above 5. -/
  | setrnd (a : XReg)
  /-- R122. Converts a signed 64-bit integer to elastic. -/
  | fcvtElD (d : FReg) (a : XReg)
  /-- R122. Converts an unsigned 64-bit integer to elastic. -/
  | fcvtElDu (d : FReg) (a : XReg)
  /-- R122. Converts elastic to a signed 64-bit integer. -/
  | fcvtDEl (d : XReg) (a : FReg)
  /-- R122. Converts elastic to an unsigned 64-bit integer. -/
  | fcvtDuEl (d : XReg) (a : FReg)
  /-- R122. Converts FP64 bits to elastic. -/
  | fcvtElDf (d : FReg) (a : XReg)
  /-- R122. Converts elastic to FP64 bits. -/
  | fcvtDfEl (d : XReg) (a : FReg)
  /-- R122. Converts FP32 bits to elastic. -/
  | fcvtElSf (d : FReg) (a : XReg)
  /-- R122. Converts elastic to FP32 bits. -/
  | fcvtSfEl (d : XReg) (a : FReg)
  /-- R120. Writes 1 if the elastic operands are equal. -/
  | fcmpEq (d : XReg) (a : FReg) (b : FReg)
  /-- R120. Writes 1 if a < b, setting NV on NaN. -/
  | fcmpLt (d : XReg) (a : FReg) (b : FReg)
  /-- R120. Writes 1 if a ≤ b, setting NV on NaN. -/
  | fcmpLe (d : XReg) (a : FReg) (b : FReg)
  /-- R120. Writes 1 if either operand is NaN. -/
  | fcmpUn (d : XReg) (a : FReg) (b : FReg)
  /-- R121. Writes the class word of an elastic value. -/
  | fclass (d : XReg) (a : FReg)
  /-- R134. Vector integer add per active element. -/
  | vadd (d : VReg) (a : VReg) (b : VReg) (k : MReg) (w : BitVec 2)
  /-- R134. Vector integer subtract. -/
  | vsub (d : VReg) (a : VReg) (b : VReg) (k : MReg) (w : BitVec 2)
  /-- R134. Vector integer multiply, low part. -/
  | vmul (d : VReg) (a : VReg) (b : VReg) (k : MReg) (w : BitVec 2)
  /-- R134. Vector signed multiply, high part. -/
  | vmulh (d : VReg) (a : VReg) (b : VReg) (k : MReg) (w : BitVec 2)
  /-- R134. Vector AND. -/
  | vand (d : VReg) (a : VReg) (b : VReg) (k : MReg) (w : BitVec 2)
  /-- R134. Vector OR. -/
  | vor (d : VReg) (a : VReg) (b : VReg) (k : MReg) (w : BitVec 2)
  /-- R134. Vector XOR. -/
  | vxor (d : VReg) (a : VReg) (b : VReg) (k : MReg) (w : BitVec 2)
  /-- R134. Vector shift left. -/
  | vsll (d : VReg) (a : VReg) (b : VReg) (k : MReg) (w : BitVec 2)
  /-- R134. Vector logical shift right. -/
  | vsrl (d : VReg) (a : VReg) (b : VReg) (k : MReg) (w : BitVec 2)
  /-- R134. Vector arithmetic shift right. -/
  | vsra (d : VReg) (a : VReg) (b : VReg) (k : MReg) (w : BitVec 2)
  /-- R134. Vector signed minimum. -/
  | vmin (d : VReg) (a : VReg) (b : VReg) (k : MReg) (w : BitVec 2)
  /-- R134. Vector signed maximum. -/
  | vmax (d : VReg) (a : VReg) (b : VReg) (k : MReg) (w : BitVec 2)
  /-- R134. Vector unsigned minimum. -/
  | vminu (d : VReg) (a : VReg) (b : VReg) (k : MReg) (w : BitVec 2)
  /-- R134. Vector unsigned maximum. -/
  | vmaxu (d : VReg) (a : VReg) (b : VReg) (k : MReg) (w : BitVec 2)
  /-- R134. Writes a mask of elements where a = b. -/
  | vcmpEq (d : MReg) (a : VReg) (b : VReg) (k : MReg) (w : BitVec 2)
  /-- R134. Writes a mask of elements where a < b signed. -/
  | vcmpLt (d : MReg) (a : VReg) (b : VReg) (k : MReg) (w : BitVec 2)
  /-- R134. Writes a mask of elements where a < b unsigned. -/
  | vcmpLtu (d : MReg) (a : VReg) (b : VReg) (k : MReg) (w : BitVec 2)
  /-- R135. Adds four-byte dot products into 32-bit lanes. -/
  | vdot4 (d : VReg) (a : VReg) (b : VReg) (k : MReg)
  /-- R136. Vector IEEE add. -/
  | vfadd (d : VReg) (a : VReg) (b : VReg) (k : MReg) (w : BitVec 3)
  /-- R136. Vector IEEE subtract. -/
  | vfsub (d : VReg) (a : VReg) (b : VReg) (k : MReg) (w : BitVec 3)
  /-- R136. Vector IEEE multiply. -/
  | vfmul (d : VReg) (a : VReg) (b : VReg) (k : MReg) (w : BitVec 3)
  /-- R136. Vector IEEE divide, correctly rounded. -/
  | vfdiv (d : VReg) (a : VReg) (b : VReg) (k : MReg) (w : BitVec 3)
  /-- R136. Vector IEEE square root. -/
  | vfsqrt (d : VReg) (a : VReg) (k : MReg) (w : BitVec 3)
  /-- R136. Vector IEEE fused a × b plus the old destination element. -/
  | vfma (d : VReg) (a : VReg) (b : VReg) (k : MReg) (w : BitVec 3)
  /-- R137. Vector IEEE minimum. -/
  | vfmin (d : VReg) (a : VReg) (b : VReg) (k : MReg) (w : BitVec 3)
  /-- R137. Vector IEEE maximum. -/
  | vfmax (d : VReg) (a : VReg) (b : VReg) (k : MReg) (w : BitVec 3)
  /-- R137. IEEE equality comparison into a mask. -/
  | vfcmpEq (d : MReg) (a : VReg) (b : VReg) (k : MReg) (w : BitVec 3)
  /-- R137. IEEE less-than comparison into a mask. -/
  | vfcmpLt (d : MReg) (a : VReg) (b : VReg) (k : MReg) (w : BitVec 3)
  /-- R137. IEEE less-or-equal comparison into a mask. -/
  | vfcmpLe (d : MReg) (a : VReg) (b : VReg) (k : MReg) (w : BitVec 3)
  /-- R137. IEEE unordered comparison into a mask. -/
  | vfcmpUn (d : MReg) (a : VReg) (b : VReg) (k : MReg) (w : BitVec 3)
  /-- R138. Converts vector elements between IEEE types. -/
  | vfcvt (d : VReg) (a : VReg) (s : BitVec 3) (k : MReg) (w : BitVec 3)
  /-- R139. Elastic-lane add. -/
  | veadd (d : VReg) (a : VReg) (b : VReg) (k : MReg)
  /-- R139. Elastic-lane subtract. -/
  | vesub (d : VReg) (a : VReg) (b : VReg) (k : MReg)
  /-- R139. Elastic-lane multiply. -/
  | vemul (d : VReg) (a : VReg) (b : VReg) (k : MReg)
  /-- R139. Elastic-lane fused multiply-add with the old destination lane. -/
  | vefma (d : VReg) (a : VReg) (b : VReg) (k : MReg)
  /-- R141. Unit-stride all-or-nothing vector load. -/
  | vld (d : VReg) (b : IntReg) (k : MReg) (w : BitVec 2)
  /-- R141. Unit-stride all-or-nothing vector store. -/
  | vst (d : VReg) (b : IntReg) (k : MReg) (w : BitVec 2)
  /-- R141. Strided vector load. -/
  | vlds (d : VReg) (b : IntReg) (c : IntReg) (k : MReg) (w : BitVec 2)
  /-- R141. Strided vector store. -/
  | vsts (d : VReg) (b : IntReg) (c : IntReg) (k : MReg) (w : BitVec 2)
  /-- R141. Indexed gather load. -/
  | vgath (d : VReg) (b : IntReg) (c : VReg) (k : MReg) (w : BitVec 2)
  /-- R145. Gather that completes translated elements, starts walks for the rest and reports completion in the mask. -/
  | vgathT (d : VReg) (b : IntReg) (c : VReg) (k : MReg) (w : BitVec 2)
  /-- R141. Indexed scatter store. -/
  | vscat (d : VReg) (b : IntReg) (c : VReg) (k : MReg) (w : BitVec 2)
  /-- R144. Loads one elastic record per lane at a byte stride. -/
  | vldel (d : VReg) (b : IntReg) (c : IntReg) (k : MReg)
  /-- R144. Stores one elastic record per lane at a byte stride. -/
  | vstel (d : VReg) (b : IntReg) (c : IntReg) (k : MReg)
  /-- R146. Permutes elements by index vector. -/
  | vperm (d : VReg) (a : VReg) (b : VReg) (k : MReg) (w : BitVec 2)
  /-- R146. Slides elements by a signed register count. -/
  | vslide (d : VReg) (a : VReg) (b : XReg) (k : MReg) (w : BitVec 2)
  /-- R146. Broadcasts an integer register into every active element. -/
  | vbcast (d : VReg) (a : XReg) (k : MReg) (w : BitVec 2)
  /-- R146. Extracts one element into an integer register. -/
  | vext (d : XReg) (a : VReg) (b : XReg) (w : BitVec 2)
  /-- R147. Sums active elements into an integer register. -/
  | vredAdd (d : XReg) (a : VReg) (k : MReg) (w : BitVec 2)
  /-- R147. Signed minimum of active elements. -/
  | vredMin (d : XReg) (a : VReg) (k : MReg) (w : BitVec 2)
  /-- R147. Signed maximum of active elements. -/
  | vredMax (d : XReg) (a : VReg) (k : MReg) (w : BitVec 2)
  /-- R148. Order-independent window-sum reduction of active elements plus a running sum. -/
  | vredEw (d : VReg) (a : VReg) (b : VReg) (k : MReg) (w : BitVec 3)
  /-- R149. Mask AND. -/
  | mand (d : MReg) (a : MReg) (b : MReg)
  /-- R149. Mask OR. -/
  | mor (d : MReg) (a : MReg) (b : MReg)
  /-- R149. Mask XOR. -/
  | mxor (d : MReg) (a : MReg) (b : MReg)
  /-- R149. Mask NOT. -/
  | mnot (d : MReg) (a : MReg)
  /-- R149. Sets the low n mask bits. -/
  | msetn (d : MReg) (a : XReg)
  /-- R149. Counts set mask bits. -/
  | mpop (d : XReg) (a : MReg)
  /-- R149. Writes the lowest set mask bit, or 128. -/
  | mfirst (d : XReg) (a : MReg)
  /-- R183. Loads up to 16 rows into a tile, all or nothing, and tags its format. -/
  | tld (t : TReg) (b : IntReg) (s : IntReg) (n : BitVec 4)
  /-- R184. Stores up to 16 tile rows as raw bytes. -/
  | tst (t : TReg) (b : IntReg) (s : IntReg) (n : BitVec 4)
  /-- R183. Loads rows into an accumulator tile, converting to cells. -/
  | acld (x : BitVec 3) (y : BitVec 3) (b : IntReg) (s : IntReg) (n : BitVec 4)
  /-- R184. Stores accumulator rows, converting cells to a format. -/
  | acst (x : BitVec 3) (y : BitVec 3) (b : IntReg) (s : IntReg) (n : BitVec 4)
  /-- R187. Adds a 16 × 16 × K tile product into an accumulator tile by window sum. -/
  | tmma (a : TReg) (b : TReg) (x : BitVec 3) (y : BitVec 3)
  /-- R185. Zeroes a tile and its side-car, keeping its tag. -/
  | tzero (t : TReg)
  /-- R185. Sets every cell of an accumulator tile to +0. -/
  | aczero (x : BitVec 3) (y : BitVec 3)
  /-- R185. Copies an accumulator tile with its cell lengths. -/
  | acmov (r : BitVec 3) (c : BitVec 3) (x : BitVec 3) (y : BitVec 3)
  /-- R190. Runs a 64 × 64 × K multiply from scratchpad operands k-block by k-block. -/
  | tgemm (d : IntReg) (a : IntReg) (b : IntReg)
  /-- R198. Runs a ganged 64 × 256 multiply in lockstep on the cluster's four engines. -/
  | tgemmG (d : IntReg) (a : IntReg) (b : IntReg)
  /-- R176. Binds the strand's tile context to an engine of its cluster and returns a status. -/
  | tbind (d : IntReg) (a : IntReg)
  /-- R176. Discards the tile context, breaking any gang. -/
  | tunbind (d : IntReg)
  /-- R177. Returns the binding status word. -/
  | tstat (d : IntReg)
  /-- R197. Arrives at a wired gang barrier and becomes Ganged when a round completes. -/
  | gang (n : BitVec 3)
  /-- R215. Starts an asynchronous bulk copy. -/
  | send (d : IntReg) (a : IntReg) (b : IntReg)
  /-- R216. Sends a request packet that starts a landing handler at a target core. -/
  | sendh (d : IntReg) (a : IntReg) (b : VReg)
  /-- R216. Sends a reply packet on the reply network. -/
  | sendr (d : IntReg) (a : IntReg) (b : VReg)
  /-- R220. Waits until any masked tag is set. -/
  | waita (d : IntReg) (a : IntReg)
  /-- R220. Waits until all masked tags are set. -/
  | waitl (d : IntReg) (a : IntReg)
  /-- R220. Writes the lowest set masked tag, never waiting. -/
  | ffr (d : IntReg) (a : IntReg)
  /-- R220. Clears masked tags. -/
  | tclr (a : IntReg)
  /-- R221. Waits until each class count is at or below its limit. -/
  | waitc (a : IntReg)
  /-- R222. Waits for the ring entry at RIDX to be nonzero and returns its address. -/
  | waitr (d : IntReg)
  /-- R168. Range fence over one byte range against in-flight asynchronous operations. -/
  | fenceR (d : IntReg) (a : IntReg)
  /-- R223. Fence over up to four tensor handles, refreshing their cached shape records. -/
  | fenceH (a : IntReg) (n : BitVec 3)
  /-- R223. Fence over up to four ranges read from a list. -/
  | fenceL (a : IntReg) (n : BitVec 3)
  /-- R224. Issues an asynchronous flip of every shadowed page in a range. -/
  | publish (d : IntReg) (a : IntReg)
  /-- R219. Copies a box of a tensor handle into a packed span. -/
  | tsend (d : IntReg) (a : IntReg) (b : IntReg)
  /-- R238. Reads a task record, increments its join counter and pushes it onto the deque. -/
  | spawn (d : IntReg) (a : IntReg)
  /-- R240. Waits for a join counter to reach zero, running own-deque tasks meanwhile. -/
  | join (a : IntReg)
  /-- R239. Ends a task, decrementing its counter and returning or going Idle. -/
  | exit (a : IntReg)
  /-- R242. Gives up fetch until the other runnable general strands have been fetched. -/
  | yield
  /-- R241. Makes one steal round of levels 1-4 into its own deque. -/
  | steal (d : IntReg)
  /-- R243. Writes a component of TCOORD. -/
  | tcoord (d : IntReg) (n : BitVec 2)
  /-- R243. Writes the rank of a core and the group size. -/
  | grank (d : IntReg) (a : IntReg) (g : BitVec 1)
  /-- R244. Waits until every core has accepted the latest spread flood. -/
  | spreadwait (d : IntReg)
  /-- R251. Initialises a barrier word with a count and opens a new generation. -/
  | barInit (a : IntReg) (n : IntReg)
  /-- R251. Counts an arrival, completing the generation on the last one. -/
  | barArr (d : IntReg) (a : IntReg)
  /-- R251. Waits until the generation differs from a given value. -/
  | barWait (d : IntReg) (a : IntReg) (g : IntReg)
  /-- R251. Arrives and waits for the generation to complete. -/
  | barAw (d : IntReg) (a : IntReg)
  /-- R251. Reads the barrier word at its home. -/
  | barQuery (d : IntReg) (a : IntReg)
  /-- R270. Reads a control register. -/
  | csrr (d : IntReg) (n : BitVec 8)
  /-- R270. Writes a control register, returning the old value. -/
  | csrw (d : IntReg) (a : IntReg) (n : BitVec 8)
  /-- R270. Sets bits of a control register. -/
  | csrs (d : IntReg) (a : IntReg) (n : BitVec 8)
  /-- R270. Clears bits of a control register. -/
  | csrc (d : IntReg) (a : IntReg) (n : BitVec 8)
  /-- R271. Raises software trap 0xE0 with the given number. -/
  | trap (n : BitVec 8)
  /-- R272. Returns from a trap, or ends standby work applying a resolution. -/
  | eret
  /-- R273. Sends its own general strand to Halted at supervisor level. -/
  | halt
  /-- R274. Waits for a pending interrupt or a time deadline. -/
  | wfe (a : IntReg)
  /-- R275. Writes the strand's tid value. -/
  | tid (d : IntReg)
  /-- R275. Writes the time unit's nanosecond count. -/
  | rdtime (d : IntReg)
  /-- R275. Sends an urgent request to a core's standby strand or a posted interrupt to a general strand. -/
  | urgent (d : IntReg) (a : IntReg) (k : BitVec 1) (n : BitVec 4)
  /-- R211. Ends a landing handler, sets its tag and starts the next pending packet. -/
  | lret
  /-- R294. Invalidates cached translations of a range for an ASID set. -/
  | invR (d : IntReg) (a : IntReg) (n : IntReg)
  /-- R294. Invalidates every cached translation for an ASID set. -/
  | invA (d : IntReg)
  /-- R295. Waits until every earlier invalidation of the strand is acknowledged. -/
  | invack
  /-- R296. Translates an address and returns the leaf's fields without trapping. -/
  | probe (d : IntReg) (a : IntReg)
  /-- R297. Resolves a fault-queue entry by making its requesters retry. -/
  | fqReplay (a : IntReg)
  /-- R297. Resolves a fault-queue entry by delivering a cause to its requesters. -/
  | fqFail (a : IntReg) (c : IntReg)
  /-- R322. Appends a word to a virtual core's channel mailbox, waiting while full. -/
  | chsend (d : IntReg) (a : IntReg) (n : BitVec 8)
  /-- R322. Removes the oldest word from the own mailbox, waiting while empty. -/
  | chrecv (d : IntReg) (n : BitVec 8)
  /-- R322. Returns the number of words in the own mailbox. -/
  | chpoll (d : IntReg) (n : BitVec 8)
  /-- R322. Returns V and the own virtual-core number. -/
  | vcore (d : IntReg)
  /-- R60. A word that is not an instruction reaches retirement and traps with its fixed cause. -/
  | nonInstructionWord (cause : Cause)
  /-- R261. A pending interrupt is taken by a strand that may take it, entering the supervisor handler or withdrawing a wait. -/
  | takeInterrupt (sid : StrandId)
  /-- R261. A host interrupt message arrives through the host link and is posted as cause 0xE3. -/
  | hostInterruptMessage (tid : Nat)
  /-- R25. A parked strand's wake condition becomes true and its blocking instruction completes. -/
  | strandWake (sid : StrandId)
  /-- R264. The standby strand starts urgent work after pausing the core's general strands. -/
  | standbyUrgentStart (core : Nat)
  /-- R263. A standby strand starts serving a handler-chain message for a trapped strand. -/
  | chainMessageStart (core : Nat)
  /-- R53. An hsched priority nudge lapses after 64 core cycles. -/
  | nudgeExpiry (sid : StrandId)
  /-- R20. A router whose local injection has waited 64 mesh cycles takes a starvation token. -/
  | starvationToken (router waited : Nat)
  /-- R41. A core whose strands have all been inactive for 64 core cycles enters register-file retention. -/
  | retentionEntry (core : Nat)
  /-- R43. A wake event brings a core out of retention within its wake latency. -/
  | retentionWake (core : Nat)
  /-- R274. The time unit reaches a wfe deadline and the waiting strand retires. -/
  | wfeDeadline (sid : StrandId)
  /-- R242. A yielding strand becomes eligible again after 16 core cycles. -/
  | yieldTimeout (sid : StrandId)
  /-- R154. A retired store leaves the core's shared store buffer and enters the total order. -/
  | storeBufferDrain (sid : StrandId)
  /-- R158. A read lease reaches its bound and ends. -/
  | leaseExpiry (cluster line : Nat)
  /-- R168. Every operation of a pending fence's set has completed, releasing held accesses. -/
  | fenceSatisfied (sid : StrandId) (index : Nat)
  /-- R203. A held copy issues once its hold conditions clear, capturing operands and joining slots. -/
  | copyIssue (sid : StrandId)
  /-- R161. The Runnel engine reads a source line of an issued copy. -/
  | copyRead (copy offset : Nat)
  /-- R162. A copy writes a destination word, setting it full. -/
  | copyWrite (copy index : Nat)
  /-- R212. A running copy meets a translation, permission or sync-page fault and waits or ends in error. -/
  | copyFault (copy : Nat)
  /-- R203. A copy's last write enters T, lowering counts and signalling its tag and record. -/
  | copyComplete (copy : Nat)
  /-- R216. A packet enters the mesh after the sender's older stores have entered T. -/
  | packetInject (core : Nat) (reply : Bool)
  /-- R208. A packet arrives at a core's request or reply landing queue. -/
  | landingPacketArrival (copy : Nat)
  /-- R209. The landing strand reads the handler-table entry and starts a handler or discards the packet. -/
  | landingHandlerStart (core : Nat)
  /-- R171. One shadowed page's select bit is inverted. -/
  | publishFlip (copy : Nat)
  /-- R193. A free engine starts the eligible queue entry of highest priority. -/
  | engineTurnStart (engine : Nat)
  /-- R193. A waiting engine entry's priority rises by one after 512 engine cycles. -/
  | engineEntryAgeing (engine index : Nat)
  /-- R190. A tgemm k-block completes, making results architectural and re-arbitrating or stopping. -/
  | kblockBoundary (engine : Nat)
  /-- R180. An engine reports completion of a tile instruction so that it retires. -/
  | engineCompletion (engine : Nat)
  /-- R230. A core runs a steal round for its idle general strands. -/
  | stealRound (core : Nat)
  /-- R235. A core accepts a spread wake message, starting or pushing the record. -/
  | spreadFloodAccept (group core : Nat)
  /-- R286. A page walk ends, filling the TLBs or finding a fault. -/
  | pageWalkComplete (cluster index : Nat)
  /-- R293. A fault in a pageable context posts or merges a fault-queue entry and notifies. -/
  | faultPost (who : Requester)
  /-- R288. An invalidation takes effect at a core, dropping named entries. -/
  | invalidationPoint (inv core : Nat)
  /-- R289. A core acknowledges an invalidation after accesses under dropped entries drain. -/
  | invalidationAck (inv core : Nat)
  /-- R228. Once landing strands are idle, the core-scope state of an attached group's cores is cleared. -/
  | attachCoreReset (core : Nat)
  /-- R266. A strand with a pending eviction request parks and is saved. -/
  | evictSave (sid : StrandId)
  /-- R267. After quiescing, a partition is written back and saved to shadow storage. -/
  | swapSave (partition : Nat)
  /-- R259. Creates a context from a descriptor and draws its keys. -/
  | build
  /-- R226. Attaches a group to a context from a group descriptor. -/
  | attach
  /-- R266. Evicts a strand at a blocking point. -/
  | evict
  /-- R266. Restores a saved strand or partition. -/
  | restore
  /-- R267. Swaps a partition or partition set to shadow storage. -/
  | swap
  /-- R258. Halts a context and releases its groups. -/
  | haltCommand
  /-- R290. Frees a halted context, erasing its keys and dropping its translations. -/
  | destroy
  /-- R300. Enables a queue for a context and group. -/
  | qenable
  /-- R300. Resumes a halted queue. -/
  | qresume
  /-- R300. Disables a queue and releases its kernel references. -/
  | qdisable
  /-- R306. Loads a time-triggered table to take effect at a cycle boundary. -/
  | ttload
  /-- R306. A loaded table replaces the table in force at its boundary. -/
  | ttTableSwitch
  /-- R307. A table entry's offset comes due and opens its slot. -/
  | ttSlotOpen (index : Nat)
  /-- R307. A slot ends, counting pending packets in OVERRUN and applying the skip policy. -/
  | ttSlotEnd
  /-- R307. The launch front end reads WIDX and the head packet of a queue on its spacing. -/
  | frontEndRead (queue : Nat)
  /-- R304. Dispatches a ROOT packet, raising LIVE and delivering one task. -/
  | packetRoot (queue : Nat)
  /-- R304. Dispatches a SPREAD packet, raising LIVE by S and flooding the group. -/
  | packetSpread (queue : Nat)
  /-- R304. Dispatches an UNLOAD once LIVE is 0, releasing the queue's kernel reference. -/
  | packetUnload (queue : Nat)
  /-- R304. Dispatches a WAITVAL once its masked comparison holds. -/
  | packetWaitval (queue : Nat)
  /-- R304. Dispatches a SIGNAL, storing a value and or interrupting the host. -/
  | packetSignal (queue : Nat)
  /-- R304. Dispatches a NOP packet with no effect. -/
  | packetNop (queue : Nat)
  /-- R311. Loads, verifies and installs a kernel image into a slot. -/
  | kload
  /-- R312. A loading kernel's image passes or fails its checks and signature. -/
  | kernelVerify (slot : Nat)
  /-- R318. A verified kernel's code, or its translation, is written and marked, making it Resident. -/
  | kernelInstall (slot : Nat)
  /-- R311. Drops the host reference on a kernel. -/
  | krelease
  /-- R311. Returns a kernel slot's state and reference count. -/
  | kquery
  /-- R311. Frees a withdrawn kernel slot. -/
  | kpurge
  /-- R345. Raises a firmware or kernel anti-rollback counter. -/
  | fuseraise
  /-- R346. Writes a signed attestation report of a context or the device. -/
  | attest
  /-- R349. Sets the debug mode, erasing every key for mode 3. -/
  | debugset
  /-- R348. A host debug access is served, held or waking its cluster according to mode and power state. -/
  | debugAccess (access : DebugAccess)
  /-- R327. A MEMCFG RATIO field write starts a stack's lane-ratio change. -/
  | ratioChange (stack code : Nat)
  /-- R327. A stack's 2 µs quiesce ends, BUSY clears and held work proceeds. -/
  | ratioQuiesceEnd (stack : Nat)
  /-- R325. A MEMCFG LOCAL write sets die-local stacks unless a BUILD has been accepted. -/
  | memcfgLocal (value : BitVec 6)
  /-- R324. A MEMCFG SHWAYS write reserves Silt ways as shadow storage before the first BUILD. -/
  | memcfgShways (value : BitVec 2)
  /-- R330. A Silt miss's DRAM read returns and fills the line. -/
  | siltMissFill (line : Nat)
  /-- R330. A dirty victim in the write-back buffer is written to DRAM. -/
  | siltWriteback (line : Nat)
  /-- R335. A DPCTL ENABLE write powers a Driost port up or takes it Down. -/
  | dpctlEnable (port : Nat) (enable : Bool)
  /-- R335. A DPCTL RESET write takes a Down or Fenced port to Off. -/
  | dpctlReset (port : Nat)
  /-- R337. Sets the socket number unless a port has left Off. -/
  | sockidWrite (value : BitVec 6)
  /-- R335. A port in Detect finds a peer and starts training. -/
  | peerDetected (port : Nat) (peer : BitVec 6)
  /-- R335. A port's lanes train at full or half width and it becomes Active or Half-width. -/
  | portTrained (port : Nat) (lanes : Lanes)
  /-- R335. A port fails to train within 1 ms and goes Down. -/
  | trainingTimeout (port : Nat)
  /-- R335. A lane in use fails and the port retrains. -/
  | laneFailure (port : Nat)
  /-- R333. A 256-byte Driost flit is received, delivered, forwarded or discarded. -/
  | flitReceive (port : Nat) (flit : Flit)
  /-- R336. A port Down for 1 ms with an unreachable socket goes Fenced, dropping lines and leases. -/
  | portFenceTimeout (port : Nat)
  /-- R341. A host posted write reaches the device and is placed in T. -/
  | hostPostedWrite (addr : Nat) (bytes : List Byte) (relaxed : Bool)
  /-- R394. A host CXL.mem read of stacked DRAM under the shared key. -/
  | hostRead (addr len : Nat)
  /-- R275. An IEEE 1588 message on the management Ethernet port disciplines the time unit. -/
  | ptpMessage (slew : Int)
  /-- R352. An event arriving at the hub is written to the black box or counted as lost. -/
  | blackBoxWrite
  /-- R350. Clears FROZEN, LOST and FCAUSE of the black box. -/
  | bbctlUnfreeze
  /-- R358. Sets a cluster's P-state. -/
  | cpwrPstate (cluster : Nat) (value : BitVec 2)
  /-- R358. A P-state change takes effect and fetch resumes. -/
  | pstateChangeComplete (cluster : Nat)
  /-- R358. Sets the deepest C-state a cluster may enter. -/
  | cpwrCmax (cluster : Nat) (value : BitVec 2)
  /-- R357. A cluster idle for 1 µs enters its allowed C-state. -/
  | cstateEntry (cluster : Nat)
  /-- R357. A wake event brings a cluster out of its C-state. -/
  | clusterWake (cluster : Nat)
  /-- R359. Package power above 3,200 W over 10 ms lowers CURP and sets THR. -/
  | powerThrottle (cluster watts : Nat)
  /-- R359. Power below 3,000 W for 10 ms returns CURP to PSTATE. -/
  | powerThrottleRelease (watts : Nat)
  /-- R360. Junction sensors are read every 100 µs and throttling or THERMTRIP_N applied. -/
  | thermalSample (die celsius : Nat)
  /-- R361. A reference clock is lost, raising 0xF5 or a cold reset. -/
  | refclkLoss (clock : RefClock)
  /-- R355. A rail leaves its tolerance for more than 1 µs and causes a cold reset. -/
  | railFault (rail : Rail)
  /-- R362. Power-on or a fault starts a cold reset. -/
  | coldReset
  /-- R362. PERST# from the host starts a warm reset. -/
  | warmReset
  /-- R355. Every rail has stayed within tolerance for 10 ms and reset is released. -/
  | resetRelease
  /-- R362. A bring-up phase completes or fails, advancing BOOTSTAT or entering phase 15. -/
  | bringupPhase (failure : Option Byte)
  /-- R5. A write to a hub or control register with no behaviour of its own sets its fields by their access kinds. -/
  | registerWrite (offset : Nat) (value : Word)
  /-- R111. The fetch of the word at PC fails translation or permission, lies in a window, or hits a withdrawn kernel's frame, and traps or posts with EPC naming that address. -/
  | fetchFault (cause : Cause)
  /-- R353. A soft error strikes a protected structure and is corrected and logged, causes a replay, or raises machine check 0xF0, 0xF1 or 0xF2. -/
  | softError (site : SoftSite)
  /-- R312. The loader firmware finishes translating a verified portable image, or finds a cached translation, and the slot goes from Verified to Translated or is refused with status 9. -/
  | translationObtained (slot : Nat) (code : Option (List IWord)) (entries : List Word) (base : Nat)
  deriving DecidableEq, Repr

end Sys2Proof
end

