-- ==== Sys2Proof/Machine/State.lean ====
section
/-! DEFINITION. The machine's state: every register, memory, queue and table that the spec gives one package, as plain data;
the machine at reset; and the reasons a step can stop. -/

namespace Sys2Proof.Machine

/-- Why a run stops with a fault. No rule of the spec stops the device so: an access to an address that does not exist traps
(R14, R97, R281, R393). The type has no member, so no step faults; that is safe. -/
inductive Fault where
  deriving DecidableEq, Repr

/-- Why a step gives no meaning. -/
inductive Refusal where
  /-- Raised by an arm of the dispatch whose instruction has no meaning yet. Safe: nothing is claimed of it. -/
  | notModelled (mnemonic : String)
  deriving DecidableEq, Repr

/-! ## Names -/

/-- The states of a strand that it can be in when it is not paused (R24). -/
inductive RunState where
  | halted | idle | running | parked | trapped | evicted
  deriving DecidableEq, Repr

/-- Privilege levels (R260). -/
inductive Level where
  | user | supervisor | machine
  deriving DecidableEq, Repr

/-- Under which key a line of stacked DRAM is, or which context owns a scratchpad block (R257, R269, R283). -/
inductive KeyTag where
  | shared
  | ctx (slot epoch : Nat)
  deriving DecidableEq, Repr

/-- On whose behalf an access is made: the key of its accesses to stacked DRAM and the owner tag of its accesses to
scratchpads (R269, R393, R394). -/
structure Cred where
  key   : KeyTag
  owner : Option KeyTag
  deriving DecidableEq, Repr

/-- Access kinds (R281). -/
inductive Access where
  | read | write | modify | fetch
  deriving DecidableEq, Repr

/-- The waiting full/empty operations (R104). -/
inductive FeOp where
  | ldc | stp | ldf
  deriving DecidableEq, Repr

/-- Classes of asynchronous operations (R201, R214). -/
inductive CopyClass where
  | inn | out | send | pub
  deriving DecidableEq, Repr

/-- Asynchronous operations, numbered as the OP field of a record (R201, R212). -/
inductive CopyOp where
  | send | sendh | sendr | tsend | publish
  deriving DecidableEq, Repr

/-! ## Tasks -/

/-- What a task is to a portable kernel (R319, R320): nothing, a launched task with its rank, the group size of its launch and V, or a virtual
core. -/
inductive TaskRole where
  | plain
  | launched (rank size vcores : Nat)
  | virtual (v : Nat)
  deriving DecidableEq, Repr

/-- A task record (R232), with its role. -/
structure TaskRecord where
  entry : BitVec 48
  tx    : BitVec 16
  join  : Word
  ty    : BitVec 16
  arg0  : BitVec 32
  arg1  : BitVec 32
  arg2  : BitVec 32
  tz    : BitVec 16
  role  : TaskRole := .plain
  deriving DecidableEq, Repr

/-! ## Waits -/

/-- A translation fault of a pageable context on its way to the fault queue (R291): its address, cause, kinds of access and
level, whether it has been posted, and whether it has been counted in OVF. -/
structure PagerFault where
  va      : Nat
  cause   : Cause
  kind    : Access
  level   : Nat
  posted  : Bool
  counted : Bool
  deriving DecidableEq, Repr

/-- The recorded wake condition of a parked strand (R25). -/
inductive Wait where
  /-- `ldc`, `stp`, `ldf` at a word (R104). -/
  | word (op : FeOp) (d : IntReg) (loc : Nat)
  /-- `bar.wait` and `bar.aw` (R251): the reference generation, and whether an arrival was counted. -/
  | barrier (arrived : Bool) (d : IntReg) (loc : Nat) (gen : BitVec 32)
  /-- `chsend` and `chrecv` (R322) at the mailbox at a location. -/
  | mailbox (receive : Bool) (d : IntReg) (loc : Nat)
  /-- `waita` (R220). -/
  | tagAny (d : IntReg) (mask : Word)
  /-- `waitl` (R220). -/
  | tagAll (d : IntReg) (mask : Word)
  /-- `waitc` (R221). -/
  | classes (limits : Word)
  /-- `waitr` (R222). -/
  | ring (d : IntReg)
  /-- `join` (R240): the counter's location, and the credential of its page. -/
  | counter (loc : Nat) (cred : Cred)
  /-- `spreadwait` (R244). -/
  | flood (d : IntReg)
  /-- `wfe` (R274). -/
  | event (deadline : Word)
  /-- A fault-queue wait (R291), made by a tile instruction on an engine where one is named. -/
  | pager (fault : PagerFault) (engine : Option Nat)
  deriving DecidableEq, Repr

/-! ## Tiles -/

/-- One tile register with its format tag and scale side-car (R173). -/
structure Tile where
  bytes : BitVec 8192
  tag   : BitVec 4
  side  : BitVec 512
  deriving DecidableEq, Repr

/-- A tile as binding leaves it (R174). -/
def Tile.zero : Tile := { bytes := 0, tag := 0, side := 0 }

/-- A +0 accumulator cell of length 4 (R84, R174). -/
def cellZero : Cell96 := 0x24000000

/-- A tile instruction at an engine, with the operands it captured (R180, R190). -/
inductive TileOp where
  | tld (t : TReg) (base stride : Word) (rows : Nat) (fmt : Nat)
  | tst (t : TReg) (base stride : Word) (rows : Nat) (fmt : Nat)
  | acld (x y : BitVec 3) (base stride : Word) (rows : Nat) (fmt : Nat) (q : Nat) (rm : Nat)
  | acst (x y : BitVec 3) (base stride : Word) (rows : Nat) (fmt : Nat) (rm : Nat) (ovf : Bool)
  | tmma (a b : TReg) (x y : BitVec 3) (fa fb : Nat) (q : Nat) (rm : Nat)
  | tzero (t : TReg)
  | aczero (x y : BitVec 3)
  | acmov (r c x y : BitVec 3)
  | tgemm (gang : Bool) (ctl a b : Word) (fa fb : Nat) (q : Nat) (rm : Nat)
  deriving DecidableEq, Repr

/-- The tile context of a bound strand (R173). -/
structure TileCtx where
  engine  : Nat
  tiles   : Sparse Tile
  acc     : Sparse Cell96
  /-- The other three strands of the gang while Ganged (R197). -/
  gang    : Option (List StrandId)
  /-- A partner has broken the gang: the next `tgemm.g` traps 0x67 (R199). -/
  broken  : Bool
  /-- The tile instruction that waits at or runs on the engine. -/
  op      : Option TileOp
  deriving DecidableEq, Repr

/-! ## Asynchronous operations -/

/-- A range-counter slot (R166). -/
structure RangeSlot where
  lo    : Nat
  hi    : Nat
  count : Nat
  deriving DecidableEq, Repr

/-- A pending fence: its items, the set of operations it waits for, and whether a further fence waits for it to be satisfied (R167,
R168). -/
structure Fence where
  items : List (Nat × Nat)
  waits : List Nat
  blocks : Bool := false
  deriving DecidableEq, Repr

/-- A held copy: the instruction's register fields (R203). -/
structure HeldCopy where
  op : CopyOp
  d  : IntReg
  a  : IntReg
  b  : IntReg
  deriving DecidableEq, Repr

/-- What is left to read of a copy: source and destination addresses and length (R215, R219). -/
structure Span where
  src : Nat
  dst : Nat
  len : Nat
  deriving DecidableEq, Repr

/-- Bytes that a copy has read and not yet written: part of one aligned 8-byte word (R162). -/
structure Piece where
  dst   : Nat
  bytes : List Byte
  deriving DecidableEq, Repr

/-- A packet (R216). -/
structure Packet where
  target  : Nat
  lidx    : BitVec 8
  plen    : Nat
  payload : BitVec 2048
  user    : BitVec 24
  sender  : StrandId
  reply   : Bool
  deriving DecidableEq, Repr

/-- Where a packet stands on its way (R206, R208). -/
inductive PacketStage where
  | sendQueue | mesh | landingQueue
  deriving DecidableEq, Repr

/-- An issued asynchronous operation (R203). Its number is one that stores older than it are numbered below (R161). -/
structure Copy where
  op       : CopyOp
  issuer   : StrandId
  /-- The model's name for the issuing strand wherever it is saved. -/
  uid      : Nat
  level    : Level
  asid     : Option Nat
  cred     : Cred
  cls      : CopyClass
  group    : Option Nat
  slots    : List Nat
  /-- What is left to read; for a `publish`, the range left to flip (R171). -/
  todo     : List Span
  pieces   : List Piece
  dst      : Nat
  dstLen   : Nat
  written  : Nat
  tag      : BitVec 6
  tagEn    : Bool
  tagCore  : Nat
  /-- The reserved ring entry and its SEQ (R212). -/
  record   : Option (Word × Word)
  packet   : Option (Packet × PacketStage)
  error    : Option Cause
  wait     : Option PagerFault
  deriving DecidableEq, Repr

/-! ## Strands -/

/-- A cached leaf (R284). -/
structure TlbEntry where
  asid : Nat
  glob : Bool
  base : Nat
  size : Nat
  leaf : Word
  deriving DecidableEq, Repr

/-- A line of memory as a fetch has read it (R152, R160): its sixteen words, the credential under which they were read, and the ranges of
addresses at which they are fetched no more. -/
structure HeldLine where
  words  : List IWord
  cred   : Cred
  barred : List (Nat × Nat)
  deriving DecidableEq, Repr

/-- One strand (R23, R30, R34). -/
structure Strand where
  st       : RunState
  paused   : Bool
  uid      : Nat
  pc       : Word
  /-- `x0`-`x31`; an unlisted register holds 0. -/
  x        : Sparse Word
  /-- The 64 elastic granules (R32); an unlisted granule holds +0 of length 4. -/
  g        : Sparse Word
  v        : Sparse VWord
  m        : Sparse MWord
  ssw      : Word
  eps      : Word
  epc      : Word
  cause    : Word
  eva      : Word
  etile    : Word
  eidx     : Word
  efmt     : Word
  prec     : Word
  tstep    : Word
  fmtp     : Word
  tcoord   : Word
  crb      : Word
  crn      : Word
  htb      : Word
  /-- Ring indices and sequence count (R212). -/
  widx     : Nat
  ridx     : Nat
  seq      : Word
  slots    : Sparse RangeSlot
  fences   : List Fence
  /-- Class counts (R214). -/
  cntIn    : Nat
  cntOut   : Nat
  cntSend  : Nat
  cntPub   : Nat
  /-- WOKE (R274). -/
  woke     : Bool
  /-- Pending interrupt bits of 0xE1, 0xE2, 0xE3 (R261). -/
  irqTimer : Bool
  irqPost  : Bool
  irqHost  : Bool
  /-- The cycle in which an interrupt last became pending (R27). -/
  irqAt    : Nat
  /-- The chain in front of the next word: an `hsched`, the payloads of `himm` words, the KIND of an `hmod` (R50). -/
  sched    : Bool
  himm     : List (BitVec 24)
  hmod     : Option Bool
  /-- Cycle at which the priority nudge lapses, and its direction, up being true (R53). -/
  nudge    : Option (Nat × Bool)
  /-- Cycle of the last fetch, or at which the strand became runnable (R29). -/
  lastFetch : Nat
  /-- Instructions fetched for the strand and not retired (R28). -/
  ahead    : Nat
  /-- `yield` in force since a cycle: strands still to be fetched (R242). -/
  yielding : Option (Nat × List Nat)
  /-- Fetches still to be forfeited to the subnormal normaliser (R85). -/
  forfeit  : Nat
  wait     : Option Wait
  /-- The value a home served to the parked strand (R25, R105, R253). -/
  served   : Option Word
  held     : Option HeldCopy
  tile     : Option TileCtx
  /-- The wired barrier the strand waits at (R197). -/
  gangWait : Option Nat
  /-- A trap of the strand is with the handler chain (R262, R263). -/
  chained  : Bool
  /-- The landing handler's packet signals: tag number and TAGEN (R211). -/
  handler  : Option (BitVec 6 × Bool)
  evictReq : Bool
  /-- The host's debug access has stopped the strand; it may be let execute one word (R347). -/
  stopped  : Bool
  stepping : Bool
  /-- The record of the task that the strand started last, how many virtual cores that task has started, and the one that it runs inline
  (R319, R320). -/
  task     : Option TaskRecord
  begun    : Nat
  inline   : Option Nat
  /-- Lines fetched earlier, by line (R160). -/
  fetched  : Sparse HeldLine
  /-- What the accesses read that the instruction at PC has already made, in order, while others of them are still to come (R143,
  R152). -/
  got      : List (List Byte)
  /-- While `got` lists something: the word whose accesses they are, where the strand executes it itself, and the core's `s` registers as
  that word reads them (R31). -/
  word     : Option IWord
  regs     : Sparse Word
  /-- The number under which that word made its first access (R289). -/
  bornAt   : Nat
  /-- The leaves under which the remaining accesses of an instruction were translated that has made some of its accesses (R142, R182). -/
  pinned   : List TlbEntry
  /-- Values of buffered stores taken from siblings: the stores' numbers (R155). -/
  seen     : List Nat
  /-- An uncorrectable error that the strand meets with the next word it executes: its cause and address (R353). -/
  struck   : Option (Cause × Word)
  deriving DecidableEq, Repr

/-- The value SSW takes when a strand leaves Halted: IE = 1, IPRI = 01 (R36). -/
def sswReset : Word := 0x8004

/-- A granule holding +0 at a length of 32 bits (R25). -/
def granuleZero : Word := 0x24000000

/-- A strand's registers as they are on leaving Halted (R25, R34), in a given state. -/
def Strand.fresh (st : RunState) (uid : Nat) : Strand :=
  { st := st, paused := false, uid := uid, pc := 0, x := [], g := [], v := [], m := [], ssw := sswReset, eps := 0, epc := 0,
    cause := 0, eva := 0, etile := 0, eidx := 0, efmt := 0, prec := 32, tstep := 0, fmtp := 0, tcoord := 0, crb := 0, crn := 1,
    htb := 0, widx := 0, ridx := 0, seq := 0, slots := [], fences := [], cntIn := 0, cntOut := 0, cntSend := 0, cntPub := 0,
    woke := false, irqTimer := false, irqPost := false, irqHost := false, irqAt := 0, sched := false, himm := [], hmod := none,
    nudge := none, lastFetch := 0, ahead := 0, yielding := none, forfeit := 0, wait := none, served := none, held := none,
    tile := none, gangWait := none, chained := false, handler := none, evictReq := false, stopped := false, stepping := false, task := none, begun := 0, inline := none, fetched := [],
    got := [], word := none, regs := [], bornAt := 0, pinned := [], seen := [], struck := none }

/-- A strand at device reset, by its tid value (R26, R36). -/
def Strand.atReset (tid : Nat) : Strand :=
  if tid % 8 = 4 then Strand.fresh .idle tid
  else if tid % 8 = 5 then Strand.fresh .parked tid
  else Strand.fresh .halted tid

/-! ## Cores -/

/-- A retired store that has not entered T (R154): the strand, the store's number, the leaf it was translated under (R289), none where
it was not translated, and the bytes by location. `born` numbers the moment at which its instruction made its first access. On a shadowed
page it follows the visible frame: `pair` is the first byte of frame A and the page's size (R170). `last` marks a last-use access: whether
it drops the line (R100). -/
structure BufStore where
  num   : Nat
  id    : Nat
  born  : Nat
  leaf  : Option TlbEntry
  cells : List Host.Cell
  cred  : Cred
  pair  : Option (Nat × Nat) := none
  last  : Option Bool := none
  deriving DecidableEq, Repr

/-- A cached pointer entry (R284): the ASID it was walked in, its level, the region's base and the next table. -/
structure WalkEntry where
  asid  : Nat
  level : Nat
  base  : Nat
  table : Nat
  deriving DecidableEq, Repr

/-- A walk in progress (R286): the core it was started for, and whether an invalidation discarded it. -/
structure Walk where
  asid      : Nat
  page      : Nat
  core      : Nat
  discarded : Bool
  deriving DecidableEq, Repr

/-- A message of the handler chain (R263): the faulting strand, cause, hop count, faulting instruction's and data address. -/
structure ChainMsg where
  who   : StrandId
  cause : Cause
  hops  : Nat
  epc   : Word
  eva   : Word
  deriving DecidableEq, Repr

/-- A pending urgent request (R275). -/
structure UrgentReq where
  code : Nat
  issuer : Nat
  arg  : Word
  deriving DecidableEq, Repr

/-- What a standby strand is running (R263, R264). -/
inductive Serving where
  | chain (msg : ChainMsg)
  | urgent
  deriving DecidableEq, Repr

/-- A cached shape record (R218), most recently used first in its list. -/
structure ShapeEntry where
  asid   : Nat
  addr   : Nat
  record : BitVec 512
  deriving DecidableEq, Repr

/-- A line of an L1 data cache: the key slot it carries (R269), and whether a `pf` brought it and no demand access has followed
(R332). -/
structure L1Line where
  line    : Nat
  slot    : Nat
  prefetched : Bool
  deriving DecidableEq, Repr

/-- Core-scope state (R30, R34, R206, R208, R230, R231). -/
structure CoreState where
  s        : Sparse Word
  tagw     : Word
  htab     : Word
  rfsleep  : Word
  group    : Option Nat
  /-- An ATTACH waits for the landing strand before the core is cleared (R228). -/
  attaching : Bool
  deque    : List TaskRecord
  victim   : BitVec 32
  buffer   : List BufStore
  /-- Send queues, oldest first, by copy number (R206). -/
  sendBulk  : List Nat
  sendReq   : List Nat
  sendReply : List Nat
  /-- Landing queues, earliest arrival first (R208). -/
  landReq   : List Nat
  landReply : List Nat
  started  : Nat
  tlb      : List TlbEntry
  shapes   : List ShapeEntry
  l1       : List L1Line
  /-- Lines in the L1 instruction cache (R8), each with its key slot (R269), the one used longest ago first. -/
  l1i      : List (Nat × Nat)
  chainQ   : List ChainMsg
  urgentQ  : List UrgentReq
  serving  : Option Serving
  /-- Retention depth in force, 0 while awake, and the cycle of its start (R41). -/
  retained : Nat
  retainedAt : Nat
  /-- The general strand chosen last, the strand fetched last, and the cycle of that fetch (R28). -/
  lastGeneral : Nat
  lastStrand  : Option Nat
  fetchedAt   : Option Nat
  /-- The cycle in which an instruction of the core last retired (R31). -/
  retiredAt   : Option Nat
  /-- No steal round before this cycle (R230). -/
  stealAt  : Nat
  /-- Prefetch counters (R332). -/
  pfIssued  : Nat
  pfUseful  : Nat
  pfLate    : Nat
  pfUseless : Nat
  /-- Idle general strands since whose last start, and since the last push, a full steal round has found no task (R41). -/
  searched : List Nat
  deriving DecidableEq, Repr

/-- A core at reset (R34). -/
def CoreState.reset : CoreState :=
  { s := [], tagw := 0, htab := 0, rfsleep := 1, group := none, attaching := false, deque := [], victim := 0, buffer := [],
    sendBulk := [], sendReq := [], sendReply := [], landReq := [], landReply := [], started := 0, tlb := [], shapes := [],
    l1 := [], l1i := [], chainQ := [], urgentQ := [], serving := none, retained := 0, retainedAt := 0, lastGeneral := 3,
    lastStrand := none, fetchedAt := none, retiredAt := none, stealAt := 0, pfIssued := 0, pfUseful := 0, pfLate := 0, pfUseless := 0, searched := [] }

/-- Cluster-scope state (R262, R284, R286, R197, R358). -/
structure ClusterState where
  /-- The handler chain: core-in-cluster and entry address (R262). -/
  chain    : List (Nat × Word)
  tlb      : List TlbEntry
  /-- Lines in the cluster cache (R8, R156), each with its key slot (R269), the one used longest ago first. -/
  lines    : List (Nat × Nat)
  walkCache : List WalkEntry
  walks    : List Walk
  /-- Arrivals at the wired gang barriers, in order (R197). -/
  gangs    : Sparse (List StrandId)
  /-- CPWR (R358). -/
  pstate   : BitVec 2
  cmax     : BitVec 2
  curp     : BitVec 2
  curc     : BitVec 2
  thr      : Bool
  /-- Cycle at which a P-state write arrived, while its change is in progress (R358). -/
  changing : Option Nat
  deriving DecidableEq, Repr

/-- A cluster at reset (R358). The handler chain is empty (assumption 4). -/
def ClusterState.reset : ClusterState :=
  { chain := [], tlb := [], lines := [], walkCache := [], walks := [], gangs := [], pstate := 0, cmax := 1, curp := 0, curc := 0,
    thr := false, changing := none }

/-- A waiting entry of an engine queue (R192, R193): its strand, start priority, and the cycle of its last ageing. -/
structure EngineEntry where
  who  : StrandId
  prio : Nat
  base : Nat
  since : Nat
  /-- A k-block has run in the turn that runs: its boundary is still to be met (R190, R194). -/
  ran  : Bool := false
  deriving DecidableEq, Repr

/-- An engine: strands bound to it by the model's name of the strand, its queue, the strand whose turn runs, and the strand
that began the previous turn (R176, R192, R193). -/
structure Engine where
  bound   : List Nat
  queue   : List EngineEntry
  running : Option EngineEntry
  last    : Nat
  deriving DecidableEq, Repr

/-- An engine at reset. -/
def Engine.reset : Engine := { bound := [], queue := [], running := none, last := 0 }

/-! ## Memory -/

/-- The kernel mark of a 4 KiB frame (R317). -/
structure Mark where
  slot     : Nat
  portable : Bool
  deriving DecidableEq, Repr

/-- Which context owns a scratchpad block (R269, R393). -/
inductive Owner where
  | noContext
  | ctx (tag : KeyTag)
  deriving DecidableEq, Repr

/-- The value a word of a discardable line held when it was last written back (R100). -/
structure OldWord where
  bytes : Word
  full  : Bool
  deriving DecidableEq, Repr

/-- Memory: bytes by location, with what the memory itself keeps beside them. -/
structure Mem where
  /-- Bytes by location; an unlisted byte is 0. -/
  bytes   : List Host.Cell
  /-- Aligned words that are empty, by location / 8 (R98). -/
  empty   : List Nat
  /-- Key tag of a line of stacked DRAM, by location / 64 (R257). -/
  keys    : Sparse KeyTag
  /-- Owner of a scratchpad block that has been written, by location / 4096 (R269). -/
  owners  : Sparse Owner
  /-- Frame pairs whose select bit is 1, by the first byte of frame B (R282). -/
  selects : List Nat
  /-- Kernel marks, by frame (R317). -/
  marks   : Sparse Mark
  /-- Poisoned lines, by location / 64 (R331). -/
  poison  : List Nat
  /-- Words that may read as an older value, by location / 8 (R100). -/
  olds    : Sparse OldWord
  /-- Aligned words of scratchpads with an uncorrectable error, by location / 8 (R353). -/
  badWords : List Nat
  deriving DecidableEq, Repr

/-- Memory with nothing listed. -/
def Mem.reset : Mem :=
  { bytes := [], empty := [], keys := [], owners := [], selects := [], marks := [], poison := [], olds := [], badWords := [] }

/-- The memory's bytes are in canonical form: locations strictly rising, no byte listed that an unlisted one would read as. -/
def Mem.wf (m : Mem) : Bool := Sparse.canon (0 : Byte) m.bytes

/-- A line of a Silt slice (R328): the key slot it carries (R269), its priority, and when it was last used. -/
structure SiltLine where
  slot  : Nat
  prio  : BitVec 2
  used  : Nat
  deriving DecidableEq, Repr

/-- What a line of stacked DRAM held when it was last written back: its listed bytes and its empty words (R100, R329). -/
structure OldLine where
  bytes : List Host.Cell
  empty : List Nat
  deriving DecidableEq, Repr

/-- A line of stacked DRAM that has been written in its slice (R100, R329): what stacked DRAM holds of it, and whether the slice holds the
newer line still. A last-use access on a discardable page ends that and leaves the record. -/
structure DirtyLine where
  held : OldLine
  live : Bool
  deriving DecidableEq, Repr

/-- An entry of a write-back buffer (R330): a line, what it holds, and whether the line has been refetched from the buffer and written
since. -/
structure WriteBack where
  line  : Nat
  held  : OldLine
  again : Bool
  deriving DecidableEq, Repr

/-- A pending miss (R330): its line, the key slot and priority it fills with, the cores whose `pf` waits on it without a demand
access, each with its key slot (R332), and whether a write-back entry is reserved for its victim. -/
structure Miss where
  line : Nat
  slot : Nat
  prio : BitVec 2
  pfs  : List (Nat × Nat)
  reserved : Bool
  deriving DecidableEq, Repr

/-- The caches (R156, R158, R328, R330). -/
structure Caches where
  silt   : Sparse SiltLine
  /-- Touches so far: they order the uses of lines. -/
  uses   : Nat
  /-- Lines written since they were last written back to stacked DRAM. -/
  dirty  : Sparse DirtyLine
  /-- Misses in order of arrival: the first 256 of a slice stand in its miss table, later ones wait at the slice. -/
  misses : List Miss
  /-- The entries of the write-back buffers, oldest first. -/
  wback  : List WriteBack
  /-- Read leases of clusters on lines: (cluster, line). -/
  leases : List (Nat × Nat)
  deriving DecidableEq, Repr

/-! ## Waiters at homes -/

/-- A wait at a home, in order of arrival (R105, R240, R253, R321). On a shadowed page it follows the visible frame (R170): `pair` is the
first byte of frame A and the page's size. -/
structure Waiter where
  who  : StrandId
  wait : Wait
  data : Word
  cred : Cred
  pair : Option (Nat × Nat) := none
  deriving DecidableEq, Repr

/-! ## Contexts and groups -/

/-- States of a context (R258). Running and Parked are told apart by the strands' states. -/
inductive CtxState where
  | built | ready | active | swapped | halted
  deriving DecidableEq, Repr

/-- A posted fault-queue entry that is not resolved (R291, R297). -/
structure Posted where
  index : Nat
  page  : Nat
  cause : Cause
  /-- The requesters: the model's names of strands, and numbers of copies. -/
  who   : List Nat
  deriving DecidableEq, Repr

/-- A live context (R256, R258). -/
structure Context where
  st       : CtxState
  pageable : Bool
  hentry   : Word
  root     : Word
  saveBase : Word
  fqBase   : Word
  slot     : Nat
  epoch    : Nat
  /-- Total size of the groups attached so far (R265). -/
  attached : Nat
  posted   : List Posted
  /-- Time of the last notification-dropped event (R293). -/
  dropLog  : Option Nat
  deriving DecidableEq, Repr

/-- A key slot (R257): its epoch, when it was filled, and whether it holds a key. -/
structure KeySlot where
  epoch  : Nat
  filled : Nat
  inUse  : Bool
  deriving DecidableEq, Repr

/-- States of a group (R227). -/
inductive GroupState where
  | attached | active | saved | releasing
  deriving DecidableEq, Repr

/-- A flood that not every core has accepted (R235). -/
structure Flood where
  gen     : BitVec 32
  record  : TaskRecord
  pending : List Nat
  deriving DecidableEq, Repr

/-- A group (R226, R227). -/
structure Group where
  asid    : Nat
  st      : GroupState
  extents : List (Nat × Nat)
  levels  : BitVec 5
  seed    : BitVec 32
  base    : Nat
  gen     : BitVec 32
  spread  : Bool
  floods  : List Flood
  deriving DecidableEq, Repr

/-- What stands in a region of memory: its listed bytes, key tags and poisoned lines. -/
structure Region where
  bytes  : List Host.Cell
  keys   : Sparse KeyTag
  poison : List Nat
  deriving DecidableEq, Repr

/-- A strand in the save area, named by its tid value (R265, R266): its registers and wake condition, the wait it had at a home, where its
record lies, and what stood there when it was saved. -/
structure SavedStrand where
  tid    : Nat
  asid   : Nat
  strand : Strand
  waits  : List Waiter
  place  : Nat
  kept   : Region
  deriving DecidableEq, Repr

/-- The image of a swapped partition (R267): its strands and the waits they had at homes, its cores, and scratchpad bytes, empty words
and owner tags. -/
structure Image where
  partition : Nat
  clusters : List Nat
  strands : Sparse Strand
  waits   : List Waiter
  cores   : Sparse CoreState
  bytes   : List Host.Cell
  empty   : List Nat
  owners  : Sparse Owner
  deriving DecidableEq, Repr

/-- What a core's acknowledgement of an invalidation waits for (R289, R384): the buffered stores and instructions begun before its point
there, named by the count `since`, and the copies then in progress, each with what it still had to do. -/
structure Drain where
  since  : Nat
  copies : List (Nat × Nat)
  deriving DecidableEq, Repr

/-- An invalidation that is not yet acknowledged everywhere (R288, R289). -/
structure Inval where
  /-- The model's name of the strand that issued it; none for that of a DESTROY (R290). -/
  issuer  : Option Nat
  /-- The ASID, or every ASID where `none` (R294). -/
  asid    : Option Nat
  glob    : Bool
  lo      : Nat
  hi      : Nat
  /-- Cores that it has not reached. -/
  pending : List Nat
  /-- Cores that it has reached and that have not acknowledged it, with what they wait for. -/
  draining : Sparse Drain
  deriving DecidableEq, Repr

/-! ## Queues and kernels -/

/-- States of a queue (R300). -/
inductive QueueState where
  | enabled | halted
  deriving DecidableEq, Repr

/-- A queue that is not Disabled (R299, R300). -/
structure Queue where
  st     : QueueState
  block  : Nat
  asid   : Nat
  group  : Nat
  liveva : Word
  ring   : Nat
  size   : Nat
  deriving DecidableEq, Repr

/-- An entry of the time-triggered table (R306). -/
structure TtEntry where
  offset : Nat
  queue  : Nat
  maxpkt : Nat
  kind   : BitVec 2
  skip   : Bool
  target : Nat
  deriving DecidableEq, Repr

/-- A loaded table: its entries, CYCLE and the boundary at which it takes effect (R306). -/
structure TtTable where
  entries : List TtEntry
  cycle   : Nat
  start   : Nat
  deriving DecidableEq, Repr

/-- The slot in force (R307): its entry, its end, the packets it may still dispatch, and whether a read of the packet at the head has begun. -/
structure TtSlot where
  index : Nat
  stop  : Nat
  left  : Nat
  began : Bool := false
  deriving DecidableEq, Repr

/-- States of a kernel slot that is not Absent (R312). -/
inductive KernelState where
  | loading | verified | translated | resident | unloading | withdrawn
  deriving DecidableEq, Repr

/-- A kernel slot (R309-R314). -/
structure Kernel where
  st       : KernelState
  asid     : Nat
  image    : List Byte
  codePa   : Nat
  codeVa   : Word
  codeLen  : Nat
  dataPa   : Nat
  dataVa   : Word
  dataLen  : Nat
  /-- SVN, PORTABLE, V, the number of channels, and DATALEN, from the header (R309). -/
  svn      : Nat
  portable : Bool
  vcores   : Nat
  nchan    : Nat
  dataSec  : Nat
  hostRef  : Bool
  queues   : List Nat
  /-- A translation: the native words, the native entry offsets and the native offsets at which Gethen instructions start
  (R310, R316). -/
  code     : List IWord
  entries  : List Word
  starts   : List Nat
  deriving DecidableEq, Repr

/-- A cached translation, with its signature under the device identity key (R318). -/
structure Translation where
  digest  : List Byte
  svn     : Nat
  code    : List IWord
  entries : List Word
  starts  : List Nat
  sig     : List Byte
  deriving DecidableEq, Repr

/-! ## The hub -/

/-- States of a Driost port (R335, R337). -/
inductive PortState where
  | off | detect | train | active | retrain | half | down | fenced
  deriving DecidableEq, Repr

/-- A Driost port (R333-R337). -/
structure Port where
  st       : PortState
  enable   : Bool
  halfHigh : Bool
  peer     : BitVec 6
  retrains : Nat
  replays  : Nat
  /-- Consecutive failures of the flit in reception (R334), and the sequence number expected next. -/
  fails    : Nat
  expect   : Nat
  /-- The sequence number of the flit sent next, and the replay buffer: the flits sent last, at most 64, oldest first (R334). -/
  nextSeq  : Nat
  sent     : List Flit
  /-- Time of the last change of state, for the 1 ms bounds. -/
  since    : Nat
  /-- The port has been RESET since a port last went Fenced (R336). -/
  renewed  : Bool
  deriving DecidableEq, Repr

/-- A port at reset (R337). -/
def Port.reset : Port :=
  { st := .off, enable := false, halfHigh := false, peer := 0, retrains := 0, replays := 0, fails := 0, expect := 0,
    nextSeq := 0, sent := [], since := 0, renewed := false }

/-- An event for the black box (R351), before it is written. -/
structure BbEvent where
  event  : BitVec 16
  source : BitVec 16
  cause  : Cause
  tag    : BitVec 32
  addr   : Word
  aux    : BitVec 32
  /-- The mesh cycle of its arrival at the hub (R352). -/
  arrived : Nat
  deriving DecidableEq, Repr

/-- A black-box record (R351). -/
structure BbRecord where
  time   : Word
  ev     : BbEvent
  deriving DecidableEq, Repr

/-- What bring-up verifies (R342): whether the firmware image's signature verifies, its security version, whether the expansion table
and the loader firmware verify, and whether the kernel-signing keys it carries match the fused digests. -/
structure BootImage where
  signed : Bool
  svn    : Nat
  table  : Bool
  loader : Bool
  keys   : Bool
  deriving DecidableEq, Repr

/-- The hub's registers and agents that are not named elsewhere. -/
structure Hub where
  /-- MEMCFG (R324). -/
  locals   : BitVec 6
  shways   : BitVec 2
  ratios   : BitVec 36
  busy     : BitVec 12
  ratioErr : Bool
  /-- Cycle at which a stack's ratio change began (R327). -/
  ratioAt  : Sparse Nat
  /-- A BUILD has been accepted since reset (R324). -/
  built    : Bool
  ports    : Sparse Port
  /-- SOCKID has been written: the ports may leave Off (R362). -/
  sockSet  : Bool
  sockid   : BitVec 6
  droute   : Sparse (BitVec 8)
  /-- Some port has left Off since reset (R337). -/
  leftOff  : Bool
  /-- Since when some socket has been without a route through an Active or Half-width port (R335). -/
  cutSince : Option Nat
  /-- The joined sockets that were unreachable when a port went Fenced, until a port that has been RESET since carries them (R336). -/
  lost     : List Nat
  /-- Payloads delivered by the Driost ports, flits sent with their ports, and flits that wait for a port (R333, R335, R337). -/
  delivered : List (List Byte)
  forwarded : List (Nat × Flit)
  holding   : List Flit
  /-- Mailbox (R339): OP, ARG0-ARG13, STATUS, DONE, RES0, RES1. -/
  op       : BitVec 8
  args     : Sparse Word
  status   : BitVec 8
  done     : Bool
  res0     : Word
  res1     : Word
  /-- The command in progress, as GO found it: OP and its operands. -/
  running  : Option (BitVec 8 × Sparse Word)
  /-- A DESTROY waits for its drops (R290). -/
  destroying : Option Nat
  /-- A SWAP waits for its steps (R267): partition. -/
  swapping : Option Nat
  /-- FUSESTAT (R343), and the value FWCTR takes at the next cold reset (R345). -/
  fwctr    : BitVec 6
  fwctrNext : BitVec 6
  kctr     : BitVec 6
  dbgauth  : Bool
  nkkeys   : BitVec 3
  mode     : BitVec 2
  debugCtx : Nat
  /-- Cold resets so far: names the boot nonce (R342). -/
  boots    : Nat
  /-- BBCTL and the black box (R350). -/
  bbWidx   : BitVec 13
  bbWrap   : Bool
  bbFrozen : Bool
  /-- The mesh cycle in which the event that froze the ring arrived. -/
  bbFrozenAt : Nat
  bbLost   : BitVec 32
  bbCause  : Cause
  bbRing   : Sparse BbRecord
  bbQueue  : List BbEvent
  /-- The mesh cycle in which a record was written last (R352). -/
  bbWroteAt : Option Nat
  /-- Time of the last corrected-error event of each source (R352). -/
  bbCorrected : Sparse Nat
  /-- BOOTSTAT (R363). -/
  phase    : BitVec 4
  failPh   : BitVec 4
  reason   : Byte
  resetHeld : Bool
  /-- What bring-up finds: the firmware image, whether the stacked DRAM trains, and the reference clocks that are absent (R342, R361,
  R363). -/
  image    : BootImage
  dramOk   : Bool
  absent   : List RefClock
  /-- Time since which every rail has been within tolerance (R355). -/
  railsAt  : Nat
  /-- Dies throttled by temperature, and THERMTRIP_N (R360). -/
  hotDies  : List Nat
  tripped  : Bool
  /-- MSI-X vectors sent to the host and bytes returned to it, oldest first (R338, R394). -/
  msi      : List Nat
  hostOut  : List (List Byte)
  deriving DecidableEq, Repr

/-- The hub at a cold reset (R324, R337, R339, R343, R350, R363). The fuses hold what they were
programmed with: free values (assumption 7). The firmware image is one that bring-up accepts (assumption 97). -/
def Hub.reset : Hub :=
  { locals := 0, shways := 0, ratios := 0o222222222222, busy := 0, ratioErr := false, ratioAt := [], built := false,
    ports := [], sockSet := false, sockid := 0, droute := [], leftOff := false, cutSince := some 0, lost := [],
    delivered := [], forwarded := [], holding := [], op := 0, args := [], status := 0, done := false,
    res0 := 0, res1 := 0, running := none, destroying := none, swapping := none, fwctr := Config.fusedFwctr,
    fwctrNext := Config.fusedFwctr, kctr := Config.fusedKctr, dbgauth := Config.fusedDebug, nkkeys := BitVec.ofNat 3 (Config.fusedKeys.toNat % 5), mode := 0, debugCtx := 0, boots := 0, bbWidx := 0, bbWrap := false, bbFrozen := false, bbFrozenAt := 0,
    bbLost := 0, bbCause := 0, bbRing := [], bbQueue := [], bbWroteAt := none, bbCorrected := [], phase := 0, failPh := 0, reason := 0,
    resetHeld := true, image := { signed := true, svn := 63, table := true, loader := true, keys := true }, dramOk := true,
    absent := [], railsAt := 0, hotDies := [], tripped := false, msi := [], hostOut := [] }

/-! ## The machine -/

/-- What moves next (assumption 1): a core issues for one of its strands, an event of the table happens, or time passes. A `part` turn
is one in which the word or event makes only some of its accesses, `n` that it has not made before, and is left for a later turn
(R143, R152). -/
inductive Turn where
  | issue (core : Nat)
  | event (ev : Instr)
  | elapse (ns : Nat)
  | partIssue (core n : Nat)
  | partEvent (ev : Instr) (n : Nat)
  deriving DecidableEq, Repr

/-- Time (R4, R15, R275): core cycles, and the time unit's nanoseconds with their fraction and the slew in force, in parts
per million. -/
structure Clock where
  cycles : Nat
  time   : Nat
  sub    : Nat
  slew   : Int
  deriving DecidableEq, Repr

/-- One package. -/
structure State where
  /-- Strands by number core * 8 + strand (R10, R275). -/
  strands  : Sparse Strand
  cores    : Sparse CoreState
  clusters : Sparse ClusterState
  engines  : Sparse Engine
  mem      : Mem
  caches   : Caches
  waiters  : List Waiter
  /-- Words in the channel mailboxes, oldest first, by the mailbox's physical address (R321). -/
  boxes    : Sparse (List Word)
  copies   : Sparse Copy
  contexts : Sparse Context
  keySlots : Sparse KeySlot
  groups   : Sparse Group
  saved    : List SavedStrand
  images   : List Image
  /-- Partitions: the clusters of each (R267). -/
  partitions : Sparse (List Nat)
  invals   : Sparse Inval
  queues   : Sparse Queue
  ttable   : Option TtTable
  ttNext   : Option TtTable
  ttSlot   : Option TtSlot
  kernels  : Sparse Kernel
  transCache : List Translation
  /-- The machine-level urgent table (R275). -/
  urgentTable : Sparse Word
  hub      : Hub
  clk      : Clock
  /-- The strand that executes an instruction word. -/
  cur      : StrandId
  /-- The model's own: how many accesses the instruction may still make in this step where that is limited, and what is left of the
  bytes that the ones it has made before read (R143, R152). -/
  cut      : Option Nat
  replay   : List (List Byte)
  /-- The model's own: what moves next, the core that issues when nothing is listed, a counter of free values, and the next
  number for a copy, store, invalidation or strand life. -/
  agenda   : List Turn
  focus    : Nat
  free     : Nat
  fresh    : Nat
  deriving DecidableEq, Repr

/-- The machine right after a cold reset: bring-up phase 0, general strands Halted, landing strands Idle, standby strands
Parked (R26, R362). -/
def State.reset : State :=
  { strands := [], cores := [], clusters := [], engines := [], mem := Mem.reset,
    caches := { silt := [], uses := 0, dirty := [], misses := [], wback := [], leases := [] }, waiters := [], boxes := [], copies := [], contexts := [],
    keySlots := [(1023, { epoch := 1, filled := 0, inUse := true })], groups := [], saved := [], images := [],
    partitions := [], invals := [], queues := [], ttable := none, ttNext := none, ttSlot := none, kernels := [],
    transCache := [], urgentTable := [], hub := Hub.reset, clk := { cycles := 0, time := 0, sub := 0, slew := 0 },
    cur := { core := 0, num := 5 }, cut := none, replay := [], agenda := [], focus := 0, free := 0, fresh := 0x100000 }

end Sys2Proof.Machine
end

