-- ==== Sys2Proof/Machine/Mem.lean ====
section
/-! DEFINITION. Memory at its home: the bytes, full/empty bits, key tags and owner tags of a location, and what a read or a
write under a given key finds and leaves there (R98, R257, R269, R283, R317, R331, R393, R394). A location below 2^52 is a
physical address (R323); the others are scratchpad bytes. -/

namespace Sys2Proof.Machine

/-- The location of byte `off` of the scratchpad of global core `core` (R12). -/
def spadLoc (core off : Nat) : Nat := Config.spadLocBase + core * Config.spadBlock + off

/-- The location lies in a scratchpad. -/
def isSpad (loc : Nat) : Bool := decide (Config.spadLocBase ≤ loc)

/-- The location lies in stacked DRAM (R323). -/
def isDram (loc : Nat) : Bool := decide (loc < Config.dramEnd)

/-- The core whose scratchpad holds the location. -/
def spadCore (loc : Nat) : Nat := (loc - Config.spadLocBase) / Config.spadBlock

/-- The byte stored at a location, whatever protects it. -/
def Mem.raw (m : Mem) (loc : Nat) : Byte := Sparse.at 0 m.bytes loc

/-- The word that holds the location is full (R98). -/
def Mem.rawFull (m : Mem) (loc : Nat) : Bool := !m.empty.contains (loc / 8)

/-- What a party finds at a location: its plaintext, zeros, or bytes decrypted under a key that has been replaced (R269). -/
inductive Sight where
  | plain | zero | stale
  deriving DecidableEq, Repr

/-- How a location reads under a credential (R269, R283, R393, R394). -/
def Mem.sight (m : Mem) (c : Cred) (loc : Nat) : Sight :=
  if isSpad loc then
    match m.owners.get? (loc / 4096) with
    | none => .zero
    | some .noContext => if c.owner = none then .plain else .zero
    | some (.ctx t) => if c.owner = some t then .plain else .zero
  else if isDram loc then
    match m.keys.get? (loc / 64), c.key with
    | none, _ => .zero
    | some .shared, _ => .plain
    | some (.ctx sl _), .shared => if sl = Config.sharedSlot then .stale else .zero
    | some (.ctx sl ep), .ctx sl' ep' => if sl = Config.sharedSlot then .stale else if sl = sl' then (if ep = ep' then .plain else .stale) else .zero
  else .plain

/-- A word of a discardable line reads as its older value at this choice (R100). -/
def Mem.older (m : Mem) (free loc : Nat) : Option OldWord :=
  match m.olds.get? (loc / 8) with
  | none => none
  | some o => if Config.lastUseDropped free (loc / 8) then some o else none

/-- The byte that a read under a credential returns. `free` picks the free values. -/
def Mem.read (m : Mem) (free : Nat) (c : Cred) (loc : Nat) : Byte :=
  match m.sight c loc with
  | .zero => 0
  | .stale => Config.staleKeyByte free loc
  | .plain =>
    match m.older free loc with
    | some o => byteOf o.bytes (loc % 8)
    | none => m.raw loc

/-- `n` bytes from a location on. -/
def Mem.readBytes (m : Mem) (free : Nat) (c : Cred) (loc n : Nat) : List Byte :=
  (List.range n).map (fun i => m.read free c (loc + i))

/-- The number held by `n` bytes from a location on. -/
def Mem.readNat (m : Mem) (free : Nat) (c : Cred) (loc n : Nat) : Nat := leNat (m.readBytes free c loc n)

/-- FE (R88) as a reader under a credential finds it: full where the bytes read as zero, else the bit that is kept, which no key
protects (R344). -/
def Mem.full (m : Mem) (free : Nat) (c : Cred) (loc : Nat) : Bool :=
  match m.sight c loc with
  | .zero => true
  | .stale => m.rawFull loc
  | .plain =>
    match m.older free loc with
    | some o => o.full
    | none => m.rawFull loc

/-- Stores one byte, keeping the canonical form. -/
def Mem.putByte (m : Mem) (cell : Host.Cell) : Mem := { m with bytes := Sparse.put 0 m.bytes cell.1 cell.2 }

/-- Stores bytes. -/
def Mem.putBytes (m : Mem) (cells : List Host.Cell) : Mem := cells.foldl Mem.putByte m

/-- Sets the full/empty bit of the word at a location. -/
def Mem.setFull (m : Mem) (full : Bool) (loc : Nat) : Mem :=
  { m with empty := if full then removeNat m.empty (loc / 8) else insertNat m.empty (loc / 8) }

/-- Zero-fills `n` bytes from a location on, every word full: only the listed bytes change (R98, R269). -/
def Mem.zeroFill (m : Mem) (loc n : Nat) : Mem :=
  { m with bytes := m.bytes.filter (fun e => !(decide (loc ≤ e.1) && decide (e.1 < loc + n))),
           empty := m.empty.filter (fun w => !(decide (loc ≤ w * 8) && decide (w * 8 < loc + n))),
           olds := m.olds.filter (fun e => !(decide (loc ≤ e.1 * 8) && decide (e.1 * 8 < loc + n))),
           badWords := m.badWords.filter (fun w => !(decide (loc ≤ w * 8) && decide (w * 8 < loc + n))) }

/-- A write to a marked frame clears its portable bit (R317). -/
def Mem.unmark (m : Mem) (loc : Nat) : Mem :=
  match m.marks.get? (loc / 4096) with
  | some k => { m with marks := m.marks.set (loc / 4096) { k with portable := false } }
  | none => m

/-- The claim of the line or scratchpad block that holds a location, before a write under a credential (R269, R393). The claim of the first
line of a frame pair's frame B starts the pair at select 0, whatever a publish has left there (R282; DESIGN CHOICE, assumption 96). -/
def Mem.claim (m : Mem) (c : Cred) (loc : Nat) : Mem :=
  if isSpad loc then
    let block := loc / 4096
    let mine : Owner := match c.owner with | none => .noContext | some t => .ctx t
    if m.owners.get? block = some mine then m
    else { (m.zeroFill (block * 4096) 4096) with owners := m.owners.set block mine }
  else if isDram loc then
    let line := loc / 64
    match m.keys.get? line with
    | some t =>
      if t = c.key then m
      else if t = .shared then { m with keys := m.keys.set line c.key }
      else { (m.zeroFill (line * 64) 64) with keys := m.keys.set line c.key, selects := removeNat m.selects (line * 64) }
    | none => { (m.zeroFill (line * 64) 64) with keys := m.keys.set line c.key, selects := removeNat m.selects (line * 64) }
  else m

/-- Settles whether a word that may read as an older value is that value, before part of it is written (R100). -/
def Mem.settle (m : Mem) (free : Nat) (loc : Nat) : Mem :=
  match m.older free loc with
  | some o =>
    { ((m.putBytes (cellsAt (loc / 8 * 8) (leBytes 8 o.bytes.toNat))).setFull o.full loc) with olds := m.olds.erase (loc / 8) }
  | none => { m with olds := m.olds.erase (loc / 8) }

/-- The word at a location is claimed for a change of its full/empty bit; a line that changes its key has been written (R269,
R317). -/
def Mem.take (m : Mem) (free : Nat) (c : Cred) (loc : Nat) : Mem :=
  let k := m.claim c loc
  (if k.keys = m.keys ∧ k.owners = m.owners then k else k.unmark loc).settle free loc

/-- The write covers every byte of the line (R331). -/
def coversLine (cells : List Host.Cell) (line : Nat) : Bool :=
  (List.range 64).all (fun i => cells.any (fun c => c.1 == line * 64 + i))

/-- The write covers every byte of the aligned word. -/
def coversWord (cells : List Host.Cell) (w : Nat) : Bool := (List.range 8).all (fun i => cells.any (fun c => c.1 == w * 8 + i))

/-- What a write of bytes does to the line, block and word of each of its locations, before the bytes are stored. -/
def Mem.prepare (free : Nat) (c : Cred) (m : Mem) (cell : Host.Cell) : Mem :=
  ((m.claim c cell.1).settle free cell.1).unmark cell.1

/-- A write of bytes under a credential (R98, R269, R317, R331): the lines and blocks are claimed, the bytes stored, the words
that hold them become full, and the poison of a line covered whole is cleared, as is the error of a scratchpad word covered whole
(R353). -/
def Mem.write (m : Mem) (free : Nat) (c : Cred) (cells : List Host.Cell) : Mem :=
  let m1 := cells.foldl (Mem.prepare free c) m
  let m2 := m1.putBytes cells
  let m3 := cells.foldl (fun m e => m.setFull true e.1) m2
  { m3 with poison := m3.poison.filter (fun line => !coversLine cells line),
            badWords := m3.badWords.filter (fun w => !coversWord cells w) }

/-- Some of `n` bytes from a location on, that a reader under the credential does not find as zeros, have an uncorrectable error: their
line is poisoned, or a word of them in a scratchpad has one (R331, R353). -/
def Mem.poisoned (m : Mem) (c : Cred) (loc n : Nat) : Bool :=
  if isSpad loc then m.badWords.any (fun w => decide (loc < w * 8 + 8) && decide (w * 8 < loc + n)) && m.sight c loc != .zero
  else m.poison.contains (loc / 64) && m.sight c loc != .zero

/-- The words a list of cells touches, without repeats. -/
def wordsOf (cells : List Host.Cell) : List Nat := dedup (cells.map (fun c => c.1 / 8))

end Sys2Proof.Machine
end

