-- ==== Sys2Proof/Machine/Base.lean ====
section
/-! DEFINITION. Reading and writing the parts of the state: strands, cores, registers, levels, contexts, groups, clock, log and
host messages. -/

namespace Sys2Proof.Machine

/-- The tid value of a strand (R275). -/
def StrandId.tid (sid : StrandId) : Nat := sid.core * 8 + sid.num

/-- The strand a tid value names. -/
def ofTid (t : Nat) : StrandId := { core := t / 8, num := t % 8 }

/-! ## Parts -/

/-- A strand. -/
def State.strand (s : State) (sid : StrandId) : Strand :=
  (s.strands.get? (StrandId.tid sid)).getD (Strand.atReset (StrandId.tid sid))

/-- Replaces a strand. -/
def State.setStrand (s : State) (sid : StrandId) (st : Strand) : State :=
  { s with strands := s.strands.set (StrandId.tid sid) st }

/-- Changes a strand. -/
def State.modStrand (s : State) (sid : StrandId) (f : Strand → Strand) : State := s.setStrand sid (f (s.strand sid))

/-- The strand that executes. -/
def State.me (s : State) : Strand := s.strand s.cur

/-- Changes the strand that executes. -/
def State.modMe (s : State) (f : Strand → Strand) : State := s.modStrand s.cur f

/-- A core. -/
def State.core (s : State) (c : Nat) : CoreState := Sparse.at CoreState.reset s.cores c

/-- Replaces a core. -/
def State.setCore (s : State) (c : Nat) (k : CoreState) : State := { s with cores := s.cores.set c k }

/-- Changes a core. -/
def State.modCore (s : State) (c : Nat) (f : CoreState → CoreState) : State := s.setCore c (f (s.core c))

/-- The cluster of a core (R10). -/
def clusterOf (core : Nat) : Nat := core % 1024 / 4

/-- The four cores of a core's cluster (R10). -/
def clusterCores (core : Nat) : List Nat := (List.range 4).map (fun i => core / 4 * 4 + i)

/-- A cluster. -/
def State.cluster (s : State) (k : Nat) : ClusterState := Sparse.at ClusterState.reset s.clusters k

/-- Changes a cluster. -/
def State.modCluster (s : State) (k : Nat) (f : ClusterState → ClusterState) : State :=
  { s with clusters := s.clusters.set k (f (s.cluster k)) }

/-- An engine. -/
def State.engine (s : State) (e : Nat) : Engine := Sparse.at Engine.reset s.engines e

/-- Changes an engine. -/
def State.modEngine (s : State) (e : Nat) (f : Engine → Engine) : State :=
  { s with engines := s.engines.set e (f (s.engine e)) }

/-- Changes the hub. -/
def State.modHub (s : State) (f : Hub → Hub) : State := { s with hub := f s.hub }

/-- The cores the state lists, and so every core that differs from its reset value or has a strand that does. -/
def State.listedCores (s : State) : List Nat :=
  dedup (Sparse.keys s.cores ++ (Sparse.keys s.strands).map (fun t => t / 8))

/-- The strands the state lists. -/
def State.listedStrands (s : State) : List StrandId := (Sparse.keys s.strands).map ofTid

/-! ## Partitions (R267) -/

/-- The clusters of a partition. A package that has not been divided is one partition, number 0. -/
def State.partition (s : State) (p : Nat) : List Nat :=
  if s.partitions.isEmpty then (if p = 0 then List.range 192 else []) else Sparse.at [] s.partitions p

/-- The core lies in the partition that a SWAP is stopping. -/
def State.swapStops (s : State) (core : Nat) : Bool :=
  match s.hub.swapping with
  | none => false
  | some p => (s.partition p).contains (clusterOf core)

/-! ## Numbers that name nothing (R11) -/

/-- The global core number names a core of this package. -/
def State.coreExists (s : State) (g : Nat) : Bool :=
  decide (g % 1024 < 768) && decide (g / 1024 = s.hub.sockid.toNat)

/-- The tid value names a strand of this package (R11). -/
def State.tidExists (s : State) (t : Nat) : Bool := decide (t % 8 < 6) && s.coreExists (t / 8)

/-- The strand is a general strand (R23). -/
def isGeneral (sid : StrandId) : Bool := decide (sid.num < 4)

/-! ## Groups and contexts -/

/-- The cores of a list of extents, ascending (R226). -/
def extentCores (extents : List (Nat × Nat)) : List Nat :=
  (extents.map (fun e => (List.range e.2).map (fun i => e.1 + i))).flatten.foldl insertNat []

/-- The cores of a group in ascending global core number (R226). -/
def Group.cores (g : Group) : List Nat := extentCores g.extents

/-- The size S of a group (R226). -/
def Group.size (g : Group) : Nat := g.cores.length

/-- The rank of a core in a group (R226). -/
def Group.rank (g : Group) (core : Nat) : Nat := g.cores.idxOf core

/-- The group a core belongs to. -/
def State.groupOf (s : State) (core : Nat) : Option Group :=
  match (s.core core).group with
  | none => none
  | some n => s.groups.get? n

/-- The ASID of the context that owns a core. -/
def State.asidOf (s : State) (core : Nat) : Option Nat := (s.groupOf core).map (·.asid)

/-- The context that owns a core. -/
def State.contextOf (s : State) (core : Nat) : Option Context :=
  match s.asidOf core with
  | none => none
  | some a => s.contexts.get? a

/-- The core lies in one of the groups of the context that owns `home`. -/
def State.inGroup (s : State) (home core : Nat) : Bool :=
  home == core ||
  match s.groupOf home, s.groupOf core with
  | some g, some _ => decide ((s.core home).group = (s.core core).group) && !(g.st == .releasing)
  | _, _ => false

/-- The owner tag of a context (R257). -/
def Context.tag (c : Context) : KeyTag := .ctx c.slot c.epoch

/-- The owner tag as a number: slot in [9:0], epoch in [31:10] (R257). -/
def Context.tagWord (c : Context) : Nat := c.slot % 1024 + c.epoch % 2 ^ 22 * 1024

/-- The credential of a context's own accesses (R269). -/
def Context.cred (c : Context) : Cred := { key := c.tag, owner := some c.tag }

/-- The credential with no context: the shared key, no owner tag (R393, R394). -/
def Cred.shared : Cred := { key := .shared, owner := none }

/-- The credential under which a context's accesses reach a page: its own key, or the shared key where SKEY = 1 (R283). -/
def Cred.onPage (c : Cred) (skey : Bool) : Cred := if skey then { c with key := .shared } else c

/-- The context for which a standby strand works: the faulting strand's context for a chain message, the owner of its own core
otherwise (R296). -/
def State.machineContext (s : State) (core : Nat) : Option Nat :=
  match (s.core core).serving with
  | some (.chain m) => s.asidOf m.who.core
  | _ => s.asidOf core

/-- The ASID in which a strand's accesses are made. -/
def State.asid (s : State) (sid : StrandId) : Option Nat :=
  if sid.num = 5 then s.machineContext sid.core else s.asidOf sid.core

/-- The name under which translated accesses of a strand are kept apart: its ASID, or 65,536 where it has none or its addresses are
physical (R393). -/
def State.asidName (s : State) (sid : StrandId) : Nat := if sid.num = 5 then 65536 else (s.asid sid).getD 65536

/-- The credential of a strand's accesses (R269, R393). -/
def State.cred (s : State) (sid : StrandId) : Cred :=
  match s.asid sid with
  | none => Cred.shared
  | some a =>
    match s.contexts.get? a with
    | none => Cred.shared
    | some c => c.cred

/-! ## Status word fields (R36) -/

/-- SSW.PRIV. -/
def Strand.priv (t : Strand) : Nat := bitsAt t.ssw.toNat 0 2
/-- SSW.IE. -/
def Strand.ie (t : Strand) : Bool := bitAt t.ssw.toNat 2
/-- SSW.PP. -/
def Strand.pp (t : Strand) : Bool := bitAt t.ssw.toNat 3
/-- SSW.RM. -/
def Strand.rm (t : Strand) : Nat := bitsAt t.ssw.toNat 4 3
/-- SSW.NTE. -/
def Strand.nte (t : Strand) : Bool := bitAt t.ssw.toNat 7
/-- SSW.EPRI. -/
def Strand.epri (t : Strand) : Nat := bitsAt t.ssw.toNat 13 2
/-- SSW.IPRI. -/
def Strand.ipri (t : Strand) : Nat := bitsAt t.ssw.toNat 15 2
/-- PREC.P. -/
def Strand.p (t : Strand) : Nat := bitsAt t.prec.toNat 0 8

/-- Sets SSW.PP. -/
def Strand.withPp (t : Strand) (b : Bool) : Strand := { t with ssw := putBits t.ssw 3 1 (flag b) }

/-- The level at which a strand executes (R260). -/
def State.level (s : State) (sid : StrandId) : Level :=
  if sid.num = 5 then .machine
  else if sid.num = 4 then .user
  else if (s.strand sid).priv = 0 then .user else .supervisor

/-- The level of the executing strand. -/
def State.myLevel (s : State) : Level := s.level s.cur

/-! ## Integer registers (R30, R86) -/

/-- The shared registers as the executing strand's word reads them: all at one point, that of its first access where it has made some
(R31). -/
def State.shared (s : State) : Sparse Word := if s.me.got.isEmpty then (s.core s.cur.core).s else s.me.regs

/-- X(f): the register named by a 6-bit field. -/
def State.x (s : State) (f : IntReg) : Word :=
  if f.toNat < 32 then
    if f.toNat = 0 then 0 else Sparse.at 0 s.me.x f.toNat
  else if f.toNat = 32 then BitVec.ofNat 64 s.cur.core
  else Sparse.at 0 s.shared (f.toNat - 32)

/-- Writes `x` register `n` of a strand; a write to `x0` is discarded. -/
def Strand.putX (t : Strand) (n : Nat) (v : Word) : Strand := if n = 0 then t else { t with x := Sparse.put 0 t.x n v }

/-- SetX(f, v): writes to `x0` and `s0` are discarded. -/
def State.setX (s : State) (f : IntReg) (v : Word) : State :=
  if f.toNat < 32 then s.modMe (fun t => t.putX f.toNat v)
  else if f.toNat = 32 then s
  else s.modCore s.cur.core (fun k => { k with s := Sparse.put 0 k.s (f.toNat - 32) v })

/-- The `x` register named by a 5-bit field (R47). -/
def State.xr (s : State) (r : XReg) : Word := s.x (r.zeroExtend 6)

/-- Writes the `x` register named by a 5-bit field. -/
def State.setXr (s : State) (r : XReg) (v : Word) : State := s.setX (r.zeroExtend 6) v

/-! ## Vector and mask registers -/

/-- A vector register. -/
def State.v (s : State) (r : VReg) : VWord := Sparse.at 0 s.me.v r.toNat

/-- Writes a vector register. -/
def State.setV (s : State) (r : VReg) (w : VWord) : State := s.modMe (fun t => { t with v := Sparse.put 0 t.v r.toNat w })

/-- A mask register; `m0` reads all ones (R30). -/
def State.m (s : State) (r : MReg) : MWord := if r.toNat = 0 then BitVec.allOnes 128 else Sparse.at 0 s.me.m r.toNat

/-- Writes a mask register; a write to `m0` is discarded (R30). -/
def State.setM (s : State) (r : MReg) (w : MWord) : State :=
  if r.toNat = 0 then s else s.modMe (fun t => { t with m := Sparse.put 0 t.m r.toNat w })

/-! ## Clock (R4, R15, R275) -/

/-- `n` core cycles pass: 2.4 cycles to the nanosecond, the time unit at the slew in force. -/
def Clock.tick (k : Clock) (n : Nat) : Clock :=
  let sub := k.sub + n * 5 * (1000000 + k.slew).toNat
  { k with cycles := k.cycles + n, time := k.time + sub / 12000000, sub := sub % 12000000 }

/-- `n` core cycles pass. -/
def State.tick (s : State) (n : Nat) : State := { s with clk := s.clk.tick n }

/-- Time() (R275): the count that `rdtime` reads. -/
def State.time (s : State) : Word := BitVec.ofNat 64 s.clk.time

/-- Engine cycles in core cycles: 700 MHz against 2.4 GHz (R4, R15). -/
def engineCycles (n : Nat) : Nat := (n * 24 + 6) / 7

/-- Mesh cycles in core cycles: 1.6 GHz against 2.4 GHz (R4, R15). -/
def meshCycles (n : Nat) : Nat := (n * 3 + 1) / 2

/-! ## Log and host messages (R338, R351) -/

/-- An event arrives at the hub for the black box. -/
def State.log (s : State) (e : BbEvent) : State := s.modHub (fun h => { h with bbQueue := h.bbQueue ++ [e] })

/-- A plain event: number, source and address. -/
def State.logEvent (s : State) (event source : Nat) (cause : Cause) (tag : Nat) (addr : Word) (aux : Nat) : State :=
  s.log { event := BitVec.ofNat 16 event, source := BitVec.ofNat 16 source, cause := cause, tag := BitVec.ofNat 32 tag,
          addr := addr, aux := BitVec.ofNat 32 aux, arrived := s.clk.cycles * 2 / 3 }

/-- An interrupt message to the host on an MSI-X vector. -/
def State.tellHost (s : State) (vector : Nat) : State := s.modHub (fun h => { h with msi := h.msi ++ [vector] })

/-- Changes the strand of a given life wherever it is: resident, in the save area, or in an image. -/
def State.modUid (s : State) (uid : Nat) (f : Strand → Strand) : State :=
  let at_ : Strand → Strand := fun t => if t.uid = uid then f t else t
  { s with strands := s.strands.map (fun e => (e.1, at_ e.2)), saved := s.saved.map (fun x => { x with strand := at_ x.strand }),
           images := s.images.map (fun im => { im with strands := im.strands.map (fun e => (e.1, at_ e.2)) }) }

/-- The lowest pending interrupt of a strand (R261). -/
def Strand.pending (t : Strand) : Option Cause :=
  if t.irqTimer then some 0xE1 else if t.irqPost then some 0xE2 else if t.irqHost then some 0xE3 else none

/-- A parked strand takes an interrupt now (R27, R261): its wake condition comes after it. -/
def Strand.takesNow (t : Strand) : Bool :=
  t.st == .parked && !t.paused && !t.chained && t.priv == 0 && t.ie && t.pending.isSome

/-- The wake condition of a parked strand becomes true, and stays so whatever follows (R25); an interrupt taken now comes first (R27). -/
def Strand.latch (v : Word) (t : Strand) : Strand := if t.served.isSome || t.takesNow then t else { t with served := some v }

/-- A parked wait for tags is over once its condition is true: the tags may be cleared again before the strand goes on (R25, R220). -/
def Strand.latchTags (tags : Word) (t : Strand) : Strand :=
  match t.wait with
  | some (.tagAny _ m) => if tags &&& m ≠ 0 then t.latch (tags &&& m) else t
  | some (.tagAll _ m) => if tags &&& m = m then t.latch m else t
  | _ => t

/-- Sets a tag of a core (R213), and serves the waits of its strands that the tag ends. -/
def State.setTag (s : State) (core n : Nat) : State :=
  let tags := (s.core core).tagw ||| BitVec.ofNat 64 (2 ^ (n % 64))
  let s := s.modCore core (fun k => { k with tagw := tags })
  { s with strands := s.strands.map (fun e => if e.1 / 8 = core then (e.1, e.2.latchTags tags) else e) }

/-- Sets a tag of a core that a swapped image holds (R213, R267). -/
def Image.setTag (core n : Nat) (im : Image) : Image :=
  { im with cores := im.cores.map (fun e =>
      if e.1 = core then (e.1, { e.2 with tagw := e.2.tagw ||| BitVec.ofNat 64 (2 ^ (n % 64)) }) else e) }

/-- A number that nothing else of the model carries. -/
def State.takeFresh (s : State) : Nat × State := (s.fresh, { s with fresh := s.fresh + 1 })

/-! ## Fields of a word in memory -/

/-- The task record held by 32 bytes (R232). -/
def TaskRecord.ofNat (w : Nat) : TaskRecord :=
  { entry := BitVec.ofNat 48 w, tx := BitVec.ofNat 16 (w / 2 ^ 48), join := BitVec.ofNat 64 (bitsAt w 64 48),
    ty := BitVec.ofNat 16 (w / 2 ^ 112), arg0 := BitVec.ofNat 32 (w / 2 ^ 128), arg1 := BitVec.ofNat 32 (w / 2 ^ 160),
    arg2 := BitVec.ofNat 32 (w / 2 ^ 192), tz := BitVec.ofNat 16 (w / 2 ^ 224) }

/-- The 32 bytes of a task record, as a number (R232). -/
def TaskRecord.toNat (r : TaskRecord) : Nat :=
  r.entry.toNat + r.tx.toNat * 2 ^ 48 + r.join.toNat % 2 ^ 48 * 2 ^ 64 + r.ty.toNat * 2 ^ 112 + r.arg0.toNat * 2 ^ 128 +
    r.arg1.toNat * 2 ^ 160 + r.arg2.toNat * 2 ^ 192 + r.tz.toNat * 2 ^ 224

/-- The record is rejected by R232: nonzero bits in ENTRY [1:0], JOIN [2:0] or [255:240]. -/
def taskRejected (w : Nat) : Bool :=
  decide (bitsAt w 0 2 ≠ 0) || decide (bitsAt w 64 3 ≠ 0) || decide (bitsAt w 240 16 ≠ 0)

end Sys2Proof.Machine
end

