-- ==== Sys2Proof/Machine/Silt.lean ====
section
/-! DEFINITION. The Silt slices (R325, R328, R330, R332): which slice and pseudo-channel a line belongs to, which lines a slice holds, its
miss table and its write-back buffer, what stacked DRAM holds of a line that has been written (R100, R329), and the L1 data caches that
misses fill. Residency decides no value but the one of R100. -/

namespace Sys2Proof.Machine

/-! ## Slices (R10, R325) -/

/-- Bytes in the stacks of one die (R8, R325). -/
def dieBytes : Nat := 0x1800000000

/-- The dies whose LOCAL bit is `local` (R324). -/
def diesWith (locals : BitVec 6) (loc : Bool) : List Nat := (List.range 6).filter (fun d => bitAt locals.toNat d == loc)

/-- The slice that homes an address of stacked DRAM, and the offset within it (R325). -/
def sliceOf (locals : BitVec 6) (a : Nat) : Nat × Nat :=
  let pool := diesWith locals false
  let k := pool.length
  if a < k * dieBytes then
    let b := a / 4096
    (pool.getD (b % (16 * k) / 16) 0 * 16 + b % 16, b / (16 * k) * 4096 + a % 4096)
  else
    let p := a - k * dieBytes
    let q := p % dieBytes
    ((diesWith locals true).getD (p / dieBytes) 0 * 16 + q / 4096 % 16, q / 4096 / 16 * 4096 + q % 4096)

/-- The slice of a line. -/
def sliceOfLine (locals : BitVec 6) (line : Nat) : Nat := (sliceOf locals (line * 64)).1

/-- The stack that a slice fronts (R325). -/
def stackOfSlice (slice : Nat) : Nat := slice / 8

/-- The pseudo-channel of an address of stacked DRAM (R10, R325). -/
def channelOf (locals : BitVec 6) (a : Nat) : Nat :=
  let slice := (sliceOf locals a).1
  stackOfSlice slice * 128 + slice % 8 * 16 + bitsAt a 6 4

/-- The slice and set of a line (R328); the set is the line's number within its slice modulo 4,096 (assumption 17). -/
def siltSet (locals : BitVec 6) (line : Nat) : Nat × Nat :=
  let s := sliceOf locals (line * 64)
  (s.1, s.2 / 64 % 4096)

/-- Ways of a set that hold cached lines (R324, R328). -/
def siltWays (shways : BitVec 2) : Nat := [16, 14, 12, 8].getD shways.toNat 16

/-- The stack of a line is quiesced: its misses and write-backs are held (R10, R327). -/
def State.stackBusy (s : State) (line : Nat) : Bool := bitAt s.hub.busy.toNat (stackOfSlice (sliceOfLine s.hub.locals line))

/-! ## Lines that have been written (R100, R329, R330) -/

/-- The lines a list of cells touches, without repeats. -/
def linesOf (cells : List Host.Cell) : List Nat := dedup (cells.map (fun (c : Host.Cell) => c.1 / 64))

/-- What a line holds now; a word that may read as an older value stands as the free choice gives it (R100). -/
def Mem.lineNow (m : Mem) (free line : Nat) : OldLine :=
  (m.olds.filter (fun e => e.1 / 8 == line && Config.lastUseDropped free e.1)).foldl (fun l e =>
    { bytes := (cellsAt (e.1 * 8) (leBytes 8 e.2.bytes.toNat)).foldl (fun b c => Sparse.put 0 b c.1 c.2) l.bytes,
      empty := if e.2.full then removeNat l.empty e.1 else insertNat l.empty e.1 })
    { bytes := m.bytes.filter (fun e => decide (e.1 / 64 = line)), empty := m.empty.filter (fun w => decide (w / 8 = line)) }

/-- The slice holds a newer line than stacked DRAM and the write-back buffer do. -/
def Caches.lineDirty (c : Caches) (line : Nat) : Bool := (c.dirty.get? line).any (fun d => d.live)

/-- A line of stacked DRAM is about to be written: what stacked DRAM holds of it is kept (R100, R329). -/
def State.soil (s : State) (line : Nat) : State :=
  if isDram (line * 64) then
    let held := match s.caches.dirty.get? line with | some d => d.held | none => s.mem.lineNow s.free line
    { s with caches := { s.caches with dirty := s.caches.dirty.set line { held := held, live := true },
                                       wback := s.caches.wback.map (fun w => if w.line = line then { w with again := true } else w) } }
  else s

/-- The entry of a line in a write-back buffer. -/
def Caches.wbackOf (c : Caches) (line : Nat) : Option WriteBack := c.wback.find? (fun w => w.line == line)

/-- A buffered line is written: from here on it is what stacked DRAM holds (R330). -/
def Caches.writeOut (c : Caches) (line : Nat) : Caches :=
  match c.wbackOf line with
  | none => c
  | some w =>
    { c with wback := c.wback.filter (fun x => x.line != line),
             dirty := match c.dirty.get? line with
               | some d => if w.again then c.dirty.set line { d with held := w.held } else c.dirty.erase line
               | none => c.dirty }

/-- A line is written back from its slice at once. -/
def Caches.wroteBack (c : Caches) (line : Nat) : Caches :=
  { c with dirty := c.dirty.erase line, wback := c.wback.filter (fun x => x.line != line) }

/-- The entries of the write-back buffer of a line's slice. -/
def State.wbackWith (s : State) (line : Nat) : List WriteBack :=
  s.caches.wback.filter (fun w => sliceOfLine s.hub.locals w.line == sliceOfLine s.hub.locals line)

/-- The 32 entries of the write-back buffer of a line's slice are taken, those reserved for misses among them (R330). -/
def State.wbackFull (s : State) (line : Nat) : Bool :=
  let reserved := s.caches.misses.filter (fun m => m.reserved && sliceOfLine s.hub.locals m.line == sliceOfLine s.hub.locals line)
  decide (32 ≤ (s.wbackWith line).length + reserved.length)

/-- A line can be held in its write-back buffer: it stands there, or there is room, or room can be made because the stack takes writes. -/
def State.wbackRoom (s : State) (line : Nat) : Bool :=
  (s.caches.wbackOf line).isSome || !s.wbackFull line || !s.stackBusy line

/-- A dirty line goes to the write-back buffer of its slice; where that is full, the oldest entry is written first (R330). -/
def State.toWback (s : State) (line : Nat) : State :=
  match s.caches.dirty.get? line with
  | none => s
  | some d =>
    if !d.live || !s.wbackRoom line then s
    else
      let c := match (if (s.caches.wbackOf line).isNone && s.wbackFull line then (s.wbackWith line).head? else none) with
        | some w => s.caches.writeOut w.line
        | none => s.caches
      let w : WriteBack := { line := line, held := s.mem.lineNow s.free line, again := false }
      { s with caches := { c with dirty := c.dirty.set line { d with live := false }, wback := c.wback.filter (fun x => x.line != line) ++ [w] } }

/-- A line leaves its slice, unless it is dirty and there is no room to hold it. -/
def State.evictLine (s : State) (line : Nat) : State :=
  if s.caches.lineDirty line && !s.wbackRoom line then s
  else ({ s with caches := { s.caches with silt := s.caches.silt.erase line } }).toWback line

/-- The words of a line that differ from what the line held when it was last written back (R100). -/
def Mem.changedWords (m : Mem) (line : Nat) (old : OldLine) : List (Nat × OldWord) :=
  (List.range 8).filterMap (fun i =>
    let w := line * 8 + i
    let bytes := BitVec.ofNat 64 (leNat ((List.range 8).map (fun j => Sparse.at 0 old.bytes (w * 8 + j))))
    let now := BitVec.ofNat 64 (leNat ((List.range 8).map (fun j => m.raw (w * 8 + j))))
    let full := !old.empty.contains w
    if (bytes ≠ now ∨ full ≠ m.rawFull (w * 8)) ∧ (m.olds.get? w).isNone then some (w, { bytes := bytes, full := full }) else none)

/-- A line's priority becomes 0, and a dirty line is written back, or held in the write-back buffer while its stack is quiesced
(R327, R329). -/
def State.demote (s : State) (line : Nat) : State :=
  let s := if !s.caches.lineDirty line then s
    else if s.stackBusy line then s.toWback line
    else { s with caches := s.caches.wroteBack line }
  { s with caches := { s.caches with silt := s.caches.silt.map (fun e => if e.1 = line then (e.1, { e.2 with prio := 0 }) else e) } }

/-- A line is dropped without write-back (R100, R329): its changed words may read as what the write-back buffer or stacked DRAM holds of
them. -/
def State.dropLine (s : State) (line : Nat) : State :=
  let c : Caches := { s.caches with silt := s.caches.silt.erase line }
  match s.caches.dirty.get? line with
  | none => { s with caches := c }
  | some d =>
    let old := match s.caches.wbackOf line with | some w => w.held | none => d.held
    { s with caches := { c with dirty := c.dirty.set line { d with live := false } },
             mem := { s.mem with olds := (s.mem.changedWords line old).foldl (fun t e => t.set e.1 e.2) s.mem.olds } }

/-- A last-use access to a line, which drops it or not (R100, R329). -/
def State.lastUse (s : State) (line : Nat) (drop : Bool) : State := if drop then s.dropLine line else s.demote line

/-! ## Touches (R269, R328) -/

/-- The key slot that a tag names (R257, R283). -/
def KeyTag.slot (t : KeyTag) : Nat :=
  match t with
  | .shared => Config.sharedSlot
  | .ctx n _ => n

/-- The key slot under which a line is cached for an access: the shared key's for a line under it, else the accessing key's (R269). -/
def Mem.lineSlot (m : Mem) (c : Cred) (line : Nat) : Nat :=
  if m.keys.get? line = some .shared then Config.sharedSlot else c.key.slot

/-- The slice holds the line, and it hits for the slot (R269). -/
def State.siltHas (s : State) (line slot : Nat) : Bool := (s.caches.silt.get? line).any (fun l => l.slot == slot)

/-- A miss on the line is held: its stack is quiesced (R327). -/
def State.missHeld (s : State) (line slot : Nat) : Bool := isDram (line * 64) && !s.siltHas line slot && s.stackBusy line

/-- The line evicted from a full set (R328): the lowest priority, then the least recently used. -/
def Caches.victim (c : Caches) (locals : BitVec 6) (set : Nat × Nat) : Option Nat :=
  (c.silt.filter (fun e => siltSet locals e.1 == set)).foldl (fun best e =>
    match best with
    | none => some e
    | some b => if e.2.prio < b.2.prio ∨ (e.2.prio = b.2.prio ∧ e.2.used < b.2.used) then some e else some b) none
    |>.map (·.1)

/-- An access touches a line of its slice: the line is resident afterwards, with the access's priority (R328). A line held there under
another slot leaves first. -/
def State.siltPut (s : State) (line slot : Nat) (ep : BitVec 2) : State :=
  let s := if (s.caches.silt.get? line).any (fun l => l.slot != slot) then s.evictLine line else s
  let set := siltSet s.hub.locals line
  let full := (s.caches.silt.get? line).isNone &&
    decide (siltWays s.hub.shways ≤ (s.caches.silt.filter (fun e => siltSet s.hub.locals e.1 == set)).length)
  let s := match (if full then s.caches.victim s.hub.locals set else none) with
    | some v => s.evictLine v
    | none => s
  { s with caches := { s.caches with silt := s.caches.silt.set line { slot := slot, prio := ep, used := s.caches.uses },
                                     uses := s.caches.uses + 1 } }

/-! ## L1 data caches (R8, R332) -/

/-- A count of 48 bits that saturates (R332). -/
def sat48 (n : Nat) : Nat := Nat.min n (2 ^ 48 - 1)

/-- A line goes into an L1 data cache of 1,024 lines; the line used longest ago makes room (R8, assumption 17). -/
def CoreState.l1Fill (k : CoreState) (l : L1Line) : CoreState :=
  let all := k.l1.filter (fun e => e.line != l.line || e.slot != l.slot) ++ [l]
  let out := all.take (all.length - 1024)
  { k with l1 := all.drop (all.length - 1024),
           pfUseless := sat48 (k.pfUseless + (out.filter (fun e => e.prefetched)).length) }

/-- A line of a core's L1 data cache. -/
def CoreState.l1Find (k : CoreState) (line slot : Nat) : Option L1Line := k.l1.find? (fun e => e.line == line && e.slot == slot)

/-! ## Misses (R330, R332) -/

/-- Replaces the list of misses. -/
def State.setMisses (s : State) (m : List Miss) : State := { s with caches := { s.caches with misses := m } }

/-- The pending miss of a line: misses to one line are one (R330). -/
def State.missOf (s : State) (line : Nat) : Option Miss := s.caches.misses.find? (fun m => m.line == line)

/-- The misses that stand in the miss table of a line's slice (R330). -/
def State.missTable (s : State) (line : Nat) : List Miss :=
  (s.caches.misses.filter (fun m => sliceOfLine s.hub.locals m.line == sliceOfLine s.hub.locals line)).take 256

/-- The read of a miss returns: the line fills its slice, and the L1 of each core whose `pf` waited on it (R330, R332). -/
def State.fillMiss (s : State) (m : Miss) : State :=
  let s := (s.setMisses (s.caches.misses.filter (fun x => x != m))).siltPut m.line m.slot m.prio
  m.pfs.foldl (fun s e => s.modCore e.1 (fun k => k.l1Fill { line := m.line, slot := e.2, prefetched := true })) s

/-- A demand access to a line of stacked DRAM reaches its slice (R328, R330): it merges with a miss on its way, which is over with it; or
it misses, a place of the miss table being free for it or the earliest miss there ending first; or it hits. -/
def State.siltTouch (s : State) (line slot : Nat) (ep : BitVec 2) : State :=
  let s := match s.missOf line with
    | some m => s.fillMiss m
    | none =>
      match (if s.siltHas line slot then none else if 256 ≤ (s.missTable line).length then (s.missTable line).head? else none) with
      | some m => s.fillMiss m
      | none => s
  s.siltPut line slot ep

/-- The slot under which an access of a credential finds a line: a write makes the line its own (R269). -/
def State.slotFor (s : State) (c : Cred) (line : Nat) (write : Bool) : Nat := if write then c.key.slot else s.mem.lineSlot c line

/-- A party that carries no EP touches the lines of a list: those of stacked DRAM go through their slices at priority 2 (R328). -/
def State.siltUses (s : State) (c : Cred) (write : Bool) (lines : List Nat) : State :=
  lines.foldl (fun s line => if isDram (line * 64) then s.siltTouch line (s.slotFor c line write) 2 else s) s

/-- A miss on one of the lines is held (R327). -/
def State.anyHeld (s : State) (c : Cred) (write : Bool) (lines : List Nat) : Bool :=
  lines.any (fun line => s.missHeld line (s.slotFor c line write))

end Sys2Proof.Machine
end

