-- ==== Sys2Proof/Machine/Ops.lean ====
section
/-! DEFINITION. The named operations of the machine: writes at a home with the rounds they start, draining the store buffer,
halting strands and contexts, the handler chain, taking a trap or an interrupt, the return from one, and the retirement of an
instruction word. -/

namespace Sys2Proof.Machine

/-! ## Wakes from retention (R41-R43, R357) -/

/-- The slower of two P-states. -/
def slower (a b : BitVec 2) : BitVec 2 := if a.toNat < b.toNat then b else a

/-- A cluster runs at PSTATE, or stays below it while it is throttled (R358, R359). -/
def ClusterState.settle (k : ClusterState) : ClusterState :=
  { k with changing := none, curp := if k.thr then slower k.curp k.pstate else k.pstate }

/-- A wake event at one of its cores wakes a cluster, which returns to its set P-state (R357). -/
def ClusterState.wake (k : ClusterState) : ClusterState :=
  if k.curc = 0 then k else { k.settle with curc := 0, changing := k.changing }

/-- A core comes out of retention, and its cluster out of its C-state (R43, R357). -/
def State.wakeCore (s : State) (core : Nat) : State :=
  if (s.core core).retained = 0 then s
  else (s.modCluster (clusterOf core) ClusterState.wake).modCore core (fun k => { k with retained := 0 })

/-- An access of another party to the scratchpad of a core at retention depth 3 wakes the core (R43). -/
def State.wakeSpad (s : State) (loc : Nat) : State :=
  if isSpad loc && decide ((s.core (spadCore loc)).retained = 3) then s.wakeCore (spadCore loc) else s

/-! ## Control blocks in memory (R5, R292, R293, R301) -/

/-- The key under which the front end reads for a queue: its context's (R299, R394). -/
def State.queueCred (s : State) (q : Queue) : Cred := match s.contexts.get? q.asid with | some c => c.cred | none => Cred.shared

/-- What a write of a byte by software or the host stores at an offset of the control block of a queue that is not Disabled (R5, R301): the
fields that the front end writes keep their values, but RIDX of a Halted queue may be rewritten (R300), and SKIPPED clears where a 1 is
written. -/
def Queue.fieldByte (q : Queue) (off : Nat) (old new : Byte) : Option Byte :=
  if off < 4 then some new
  else if off < 8 then (if q.st == .halted then some new else none)
  else if off < 16 then some new
  else if off = 18 then some (if bitAt new.toNat 0 then BitVec.ofNat 8 (putBits (BitVec.setWidth 64 old) 0 1 0).toNat else old)
  else if off < 32 then none
  else some new

/-- Physical base of the ring. -/
def Context.fqPlace (c : Context) : Nat := bitsAt c.fqBase.toNat 12 40 * 4096

/-- Entries of the ring. -/
def Context.fqSize (c : Context) : Nat := 2 ^ (bitsAt c.fqBase.toNat 0 4 + 4)

/-- Entry `i` of the ring. -/
def Context.fqEntry (c : Context) (i : Nat) : Nat := c.fqPlace + 64 + 32 * i

/-- A location lies in the fault queue of a live pageable context (R292). -/
def Context.fqHolds (c : Context) (loc : Nat) : Bool :=
  c.pageable && c.st != .halted && decide (c.fqPlace ≤ loc) && decide (loc < c.fqEntry c.fqSize)

/-- A write by software takes effect at an offset of a fault queue (R5, R292, R293): WIDX, OVF and an entry's fields but STATUS keep their
values. -/
def fqWritable (off : Nat) : Bool := decide (8 ≤ off ∧ off < 64) || (decide (64 ≤ off) && decide ((off - 64) % 32 = 18))

/-- A byte that software or the host writes, as the control block or fault queue that holds it takes it (R5). -/
def State.fieldCell (s : State) (e : Host.Cell) : Option Host.Cell :=
  match s.queues.find? (fun q => decide (q.2.block ≤ e.1) && decide (e.1 < q.2.block + 64)) with
  | some q => (q.2.fieldByte (e.1 - q.2.block) (s.mem.read s.free (s.queueCred q.2) e.1) e.2).map (fun b => (e.1, b))
  | none =>
    match s.contexts.find? (fun c => c.2.fqHolds e.1) with
    | some c => if fqWritable (e.1 - c.2.fqPlace) then some e else none
    | none => some e

/-! ## Writes at a home (R98, R105) -/

/-- The word in memory at which a waiter waits for a value of it. -/
def Waiter.word (w : Waiter) : Option Nat :=
  match w.wait with
  | .word _ _ l => some l
  | .counter l _ => some l
  | _ => none

/-- The waiter's condition holds at its word (R104, R240). -/
def State.feReady (s : State) (w : Waiter) : Bool :=
  match w.wait with
  | .word .stp _ l => !s.mem.full s.free w.cred l
  | .word _ _ l => s.mem.full s.free w.cred l
  | .counter l _ => decide (s.mem.readNat s.free w.cred l 8 = 0)
  | _ => false

/-- Serves one full/empty operation at its home: the value it reads, and memory after (R104). `cells` are the bytes that `stp` stores. -/
def Mem.feServe (m : Mem) (free : Nat) (op : FeOp) (c : Cred) (loc : Nat) (cells : List Host.Cell) : Word × Mem :=
  match op with
  | .ldc => (BitVec.ofNat 64 (m.readNat free c loc 8), (m.take free c loc).setFull false loc)
  | .ldf => (BitVec.ofNat 64 (m.readNat free c loc 8), m)
  | .stp => (0, m.write free c cells)

/-- The bytes that a word's store writes. -/
def State.wordCells (s : State) (loc : Nat) (data : Word) : List Host.Cell := (cellsAt loc (leBytes 8 data.toNat)).filterMap s.fieldCell

/-- A write reaches a line of its home: the scratchpad's core wakes, or what the line held is kept. -/
def State.reachLine (s : State) (line : Nat) : State := (s.wakeSpad (line * 64)).soil line

/-- The part of memory that a claim at a location can change: its scratchpad block or its line (R269). -/
def claimUnit (loc : Nat) : Nat × Nat := if isSpad loc then (loc / 4096 * 4096, 4096) else (loc / 64 * 64, 64)

/-- The waiter waits at a word in the block or line of one of some locations. -/
def Waiter.near (locs : List Nat) (w : Waiter) : Bool :=
  match w.word with
  | none => false
  | some l => locs.any (fun (a : Nat) => decide ((claimUnit a).1 ≤ l) && decide (l < (claimUnit a).1 + (claimUnit a).2))

/-- A waiter is served at its home (R104, R240). -/
def State.serve (s : State) (w : Waiter) : State :=
  match w.wait with
  | .word op _ l =>
    let s := if op = .ldf then s else s.soil (l / 64)
    let r := s.mem.feServe s.free op w.cred l (s.wordCells l w.data)
    ({ s with mem := r.2 }).modStrand w.who (fun t => { t with served := some r.1 })
  | _ => s.modStrand w.who (fun t => { t with served := some 0 })

/-- A round at words (R105): the earliest waiter whose condition holds is served, and the search repeats. -/
def State.feRound (fuel : Nat) (locs : List Nat) (s : State) : State :=
  match fuel with
  | 0 => s
  | n + 1 =>
    match takeFirst (fun (w : Waiter) => w.near locs && s.feReady w) s.waiters with
    | none => s
    | some (w, rest) => State.feRound n locs (({ s with waiters := rest }).serve w)

/-- The visible word of a frame pair, by the pair's first byte and page size, in place of a word of it (R170). -/
def Mem.visibleWord (m : Mem) (pair : Nat × Nat) (loc : Nat) : Nat :=
  (if m.selects.contains (pair.1 + pair.2) then pair.1 + pair.2 else pair.1) + (loc - pair.1) % pair.2

/-- A wait at another word. -/
def Wait.moveTo (loc : Nat) (w : Wait) : Wait :=
  match w with
  | .word op d _ => .word op d loc
  | .counter _ c => .counter loc c
  | w => w

/-- A waiter on a shadowed page stands at the visible frame's word (R170). -/
def Waiter.follow (m : Mem) (w : Waiter) : Waiter :=
  match w.pair, w.word with
  | some p, some l => { w with wait := w.wait.moveTo (m.visibleWord p l) }
  | _, _ => w

/-- The waiters on shadowed pages. -/
def State.paired (s : State) : List Waiter := s.waiters.filter (fun w => w.pair.isSome)

/-- Every waiter on a shadowed page, and its strand's wait, stands at the visible frame's word (R170). -/
def State.follow (s : State) : State :=
  let s := { s with waiters := s.waiters.map (Waiter.follow s.mem) }
  s.paired.foldl (fun s w => s.modStrand w.who (fun t => { t with wait := some w.wait })) s

/-- Rounds at the words whose value or full/empty bit a write at some locations may have changed, those of a line or block that it
claimed and those of frame pairs among them (R98, R105, R170, R269): a round serves nobody where no waiter's condition holds. -/
def State.roundsAt (s : State) (locs : List Nat) : State :=
  let s := s.follow
  s.feRound s.waiters.length (locs ++ s.paired.filterMap Waiter.word)

/-- A write of bytes enters T at its home (R98, R105, R153): memory takes it, and each word whose full/empty bit it changes
starts a round. -/
def State.deviceStore (s : State) (c : Cred) (cells : List Host.Cell) : State :=
  let s := (linesOf cells).foldl State.reachLine s
  ({ s with mem := s.mem.write s.free c cells }).roundsAt (cells.map (fun (c : Host.Cell) => c.1))

/-- A write by software: the fields of a control block that it may not write keep their values (R5). -/
def State.store (s : State) (c : Cred) (cells : List Host.Cell) : State := s.deviceStore c (cells.filterMap s.fieldCell)

/-- A write of the device itself, in T at once, at priority 2 of its lines' slices (R328). -/
def State.deviceBy (s : State) (c : Cred) (cells : List Host.Cell) : State := (s.siltUses c true (linesOf cells)).deviceStore c cells

/-- A write of the host or of a copy, in T at once, at priority 2 of its lines' slices (R328). -/
def State.storeBy (s : State) (c : Cred) (cells : List Host.Cell) : State := (s.siltUses c true (linesOf cells)).store c cells

/-- A write of a party that is no strand is held: a line of it misses, and its stack is quiesced (R327). -/
def State.writeHeld (s : State) (c : Cred) (cells : List Host.Cell) : Bool := s.anyHeld c true (linesOf cells)

/-! ## The store buffer (R154, R155) -/

/-- The bytes of a buffered store by location; those of a store to a shadowed page lie in the frame now visible (R170). -/
def BufStore.placed (m : Mem) (b : BufStore) : List Host.Cell :=
  match b.pair with
  | none => b.cells
  | some p => b.cells.map (fun (c : Host.Cell) => (m.visibleWord p c.1, c.2))

/-- A buffered store enters T, with what a last-use hint of it does to its line (R100, R154). -/
def State.enterT (s : State) (b : BufStore) : State :=
  let cells := b.placed s.mem
  let s := s.store b.cred cells
  match b.last with
  | none => s
  | some drop => (linesOf cells).foldl (fun s line => s.lastUse line drop) s

/-- The first `n` stores of a core's buffer enter T, in the order in which they retired. -/
def State.drainFirst (n : Nat) (s : State) (core : Nat) : State :=
  match n with
  | 0 => s
  | k + 1 =>
    match (s.core core).buffer with
    | [] => s
    | b :: rest => State.drainFirst k ((s.modCore core (fun q => { q with buffer := rest })).enterT b) core

/-- Two buffered stores write a byte in common. -/
def BufStore.overlaps (m : Mem) (a b : BufStore) : Bool := (a.placed m).any (fun e => (b.placed m).any (fun f => f.1 == e.1))

/-- Some strand of the core has read from both of two stores that overlap: the one retired earlier may not enter T after the other
(R155). -/
def State.readBoth (s : State) (core : Nat) (a b : BufStore) : Bool :=
  a.overlaps s.mem b && (List.range 6).any (fun n =>
    let seen := (s.strand { core := core, num := n }).seen
    seen.contains a.id && seen.contains b.id)

/-- The oldest buffered store of a strand enters T; with it, and before it, every store that retired before it, where a strand has read
from one of them and from it (R155). -/
def State.drainOne (s : State) (core num : Nat) : State :=
  let all := (s.core core).buffer
  match takeFirst (fun b : BufStore => b.num == num) all with
  | none => s
  | some (b, rest) =>
    let before := all.takeWhile (fun a => a.id != b.id)
    if before.any (fun a => s.readBoth core a b) then s.drainFirst (before.length + 1) core
    else (s.modCore core (fun k => { k with buffer := rest })).enterT b

/-- Every buffered store of a strand enters T, in the strand's program order. -/
def State.drainN (n : Nat) (s : State) (core num : Nat) : State :=
  match n with
  | 0 => s
  | k + 1 => State.drainN k (s.drainOne core num) core num

/-- Every older store of a strand has entered T (R102). -/
def State.drain (s : State) (sid : StrandId) : State :=
  s.drainN (s.core sid.core).buffer.length sid.core sid.num

/-- Every store of a core has entered T (R228). -/
def State.drainCore (s : State) (core : Nat) : State := s.drainFirst (s.core core).buffer.length core

/-! ## Waits at homes (R107, R254, R322) -/

/-- Withdraws a strand's wait at its home. -/
def State.withdraw (s : State) (sid : StrandId) : State :=
  { s with waiters := s.waiters.filter (fun w => w.who != sid),
           clusters := s.clusters.map (fun kc =>
             (kc.1, { kc.2 with gangs := kc.2.gangs.map (fun g => (g.1, g.2.filter (fun w => w != sid))) })) }

/-- Removes a requester, by name, from every fault-queue entry (R27, R291). -/
def State.unrequest (s : State) (name : Nat) : State :=
  { s with contexts := s.contexts.map (fun kc =>
      (kc.1, { kc.2 with posted := kc.2.posted.map (fun p => { p with who := removeNat p.who name }) })) }

/-! ## Tile contexts and engines (R174, R176) -/

/-- The instruction is `tgemm.g` (R198). -/
def TileOp.ganged (o : TileOp) : Bool :=
  match o with
  | .tgemm g .. => g
  | _ => false

/-- The instruction is a multiply of many k-blocks (R189). -/
def TileOp.macro (o : TileOp) : Bool :=
  match o with
  | .tgemm .. => true
  | _ => false

/-- Takes a strand out of its engine's queue and turn. -/
def State.unqueue (s : State) (sid : StrandId) : State :=
  match (s.strand sid).tile with
  | none => s
  | some t =>
    s.modEngine t.engine (fun e =>
      { e with queue := e.queue.filter (fun q => q.who != sid),
               running := if e.running.any (fun q => q.who == sid) then none else e.running })

/-- The turn of an engine ends with its instruction unfinished: the entry waits again, at its start priority (R194, R199). -/
def State.requeue (s : State) (engine : Nat) : State :=
  match (s.engine engine).running with
  | none => s
  | some q =>
    s.modEngine engine (fun e =>
      { e with running := none, queue := e.queue ++ [{ q with prio := q.base, since := s.clk.cycles, ran := false }] })

/-- The engine of a strand stands idle again if the strand's turn runs there. -/
def State.releaseTurn (s : State) (sid : StrandId) : State :=
  match (s.strand sid).tile with
  | none => s
  | some t => if (s.engine t.engine).running.any (fun q => q.who == sid) then s.requeue t.engine else s

/-- A strand's tile instruction is no longer at its engine. -/
def State.dropOp (s : State) (sid : StrandId) : State :=
  (s.unqueue sid).modStrand sid (fun q => if q.tile.any (fun c => c.op.isSome) then { q with tile := q.tile.map (fun c => { c with op := none }), got := [] } else q)

/-- Takes a strand's instruction off its engine (R191, R192); the partners of a `tgemm.g` wait with their engines released
(R199). -/
def State.leaveEngine (s : State) (sid : StrandId) : State :=
  match (s.strand sid).tile with
  | none => s
  | some t =>
    let partners := if t.op.any TileOp.ganged then t.gang.getD [] else []
    partners.foldl State.releaseTurn (s.dropOp sid)

/-- The name under which the partners of a gang know a strand while it is saved: `core` is the model's name of the strand above this
number. -/
def absentBase : Nat := 2 ^ 40

/-- The name under which the partners of a gang know a strand while it is saved. -/
def absentee (uid : Nat) : StrandId := { core := absentBase + uid, num := 0 }

/-- The gang of a tile context is broken (R199). -/
def Strand.brokenGang (q : Strand) : Strand := { q with tile := q.tile.map (fun c => { c with broken := true }) }

/-- The gang of a tile context names a strand. -/
def Strand.gangNames (q : Strand) (who : StrandId) : Bool := q.tile.any (fun c => (c.gang.getD []).contains who)

/-- A partner of a strand finds its gang broken (R199), unless it has left that gang since: a `tgemm.g` that it waits in leaves the engine
and executes again, to trap. -/
def State.foundBroken (who : StrandId) (s : State) (p : StrandId) : State :=
  if absentBase ≤ p.core then s.modUid (p.core - absentBase) (fun q => if q.gangNames who then q.brokenGang else q)
  else if !(s.strand p).gangNames who then s
  else
    let s := if (s.strand p).tile.any (fun c => c.op.any TileOp.ganged) then s.dropOp p else s
    s.modStrand p Strand.brokenGang

/-- BreakGang() (R176, R199): each partner finds the gang broken. -/
def State.breakGang (s : State) (sid : StrandId) : State :=
  match (s.strand sid).tile with
  | some t => (t.gang.getD []).foldl (State.foundBroken sid) s
  | none => s

/-- Discards a strand's tile context and frees its slot (R174). -/
def State.discardTile (s : State) (sid : StrandId) : State :=
  match (s.strand sid).tile with
  | none => s
  | some t =>
    let s := (s.breakGang sid).leaveEngine sid
    (s.modEngine t.engine (fun e => { e with bound := removeNat e.bound (s.strand sid).uid })).modStrand sid
      (fun q => { q with tile := none })

/-! ## Pausing (R25, R26, R264) -/

/-- The address of the first `himm` or `hmod` of the run in front of the word at PC, or of the word itself (R51). -/
def Strand.start (t : Strand) : Word :=
  t.pc - BitVec.ofNat 64 (4 * (t.himm.length + if t.hmod.isSome then 1 else 0))

/-- The strand stops in front of the word at PC: the run in front of it will execute again, an `hsched` hint is lost, and accesses that
the word has made are not kept (R51). -/
def Strand.rewind (t : Strand) : Strand := { t with pc := t.start, sched := false, himm := [], hmod := none, got := [], ahead := 0 }

/-- A strand is paused at a point where it may stop (R25, R51): an engine instruction of one turn is squashed, and a `tgemm` runs on (R191,
R192). -/
def State.pauseStrand (s : State) (sid : StrandId) : State :=
  let s := if (s.strand sid).tile.any (fun c => c.op.any (fun o => !o.macro)) then s.leaveEngine sid else s
  s.modStrand sid (fun t => { t.rewind with paused := t.st != .halted && t.st != .evicted })

/-- Pauses the general strands of a core, or resumes them (R25). -/
def State.pauseGeneral (s : State) (core : Nat) (on : Bool) : State :=
  (List.range 4).foldl (fun s n =>
    if on then s.pauseStrand { core := core, num := n }
    else s.modStrand { core := core, num := n } (fun t =>
      { t with paused := false, lastFetch := if t.paused then s.clk.cycles else t.lastFetch })) s

/-- The standby strand's work ends: it returns to Parked and the paused strands resume (R26). Words fetched from here on are not stale
(R160). -/
def State.endStandby (s : State) (core : Nat) : State :=
  ((((s.withdraw { core := core, num := 5 }).leaveEngine { core := core, num := 5 }).modCore core (fun k =>
    { k with serving := none })).modStrand { core := core, num := 5 }
    (fun t => { t with st := .parked, gangWait := none, chained := false, sched := false, himm := [], hmod := none, ssw := putBits t.ssw 3 1 0,
                       wait := none, served := none, held := none, fetched := [], got := [], lastFetch := s.clk.cycles })).pauseGeneral core false

/-! ## Halting (R25, R258, R263) -/

/-- A strand's messages leave the queues of its cluster's standby strands. -/
def State.unqueueChain (s : State) (sid : StrandId) : State :=
  (clusterCores sid.core).foldl (fun s c =>
    if (s.core c).chainQ.any (fun m => m.who == sid) then
      s.modCore c (fun k => { k with chainQ := k.chainQ.filter (fun m => m.who != sid) })
    else s) s

/-- A strand goes to Halted: waits and arrivals are withdrawn, the tile context is discarded, pending interrupts are cleared and
register contents are lost (R25, R107, R174, R261). -/
def State.haltStrand (s : State) (sid : StrandId) : State :=
  let s := (((s.withdraw sid).unrequest (s.strand sid).uid).discardTile sid).unqueueChain sid
  { (s.setStrand sid { Strand.fresh .halted s.fresh with lastFetch := s.clk.cycles }) with fresh := s.fresh + 1 }

/-- A landing handler ends without setting its tag (R263 abandon); a tile instruction of it leaves its engine. -/
def State.endHandler (s : State) (core : Nat) : State :=
  ((s.withdraw { core := core, num := 4 }).leaveEngine { core := core, num := 4 }).modStrand { core := core, num := 4 }
    (fun t => { t with st := .idle, gangWait := none, chained := false, handler := none, sched := false, himm := [], hmod := none,
                       ssw := putBits t.ssw 3 1 0, held := none, got := [], lastFetch := s.clk.cycles })

/-- A packet that no handler takes: its copy ends in error (R209, R236). -/
def State.discardPacket (s : State) (copy : Nat) (cause : Cause) : State :=
  match s.copies.get? copy with
  | none => s
  | some c => { s with copies := s.copies.set copy { c with error := some cause } }

/-- Packets queued at a core are discarded (R236). -/
def State.discardQueued (s : State) (core : Nat) : State :=
  let k := s.core core
  let s := (k.landReq ++ k.landReply).foldl (fun s c => s.discardPacket c 0xA2) s
  s.modCore core (fun k => { k with landReq := [], landReply := [] })

/-- The group has no issued operation left (R236). -/
def State.groupQuiet (s : State) (n : Nat) : Bool := !s.copies.any (fun c => c.2.group == some n)

/-- A releasing group whose last issued operation has completed becomes Free (R227). -/
def State.groupFree (s : State) (n : Nat) : State :=
  match s.groups.get? n with
  | none => s
  | some g =>
    if g.st = .releasing && s.groupQuiet n then
      { s with groups := s.groups.erase n,
               cores := s.cores.map (fun kc => (kc.1, if kc.2.group = some n then { kc.2 with group := none } else kc.2)) }
    else s

/-- The release of a group (R236). -/
def State.releaseGroup (s : State) (n : Nat) : State :=
  match s.groups.get? n with
  | none => s
  | some g =>
    let cores := s.listedCores.filter (fun c => (s.core c).group = some n)
    let s := cores.foldl (fun s c => (List.range 4).foldl (fun s i => s.haltStrand { core := c, num := i }) s) s
    let s := cores.foldl (fun s c => ((s.endHandler c).discardQueued c).modCore c (fun k => { k with deque := [] })) s
    ({ s with groups := s.groups.set n { g with st := .releasing, floods := [] } }).groupFree n

/-- A queue halts (R300): STATE, CAUSE and HALTAT of its control block are written under the shared key, the host is told, and
an event is logged with the owner tag of its context (R351). -/
def State.haltQueue (s : State) (q : Nat) (cause : Cause) : State :=
  match s.queues.get? q with
  | none => s
  | some k =>
    let c : Cred := match s.contexts.get? k.asid with | some x => x.cred | none => Cred.shared
    let tag := match s.contexts.get? k.asid with | some x => x.tagWord | none => 0
    let ridx := s.mem.readNat s.free c (k.block + 4) 4
    let s := { s with queues := s.queues.set q { k with st := .halted } }
    let s := s.deviceBy Cred.shared (cellsAt (k.block + 16) [2, cause])
    let s := s.deviceBy Cred.shared (cellsAt (k.block + 20) (leBytes 4 ridx))
    (s.tellHost 0).logEvent 0x0001 0x370 cause tag 0 q

/-- A kernel slot becomes Absent: its frame marks are cleared (R312). -/
def State.dropKernel (s : State) (slot : Nat) : State :=
  { s with kernels := s.kernels.erase slot,
           mem := { s.mem with marks := s.mem.marks.filter (fun e => e.2.slot != slot) } }

/-- A standby strand's message or work for the context ends, and queued messages of its strands are discarded (R258). -/
def State.quitContext (s : State) (asid core : Nat) : State :=
  let s := s.modCore core (fun k => { k with chainQ := k.chainQ.filter (fun m => s.asidOf m.who.core != some asid) })
  match (s.core core).serving with
  | some (.chain m) => if s.asidOf m.who.core = some asid then s.endStandby core else s
  | some .urgent => if s.asidOf core = some asid then s.endStandby core else s
  | none => s

/-- A strand that is saved is lost (R174): its engine slot is freed, and the partners of its gang find the gang broken. -/
def State.loseTile (s : State) (q : Strand) : State :=
  match q.tile with
  | none => s
  | some c =>
    ((c.gang.getD []).foldl (State.foundBroken (absentee q.uid)) s).modEngine c.engine (fun e => { e with bound := removeNat e.bound q.uid })

/-- The strands of an image whose cores belong to some groups. -/
def Image.lost (groups : List Nat) (im : Image) : List Strand :=
  (im.strands.filter (fun e => (im.cores.get? (e.1 / 8)).any (fun x => x.group.any (fun n => groups.contains n)))).map (·.2)

/-- The strand as it is once the strands of some cores are lost (R199). -/
def Strand.without (gone : Nat → Bool) (t : Strand) : Strand :=
  if t.tile.any (fun c => (c.gang.getD []).any (fun p => gone p.core)) then t.brokenGang else t

/-- An image without the strands and cores of some groups. -/
def Image.without (groups : List Nat) (im : Image) : Image :=
  let gone : Nat → Bool := fun k => (im.cores.get? k).any (fun x => x.group.any (fun n => groups.contains n))
  { im with strands := (im.strands.filter (fun e => !gone (e.1 / 8))).map (fun e => (e.1, Strand.without gone e.2)), waits := im.waits.filter (fun w => !gone w.who.core), cores := im.cores.filter (fun e => !gone e.1) }

/-- A context goes Halted (R258): its standby work, strands, handlers, groups, saved strands, queues and kernels end, and debug mode 2 that
names it falls to 1 (R348). -/
def State.haltContext (s : State) (asid : Nat) : State :=
  match s.contexts.get? asid with
  | none => s
  | some c =>
    let s := s.listedCores.foldl (fun s k => s.quitContext asid k) s
    let mine := (Sparse.keys s.groups).filter (fun n => (s.groups.get? n).any (fun g => g.asid == asid))
    let s := mine.foldl (fun s n => s.releaseGroup n) s
    let s := (s.images.flatMap (Image.lost mine)).foldl State.loseTile s
    let s := { s with images := s.images.map (Image.without mine) }
    let s := (s.saved.filter (fun x => x.asid == asid)).foldl (fun s x => s.loseTile x.strand) s
    let s := { s with saved := s.saved.filter (fun x => x.asid != asid),
                      contexts := s.contexts.set asid { c with st := .halted, posted := [] } }
    let qs := (s.queues.filter (fun q => q.2.asid == asid && q.2.st == .enabled)).map (·.1)
    let s := qs.foldl (fun s q => s.haltQueue q 0xA2) s
    let s := s.modHub (fun h => if h.mode = 2 ∧ h.debugCtx = asid then { h with mode := 1 } else h)
    let ks := (s.kernels.filter (fun k => k.2.asid == asid)).map (·.1)
    ks.foldl (fun s k => s.dropKernel k) s

/-! ## The handler chain (R262, R263) -/

/-- The chain entries that may serve a strand's message, at every hop of it: those whose standby strand is not the strand itself (R263;
DESIGN CHOICE, assumption 119). -/
def State.chainFor (s : State) (who : StrandId) : List (Nat × Word) :=
  (s.cluster (clusterOf who.core)).chain.filter
    (fun e => !(decide (who.num = 5) && decide (e.1 = who.core % 4)))

/-- The owner tag of the context in whose name a strand accesses memory, or 0 (R351). -/
def State.tagOf (s : State) (sid : StrandId) : Nat :=
  match (s.asid sid).bind (fun a => s.contexts.get? a) with
  | some c => c.tagWord
  | none => 0

/-- The chain is exhausted (R263): the cluster's strands and their contexts stop, and the black box, with the tag of the strand whose
message exhausts it, and the host are told. A context whose general strands in the cluster are all Halted is none of them (DESIGN CHOICE,
assumption 118). -/
def State.chainExhausted (s : State) (who : StrandId) : State :=
  let tag := s.tagOf who
  let cores := clusterCores who.core
  let owners := dedup (cores.filterMap (fun c =>
    if (List.range 4).any (fun n => (s.strand { core := c, num := n }).st != .halted) then s.asidOf c else none))
  let s := cores.foldl (fun s c => (List.range 4).foldl (fun s i => s.haltStrand { core := c, num := i }) s) s
  let s := cores.foldl (fun s c => (s.endHandler c).modCore c (fun k => { k with chainQ := [] })) s
  let s := cores.foldl (fun s c => s.endStandby c) s
  let s := owners.foldl (fun s a => s.haltContext a) s
  (s.logEvent 0x0005 (who.core % 1024) 0xF3 tag 0 0).tellHost 1

/-- A message passes to the chain entry at its hop count, or exhausts the chain (R263). -/
def State.sendChain (s : State) (m : ChainMsg) : State :=
  match (s.chainFor m.who)[m.hops]? with
  | none => s.chainExhausted m.who
  | some (place, _) =>
    s.modCore (m.who.core / 4 * 4 + place) (fun k => { k with chainQ := k.chainQ ++ [m] })

/-! ## Traps and interrupts (R260, R291) -/

/-- What a synchronous trap reports (R37, R260): the cause, the values it defines, whether EPC is the next instruction (R271),
and for a translation fault what the fault queue needs (R291). -/
structure Trap where
  cause : Cause
  eva   : Word := 0
  eidx  : Word := 0
  efmt  : Word := 0
  etile : Word := 0
  after : Bool := false
  fault : Option PagerFault := none
  engine : Option Nat := none
  /-- The address whose translation failed after a fresh walk: the entry it used is dropped (R285). -/
  drop  : Option Nat := none
  /-- The strand's older stores have entered T before the trap (R153, R239, R285). -/
  drains : Bool := false
  /-- The caches as the reads of the walks left them that found the fault (R328). -/
  caches : Option Caches := none
  /-- No trap: the instruction waits at its place and has no effect yet (R327). -/
  stall : Bool := false
  /-- No trap: the instruction has made some of its accesses, and this is the state in which it is left (R143, R152). -/
  resume : Option State := none
  deriving DecidableEq, Repr

/-- The instruction waits. -/
def Trap.wait : Trap := { cause := 0, stall := true }

/-- The outcome of a meaning's work: the next state, or the trap it raises. -/
abbrev Run : Type := Except Trap State

/-- A trap with a cause alone. -/
def trapOf (cause : Cause) : Trap := { cause := cause }

/-- A trap that defines EVA. -/
def trapAt (cause : Cause) (eva : Nat) : Trap := { cause := cause, eva := BitVec.ofNat 64 eva }

/-- Entry of the supervisor handler (R260): the saved registers are written, the level becomes supervisor, interrupts are
disabled, the pending prefix moves to EPS, and fetch goes to HENTRY. -/
def Strand.enter (t : Strand) (epc : Word) (e : Trap) (hentry : Word) : Strand :=
  { t with eps := t.ssw, epc := epc, cause := BitVec.ofNat 64 e.cause.toNat, eva := e.eva, eidx := e.eidx, efmt := e.efmt,
           etile := e.etile, ssw := putBits (putBits (putBits t.ssw 0 2 1) 2 1 0) 3 1 0, pc := hentry, st := .trapped,
           sched := false, himm := [], hmod := none, got := [], wait := none, served := none, held := none, ahead := 0 }

/-- The cause is a machine check (R276). -/
def isMachineCheck (c : Cause) : Bool := decide (0xF0 ≤ c.toNat)

/-- A machine check is logged and told to the host (R338, R351). -/
def State.noteCheck (s : State) (sid : StrandId) (c : Cause) (eva : Word) : State :=
  if isMachineCheck c then (s.logEvent 0x0005 (sid.core % 1024) c (s.tagOf sid) eva 0).tellHost 1 else s

/-- A trap goes to the handler chain (R263): the faulting strand waits with its registers as they are, a general or landing strand
Trapped (R26, R263). The fault of a standby strand that serves a message abandons that message's handler, and the message passes on. -/
def State.toChain (s : State) (sid : StrandId) (e : Trap) : State :=
  let t := s.strand sid
  match (if sid.num = 5 then (s.core sid.core).serving else none) with
  | some (.chain m) => (s.endStandby sid.core).sendChain { m with hops := m.hops + 1, cause := e.cause }
  | _ =>
    let s := s.setStrand sid { t.rewind with chained := true, st := if sid.num = 5 then t.st else .trapped }
    s.sendChain { who := sid, cause := e.cause, hops := 0, epc := t.start, eva := e.eva }

/-- A synchronous trap of a strand (R260, R291). -/
def State.raise (s : State) (sid : StrandId) (e : Trap) : State :=
  let t := s.strand sid
  if !isMachineCheck e.cause && isGeneral sid && s.level sid == .user then
    match s.contextOf sid.core with
    | none => s.toChain sid e
    | some c =>
      match (if c.pageable then e.fault else none) with
      | some f => s.setStrand sid { t.rewind with st := .parked, wait := some (.pager f e.engine), lastFetch := s.clk.cycles }
      | none =>
        let epc := if e.after then t.pc + 4 else t.start
        (s.leaveEngine sid).modStrand sid (fun t => t.enter epc e c.hentry)
  else (s.noteCheck sid e.cause e.eva).toChain sid e

/-- Clears the pending bit of a cause. -/
def Strand.clearIrq (t : Strand) (c : Cause) : Strand :=
  if c = 0xE1 then { t with irqTimer := false }
  else if c = 0xE2 then { t with irqPost := false }
  else { t with irqHost := false }

/-- The pending bit of a cause is set, in a cycle: a second arrival merges with the first (R27, R261). -/
def Strand.setIrq (t : Strand) (c : Cause) (cycle : Nat) : Strand :=
  if c = 0xE1 then (if t.irqTimer then t else { t with irqTimer := true, irqAt := cycle })
  else if c = 0xE2 then (if t.irqPost then t else { t with irqPost := true, irqAt := cycle })
  else (if t.irqHost then t else { t with irqHost := true, irqAt := cycle })

/-- An interrupt aimed at a general strand (R261): kept pending, or discarded with an event where the strand is Halted, Evicted
or outside a live context, or is a landing or standby strand. -/
def State.postIrq (s : State) (tid : Nat) (c : Cause) : State :=
  let sid := ofTid tid
  let t := s.strand sid
  if s.tidExists tid && isGeneral sid && t.st != .halted && t.st != .evicted && (s.contextOf sid.core).any (fun c => c.st != .halted)
  then s.modStrand sid (fun t => t.setIrq c s.clk.cycles)
  else s.logEvent 0x0003 (sid.core % 1024) c (s.tagOf sid) 0 0

/-- The core's context is Swapped: none of its strands runs (R258). -/
def State.contextSwapped (s : State) (core : Nat) : Bool := (s.contextOf core).any (fun c => c.st == .swapped)

/-- The standby strand of a core waits for work, its core is awake, and no general strand of it has made only part of a word's accesses. -/
def State.standbyFree (s : State) (core : Nat) : Bool :=
  let t := s.strand { core := core, num := 5 }
  (s.core core).serving.isNone && t.st == .parked && t.wait.isNone && decide ((s.core core).retained = 0) &&
    (List.range 4).all (fun n => (s.strand { core := core, num := n }).got.isEmpty)

/-- The standby strand of a core is about to start work, and to pause the core's general strands (R26). -/
def State.pausePending (s : State) (core : Nat) : Bool :=
  s.standbyFree core &&
    (!(s.core core).chainQ.isEmpty || (s.core core).urgentQ.any (fun r => (s.urgentTable.get? r.code).isSome))

/-- The strand may take an interrupt (R261, R51): a general strand, Running or Parked at user level with IE = 1, not directly
behind a `himm` or `hmod`, and between two words. A swap or a pause of the strand goes first (R27), and the strands of a Swapped context
stand still (R258). -/
def State.mayTake (s : State) (sid : StrandId) : Bool :=
  let t := s.strand sid
  isGeneral sid && !t.paused && !t.chained && t.got.isEmpty && (t.st == .running || t.st == .parked) && t.priv == 0 && t.ie && t.pending.isSome
    && t.himm.isEmpty && t.hmod.isNone && !s.swapStops sid.core && !s.pausePending sid.core && !s.contextSwapped sid.core

/-- The wait of a parked strand lets an interrupt be taken now (R27, R254): a wait that has been served retires first, but for
`bar.wait`; and a barrier wait holds interrupts until it is served. -/
def Strand.interruptible (t : Strand) : Bool :=
  match t.wait with
  | some (.barrier arrived _ _ _) => !arrived && t.served.isSome
  | _ => t.served.isNone

/-- The strand takes an interrupt before its wait ends (R27, R254). -/
def State.interruptFirst (s : State) (sid : StrandId) : Bool := s.mayTake sid && (s.strand sid).interruptible

/-- A swap or a pause is about to stop the strand, or its context is Swapped (R27, R258). -/
def State.stopPending (s : State) (sid : StrandId) : Bool :=
  (isGeneral sid && (s.pausePending sid.core || s.swapStops sid.core)) || (sid.num != 5 && s.contextSwapped sid.core)

/-- No further fence waits for the fence: the strand has left it (R167). -/
def Fence.unblock (f : Fence) : Fence := { f with blocks := false }

/-- An interrupt is taken (R27, R260, R261): the wait is withdrawn, WOKE is set, and the supervisor handler is entered with EPC
naming the first unretired instruction. -/
def State.interrupt (s : State) (sid : StrandId) (c : Cause) (hentry : Word) : State :=
  let s := ((s.withdraw sid).unrequest (s.strand sid).uid).leaveEngine sid
  s.modStrand sid (fun t => { (t.clearIrq c).enter t.start (trapOf c) hentry with woke := true, gangWait := none,
                                                                                  fences := t.fences.map Fence.unblock })

/-! ## Return from a trap (R272) -/

/-- SSW after `eret` on a general strand: EPS, but user level. -/
def eretSsw (eps : Word) : Word := putBits eps 0 2 0

/-- `eret` at supervisor level on a general strand: the saved status and address come back, and the strand is Running. Words
fetched from here on are not stale (R160). -/
def Strand.eret (t : Strand) : Strand :=
  { t with ssw := eretSsw t.eps, pc := t.epc, st := .running, sched := false, himm := [], hmod := none, fetched := [],
           got := [], ahead := 0 }

/-- The chain gives a strand back to execute again (R263): a general strand that trapped at user level is Running, and so is a landing
strand (R26). -/
def Strand.unchain (num : Nat) (t : Strand) : Strand :=
  { t with chained := false,
           st := if t.st == .trapped && (num == 4 || (decide (num < 4) && t.priv == 0)) then .running else t.st }

/-- The resolution of a chain message (R263), applied to the faulting strand while it waits for one. A strand without a context, for which
resolutions 2 and 3 name none to halt, executes again (DESIGN CHOICE, assumption 117). -/
def State.resolve (s : State) (m : ChainMsg) (r : Nat) : State :=
  if !(s.strand m.who).chained then s
  else if r = 0 then s.modStrand m.who (Strand.unchain m.who.num)
  else if r = 1 then
    if isGeneral m.who then s.haltStrand m.who
    else if m.who.num = 4 then s.endHandler m.who.core
    else s.endStandby m.who.core
  else
    match s.asid m.who with
    | some a => s.haltContext a
    | none => s.modStrand m.who (Strand.unchain m.who.num)

/-! ## Retirement -/

/-- The word at PC has retired: its chain is spent, a pending prefix is consumed (R50, R56), and none of its accesses is left over. -/
def Strand.spend (t : Strand) : Strand :=
  { t with sched := false, himm := [], hmod := none, fmtp := if t.pp then 0 else t.fmtp, ssw := putBits t.ssw 3 1 0, got := [] }

/-- Fetch goes on at `target`: a word less is fetched and not retired, and none where the words fetched are not the ones that follow
(R28). -/
def Strand.goTo (t : Strand) (target : Word) : Strand := { t with pc := target, ahead := if target = t.pc + 4 then t.ahead - 1 else 0 }

/-- The word at PC retires, and fetch goes on at `target`. -/
def State.retireTo (s : State) (target : Word) : State := s.modMe (fun t => t.spend.goTo target)

/-- The word at PC retires, and fetch goes on at the next word. -/
def State.retire (s : State) : State := s.retireTo (s.me.pc + 4)

/-- Drops the TLB entries of a core and its cluster that map an address (R285). -/
def State.dropTlb (s : State) (core va : Nat) : State :=
  let keep : TlbEntry → Bool := fun e => !(decide (e.base ≤ va) && decide (va < e.base + e.size))
  (s.modCore core (fun k => { k with tlb := k.tlb.filter keep })).modCluster (clusterOf core)
    (fun k => { k with tlb := k.tlb.filter keep })

/-- What the walks that found a fault leave behind: they have touched their slices, and the entry that the failed translation used is dropped
(R285, R328). -/
def State.afterFault (s : State) (core : Nat) (e : Trap) : State :=
  let s := match e.caches with | some c => { s with caches := c } | none => s
  match e.drop with
  | some va => s.dropTlb core va
  | none => s

/-- The state in which a trap is raised: the strand's older stores have entered T where the trap says so, and its walks have left what they
leave (R153, R285, R328). -/
def State.beforeTrap (s : State) (sid : StrandId) (e : Trap) : State :=
  (if e.drains then s.drain sid else s).afterFault sid.core e

/-- A step from the work of a meaning: a trap discards the work and is raised in the state before it (R112); an instruction that waits
leaves that state as it is, and one that has made some of its accesses leaves its own (R152). -/
def finish (s : State) (r : Run) : Host.Outcome State Fault Refusal :=
  match r with
  | .ok t => .next t
  | .error e =>
    match e.resume with
    | some t => .next t
    | none => if e.stall then .next s else .next ((s.beforeTrap s.cur e).raise s.cur e)

/-- An access of an instruction is made whose others may be made in later steps: what it read is kept, and with the first one the shared
registers as the instruction reads them (R31) and its number (R289). -/
def State.noteAccess (s : State) (bs : List Byte) : State :=
  s.modMe (fun t =>
    if t.got.isEmpty then { t with got := [bs], regs := (s.core s.cur.core).s, bornAt := s.fresh } else { t with got := t.got ++ [bs] })

/-- Makes an access whose value is bytes, under its own place in T (R143, R152): the bytes it read earlier where the instruction has made
it before; else the access itself, if the step still has one to make, and otherwise the instruction is left where it stands. -/
def State.access (s : State) (work : State → Except Trap (List Byte × State)) : Except Trap (List Byte × State) :=
  match s.replay, s.cut with
  | bs :: rest, _ => .ok (bs, { s with replay := rest })
  | [], none => work s
  | [], some 0 => .error { cause := 0, resume := some { s with cut := none } }
  | [], some (k + 1) =>
    match work s with
    | .error e => .error e
    | .ok r => .ok (r.1, ({ r.2 with cut := some k }).noteAccess r.1)

/-- The state with no access of the instruction made or limited, in which something is looked at ahead of its own access. -/
def State.ahead (s : State) : State := { s with cut := none, replay := [] }

/-! ## What may stand in front of a word (R50, R52, R54, R55) -/

/-- What a word accepts in front of it: how many `himm` words, each `hmod`, and a format prefix. -/
structure Accepts where
  himm  : Nat := 0
  nofwd : Bool := false
  l1na  : Bool := false
  fmt   : Bool := false
  deriving DecidableEq, Repr

/-- A pending prefix's format fields are invalid (R55): 0xA-0xE in any, or 0xF in AFMT or BFMT. -/
def fmtBad (p : Nat) : Bool :=
  let a := bitsAt p 20 4
  let b := bitsAt p 16 4
  let o := bitsAt p 12 4
  decide (10 ≤ a) || decide (10 ≤ b) || (decide (10 ≤ o) && decide (o ≠ 15))

/-- The chain and the prefix in front of a word are ones that it accepts, as far as cause 0x07 goes (R50, R52, R54, R56). -/
def Strand.chainOk (t : Strand) (a : Accepts) : Bool :=
  decide (t.himm.length ≤ a.himm) && (match t.hmod with | none => true | some true => a.nofwd | some false => a.l1na) &&
    (!t.pp || a.fmt)

/-- The checks of a word's chain, its level, and its prefix's fields, in the order of R61. -/
def State.checkWord (s : State) (a : Accepts) (privileged : Bool) : Except Trap Unit :=
  if !s.me.chainOk a then .error (trapOf 0x07)
  else if privileged && s.myLevel == .user then .error (trapOf 0x06)
  else if s.me.pp && fmtBad s.me.fmtp.toNat then .error (trapOf 0x09)
  else .ok ()

/-- An instruction word executes: what stands in front of it is checked, and then its own work is done. -/
def word (a : Accepts) (privileged : Bool) (work : State → Run) (s : State) : Host.Outcome State Fault Refusal :=
  finish s (match s.checkWord a privileged with | .error e => .error e | .ok _ => work s)

/-- Names nothing in front of it. -/
def plain : Accepts := {}

/-- The strand goes back to Running with its wait over (R25), and an eviction request that met it there is dropped (R27, R266). -/
def Strand.awake (t : Strand) : Strand := { t with st := .running, wait := none, served := none, evictReq := false }

/-- The executing strand parks on a wake condition (R25). -/
def State.park (s : State) (w : Wait) : State := s.modMe (fun t => { t with st := .parked, wait := some w, got := [], ahead := 1 })

/-- The landing strand may not park (R210). -/
def State.parkOr68 (s : State) (w : Wait) : Run := if s.cur.num = 4 then .error (trapOf 0x68) else .ok (s.park w)

end Sys2Proof.Machine
end

