-- ==== Sys2Proof/Machine/Translate.lean ====
section
/-! DEFINITION. Address windows (R12-R14), table entries, walks, TLBs and permission checks (R277-R286), shadowed frames (R282),
and the machine level's untranslated addresses (R393). -/

namespace Sys2Proof.Machine

/-! ## Windows (R12-R14) -/

/-- Where an access falls, before translation. -/
inductive Window where
  | outside
  | spad (core off : Nat)
  | regs (off : Nat)
  | bad (cause : Cause)
  deriving DecidableEq, Repr

/-- The access `[a, a + n)` against the windows (R14), for a strand of core `home`; `group` says whether a core's scratchpad
may be reached. -/
def windowOf (home a n : Nat) (exists_ group : Nat → Bool) : Window :=
  let e := a + n
  if meets a e Config.spadWindowBase Config.spadWindowEnd then
    if a < Config.spadWindowBase ∨ Config.spadWindowEnd < e then .bad 0x29
    else
      let g := (a - Config.spadWindowBase) / Config.spadBlock
      let off := (a - Config.spadWindowBase) % Config.spadBlock
      if Config.spadBytes < off + n ∨ 768 ≤ g % 1024 then .bad 0x29
      else if !exists_ g || !group g then .bad 0x28
      else .spad g off
  else if meets a e Config.selfWindowBase Config.selfWindowEnd then
    let off := a - Config.selfWindowBase
    if a < Config.selfWindowBase ∨ Config.selfWindowEnd < e then .bad 0x29
    else if off + n ≤ 0x80000 then .spad home off
    else if 0x80000 ≤ off ∧ off + n ≤ 0x100000 then .regs off
    else .bad 0x29
  else .outside

/-- A core is one of a socket that has been lost (R336). -/
def State.coreLost (s : State) (g : Nat) : Bool := s.hub.lost.contains (g / 1024)

/-- An address in the scratchpad window names a socket that has been lost (R336). -/
def State.targetLost (s : State) (a : Nat) : Bool := s.coreLost ((a - Config.spadWindowBase) / Config.spadBlock)

/-- The access of a strand against the windows (R14, R393); at machine level a core of a lost socket gives a machine check (R336). -/
def State.window (s : State) (sid : StrandId) (a n : Nat) : Window :=
  match windowOf sid.core a n s.coreExists (fun g => s.level sid == .machine || s.inGroup sid.core g) with
  | .bad 0x28 => .bad (if s.level sid == .machine && s.targetLost a then 0xF5 else 0x28)
  | w => w

/-! ## Table entries (R278, R279) -/

/-- V. -/
def pteV (e : Nat) : Bool := bitAt e 0
/-- R. -/
def pteR (e : Nat) : Bool := bitAt e 1
/-- W. -/
def pteW (e : Nat) : Bool := bitAt e 2
/-- X. -/
def pteX (e : Nat) : Bool := bitAt e 3
/-- U. -/
def pteU (e : Nat) : Bool := bitAt e 4
/-- G. -/
def pteG (e : Nat) : Bool := bitAt e 5
/-- LEAF. -/
def pteLeaf (e : Nat) : Bool := bitAt e 6
/-- SZ64. -/
def pteSz64 (e : Nat) : Bool := bitAt e 7
/-- CA. -/
def pteCa (e : Nat) : Nat := bitsAt e 8 2
/-- DISC. -/
def pteDisc (e : Nat) : Bool := bitAt e 10
/-- FRAME, as a byte address. -/
def pteFrame (e : Nat) : Nat := bitsAt e 12 40 * 4096
/-- SHADOW. -/
def pteShadow (e : Nat) : Bool := bitAt e 52
/-- SYNC. -/
def pteSync (e : Nat) : Bool := bitAt e 53
/-- SKEY. -/
def pteSkey (e : Nat) : Bool := bitAt e 54

/-- The physical address is assigned (R323). -/
def physAssigned (a : Nat) : Bool :=
  decide (a < Config.dramEnd) || (decide (Config.hubBase ≤ a) && decide (a < Config.hubEnd)) ||
    (decide (Config.hostBase ≤ a) && decide (a < Config.physEnd))

/-- The physical address may be mapped with this CA (R323). -/
def caPermitted (a ca : Nat) : Bool :=
  if a < Config.dramEnd then decide (ca ≤ 1)
  else if Config.hubBase ≤ a ∧ a < Config.hubEnd then decide (ca = 2)
  else decide (Config.hostBase ≤ a) && decide (a < Config.physEnd) && decide (ca ≤ 2)

/-- The bytes that one leaf maps at a level (R277, R280). -/
def pageSize (level : Nat) (sz64 : Bool) : Nat :=
  if level = 3 then 0x40000000 else if level = 2 then 0x200000 else if sz64 then 0x10000 else 0x1000

/-- FRAME of a leaf as used: rounded down to 64 KiB for a 64 KiB page (R280). -/
def leafFrame (size e : Nat) : Nat := if size = 0x10000 then alignDown (pteFrame e) size else pteFrame e

/-- A valid entry breaks a rule of R279 at a level. -/
def malformed (level e : Nat) : Bool :=
  if bitAt e 11 || decide (bitsAt e 55 9 ≠ 0) then true
  else if !pteLeaf e && decide (2 ≤ level) then
    decide (bitsAt e 1 10 ≠ 0) || decide (bitsAt e 52 3 ≠ 0) || !physAssigned (pteFrame e)
  else if !pteLeaf e || decide (level = 4) then true
  else
    let size := pageSize level (pteSz64 e)
    let frame := pteFrame e
    (pteSz64 e && decide (level ≠ 1)) || decide (pteCa e = 3) || (pteW e && !pteR e) ||
      (decide (2 ≤ level) && decide (frame % size ≠ 0)) ||
      (pteShadow e && decide (frame % (2 * size) ≠ 0)) ||
      (pteShadow e && decide (pteCa e = 2)) ||
      !caPermitted (leafFrame size e) (pteCa e) || (pteShadow e && !caPermitted (leafFrame size e + size) (pteCa e))

/-! ## Walks (R277, R280, R286) -/

/-- What a walk finds: a leaf with its region and the pointer entries on the way, or the level of the failing entry. -/
inductive WalkResult where
  | found (leaf : TlbEntry) (pointers : List WalkEntry)
  | failed (level : Nat)
  deriving DecidableEq, Repr

/-- One table entry as a walk reads it, at the home of its line; a poisoned line fails (R286, R331). -/
def readEntry (m : Mem) (free : Nat) (c : Cred) (a : Nat) : Option Nat :=
  if m.poison.contains (a / 64) && m.sight c a != .zero then none else some (m.readNat free c a 8)

/-- The index of an address at a level (R277). -/
def levelIndex (level va : Nat) : Nat := va / 2 ^ (12 + 9 * (level - 1)) % 512

/-- The bytes that one entry of a level covers (R277). -/
def levelRegion (level : Nat) : Nat := 2 ^ (12 + 9 * (level - 1))

/-- The leaf an entry gives (R284). -/
def leafOf (asid level va e : Nat) (sz64 : Bool) : TlbEntry :=
  let size := pageSize level sz64
  { asid := asid, glob := pteG e, base := alignDown va size, size := size, leaf := BitVec.ofNat 64 e }

/-- Walks the tables from a level down (R277, R279, R280), with no other access between its reads: a walk that is parted begins again below
the pointer entries that it has read (R286, assumption 125). -/
def walkFrom (m : Mem) (free : Nat) (c : Cred) (asid va : Nat) (level table : Nat) (ptrs : List WalkEntry) : WalkResult :=
  match level with
  | 0 => .failed 1
  | l + 1 =>
    match readEntry m free c (table + 8 * levelIndex (l + 1) va) with
    | none => .failed (l + 1)
    | some e =>
      if !pteV e || malformed (l + 1) e then .failed (l + 1)
      else if pteLeaf e then
        if l = 0 ∧ pteSz64 e then
          match readEntry m free c (table + 8 * (alignDown (levelIndex 1 va) 16)) with
          | none => .failed 1
          | some f =>
            if !pteV f || !pteSz64 f || malformed 1 f then .failed 1 else .found (leafOf asid 1 va f true) ptrs
        else .found (leafOf asid (l + 1) va e false) ptrs
      else
        walkFrom m free c asid va l (pteFrame e)
          (ptrs ++ [{ asid := asid, level := l + 1, base := alignDown va (levelRegion (l + 1)), table := pteFrame e }])

/-- The pointer entries that the first `n` reads of a walk give. -/
def walkPart (m : Mem) (free : Nat) (c : Cred) (asid va : Nat) (level table n : Nat) : List WalkEntry :=
  match level, n with
  | l + 1, k + 1 =>
    match readEntry m free c (table + 8 * levelIndex (l + 1) va) with
    | none => []
    | some e =>
      if !pteV e || malformed (l + 1) e || pteLeaf e then []
      else { asid := asid, level := l + 1, base := alignDown va (levelRegion (l + 1)), table := pteFrame e } ::
        walkPart m free c asid va l (pteFrame e) k
  | _, _ => []

/-- The lines of the table entries that a walk reads, in order. -/
def walkLines (m : Mem) (free : Nat) (c : Cred) (va level table : Nat) : List Nat :=
  match level with
  | 0 => []
  | l + 1 =>
    let a := table + 8 * levelIndex (l + 1) va
    a / 64 :: match readEntry m free c a with
      | none => []
      | some e =>
        if !pteV e || malformed (l + 1) e then []
        else if pteLeaf e then (if l = 0 ∧ pteSz64 e then [(table + 8 * alignDown (levelIndex 1 va) 16) / 64] else [])
        else walkLines m free c va l (pteFrame e)

/-- The level and table at which a walk begins that uses its cluster's cached pointer entries: below the deepest one (R284). -/
def State.walkStart (s : State) (c : Context) (cluster asid va : Nat) : Nat × Nat :=
  let hit := fun (l : Nat) => (s.cluster cluster).walkCache.find? (fun w =>
    w.asid == asid && w.level == l && w.base == alignDown va (levelRegion l))
  match hit 2, hit 3, hit 4 with
  | some w, _, _ => (1, w.table)
  | none, some w, _ => (2, w.table)
  | none, none, some w => (3, w.table)
  | none, none, none => (4, c.root.toNat)

/-- A walk afresh, from ROOT. -/
def State.walk (s : State) (asid va : Nat) : WalkResult :=
  match s.contexts.get? asid with
  | none => .failed 4
  | some c => walkFrom s.mem s.free c.cred asid va 4 c.root.toNat []

/-- A walk that begins at the deepest cached pointer entry of its cluster (R284). -/
def State.cachedWalk (s : State) (cluster asid va : Nat) : WalkResult :=
  match s.contexts.get? asid with
  | none => .failed 4
  | some c =>
    let w := s.walkStart c cluster asid va
    walkFrom s.mem s.free c.cred asid va w.1 w.2 []

/-- The lines that a walk reads go through their slices (R328); none where one of them is held there (R327). `cached` says whether the
walk uses the pointer entries of a cluster. -/
def State.walkReads (s : State) (cached : Option Nat) (asid va : Nat) : Option State :=
  match s.contexts.get? asid with
  | none => some s
  | some c =>
    let w := match cached with | some k => s.walkStart c k asid va | none => (4, c.root.toNat)
    let lines := walkLines s.mem s.free c.cred va w.1 w.2
    if s.anyHeld c.cred false lines then none else some (s.siltUses c.cred false lines)

/-- A walk that is limited to fewer reads than it has to make stops after them, and leaves the pointer entries that it has read in the walk
cache of its cluster, below which it goes on later (R284, R286). -/
def State.walkCut (s : State) (cluster asid va : Nat) : Option State :=
  match s.cut, s.contexts.get? asid with
  | some n, some c =>
    let w := s.walkStart c cluster asid va
    let lines := walkLines s.mem s.free c.cred va w.1 w.2
    let ptrs := walkPart s.mem s.free c.cred asid va w.1 w.2 n
    if n < lines.length then
      some ({ s.siltUses c.cred false (lines.take n) with cut := none }.modCluster cluster (fun k => { k with walkCache := k.walkCache ++ ptrs }))
    else none
  | _, _ => none

/-! ## TLBs (R284, R285) -/

/-- The entry matches an access (R284). -/
def TlbEntry.hits (e : TlbEntry) (asid va : Nat) : Bool :=
  (e.glob || e.asid == asid) && decide (e.base ≤ va) && decide (va < e.base + e.size)

/-- Adds an entry to a TLB of a capacity; the oldest goes when it is full (assumption 16). -/
def tlbFill (cap : Nat) (t : List TlbEntry) (e : TlbEntry) : List TlbEntry := ((t.filter (fun x => x != e)) ++ [e]).drop
  ((t.filter (fun x => x != e)).length + 1 - cap)

/-- A leaf is used in a core's L1 TLB. -/
def State.tlbUse (s : State) (core : Nat) (e : TlbEntry) : State := s.modCore core (fun k => { k with tlb := tlbFill 1024 k.tlb e })

/-- Fills the TLBs and the walk cache with what a walk found (R284). -/
def State.fillTlb (s : State) (core : Nat) (e : TlbEntry) (ptrs : List WalkEntry) : State :=
  (s.tlbUse core e).modCluster (clusterOf core)
    (fun k => { k with tlb := tlbFill 16384 k.tlb e, walkCache := k.walkCache ++ ptrs.filter (fun p => !k.walkCache.contains p) })

/-- The cached leaf for an access, L1 TLB first, and the TLBs after its use: a leaf found in the L1 TLB fills nothing else, so that an
invalidation's point drops it for good (R284, R288). -/
def State.tlbLookup (s : State) (core asid va : Nat) : Option (TlbEntry × State) :=
  match (s.core core).tlb.find? (fun e => e.hits asid va) with
  | some e => some (e, s.tlbUse core e)
  | none => ((s.cluster (clusterOf core)).tlb.find? (fun e => e.hits asid va)).map (fun e => (e, s.fillTlb core e []))

/-- The permission checks of R281, steps 3 and 4: the cause of the first that fails. -/
def leafFault (e : Nat) (kind : Access) (user : Bool) : Option Cause :=
  if user && !pteU e then some 0x26
  else
    match kind with
    | .read => if pteR e then none else some 0x23
    | .write => if pteW e then none else some 0x24
    | .modify => if pteW e then none else some 0x24
    | .fetch => if pteX e then none else some 0x25

/-- A failed translation: its cause, and LEVEL of the failing entry, 0 for cause 0x27 and for a leaf check (R281, R293), with the caches
as its walks left them (R328); or a walk that a quiesced stack holds, or that goes on later, which is no failure (R286, R327). -/
structure TransFault where
  cause : Cause
  level : Nat
  held  : Bool := false
  caches : Option Caches := none
  /-- No failure: the walk has made some of its reads, and this is the state in which it is left (R286). -/
  resume : Option State := none
  deriving DecidableEq, Repr

/-- The walk waits at a quiesced stack. -/
def TransFault.wait : TransFault := { cause := 0, level := 0, held := true }

/-- The walk has made some of its reads. -/
def TransFault.parted (s : State) : TransFault := { TransFault.wait with resume := some s }

/-- A leaf that a walk or a TLB gives, checked (R281). -/
def checkLeaf (r : TlbEntry × State) (kind : Access) (user : Bool) : Except TransFault (TlbEntry × State) :=
  match leafFault r.1.leaf.toNat kind user with
  | none => .ok r
  | some c => .error { cause := c, level := 0, caches := some r.2.caches }

/-- A strand's older stores have entered T before the walk that decides its fault (R153, R285). -/
def State.settleWalk (s : State) (who : Option StrandId) : State :=
  match who with
  | some sid => s.drain sid
  | none => s

/-- A fresh walk, unchecked: the entries of the address are dropped, and what the walk finds fills the TLBs (R285). -/
def State.freshLeaf (s : State) (who : Option StrandId) (core asid va : Nat) : Except TransFault (TlbEntry × State) :=
  let s := s.settleWalk who
  match s.walkReads none asid va with
  | none => .error TransFault.wait
  | some t =>
    match s.walk asid va with
    | .failed l => .error { cause := 0x20, level := l, caches := some t.caches }
    | .found e ptrs => .ok (e, (t.dropTlb core va).fillTlb core e ptrs)

/-- A fresh walk, checked (R285). -/
def State.freshTranslate (s : State) (who : Option StrandId) (core asid va : Nat) (kind : Access) (user : Bool) :
    Except TransFault (TlbEntry × State) :=
  match s.freshLeaf who core asid va with
  | .error f => .error f
  | .ok r => checkLeaf r kind user

/-- The leaf that the TLBs or a walk with the cached pointer entries give (R284); an error where that walk fails or is held. -/
def State.cachedLeaf (s : State) (core asid va : Nat) : Except TransFault (TlbEntry × State) :=
  match s.tlbLookup core asid va with
  | some r => .ok r
  | none =>
    match s.walkReads (some (clusterOf core)) asid va with
    | none => .error TransFault.wait
    | some t =>
      match s.walkCut (clusterOf core) asid va with
      | some u => .error (TransFault.parted u)
      | none =>
        match s.cachedWalk (clusterOf core) asid va with
        | .failed l => .error { cause := 0x20, level := l, caches := some t.caches }
        | .found e ptrs => .ok (e, t.fillTlb core e ptrs)

/-- The caches keep the reads of a walk that has found no leaf to use (R328). -/
def State.afterWalk (s : State) (f : TransFault) : State :=
  match f.caches with
  | some c => { s with caches := c }
  | none => s

/-- Translates an address (R281, R284, R285) for a strand or another party: a cached leaf, else a walk; and before a fault is raised, a
fresh walk. -/
def State.translate (s : State) (who : Option StrandId) (core asid va : Nat) (kind : Access) (user : Bool) :
    Except TransFault (TlbEntry × State) :=
  if 2 ^ 48 ≤ va then .error { cause := 0x27, level := 0 }
  else
    match s.cachedLeaf core asid va with
    | .error f => if f.held then .error f else (s.afterWalk f).freshTranslate who core asid va kind user
    | .ok r =>
      match checkLeaf r kind user with
      | .ok r => .ok r
      | .error f => (s.afterWalk f).freshTranslate who core asid va kind user

/-! ## Places -/

/-- Where an access is performed, the leaf it was translated under, and what its page says of it. -/
structure Place where
  leaf   : Option TlbEntry
  loc    : Nat
  va     : Nat
  cred   : Cred
  ca     : Nat
  disc   : Bool
  shadow : Bool
  sync   : Bool
  window : Bool
  deriving DecidableEq, Repr

/-- The frame of a page that an access reaches (R170, R282): the visible one, or the hidden one. -/
def Mem.frame (m : Mem) (e : TlbEntry) (hidden : Bool) : Nat :=
  let a := leafFrame e.size e.leaf.toNat
  if pteShadow e.leaf.toNat then
    let b := a + e.size
    if m.selects.contains b == hidden then a else b
  else a

/-- The place of an address that a leaf maps. -/
def State.leafPlace (s : State) (cred : Cred) (e : TlbEntry) (va : Nat) (hidden : Bool) : Place :=
  let w := e.leaf.toNat
  { leaf := some e, loc := s.mem.frame e hidden + (va - e.base), va := va, cred := cred.onPage (pteSkey w), ca := pteCa w, disc := pteDisc w,
    shadow := pteShadow w, sync := pteSync w, window := false }

/-- The frame pair that an access to a shadowed page follows, by its first byte and the page's size (R170). -/
def Place.pair (p : Place) : Option (Nat × Nat) :=
  if p.shadow then p.leaf.map (fun e => (leafFrame e.size e.leaf.toNat, e.size)) else none

/-- The place of an address inside a scratchpad. -/
def spadPlace (cred : Cred) (va core off : Nat) : Place :=
  { leaf := none, loc := spadLoc core off, va := va, cred := cred, ca := 0, disc := false, shadow := false, sync := false, window := true }

/-- The trap of a failed translation, with what the fault queue needs (R291). The strand's older stores have entered T before the walk
that failed; a held walk only waits. -/
def transTrap (f : TransFault) (va : Nat) (kind : Access) : Trap :=
  if f.held then { Trap.wait with resume := f.resume }
  else
    { cause := f.cause, eva := BitVec.ofNat 64 va, drop := some va, drains := true, caches := f.caches,
      fault := some { va := va, cause := f.cause, kind := kind, level := f.level, posted := false, counted := false } }

/-- The place of an untranslated address at machine level (R393). -/
def physPlace (cred : Cred) (va : Nat) : Except Trap Place :=
  if va < Config.physEnd ∧ physAssigned va then
    .ok { leaf := none, loc := va, va := va, cred := cred, ca := if Config.hubBase ≤ va ∧ va < Config.hubEnd then 2 else 0,
          disc := false, shadow := false, sync := false, window := false }
  else .error (trapAt 0x20 va)

/-- The leaf under which the accesses of an instruction were translated that has made some of them: those that are left need no further
translation (R142, R182, R289). -/
def State.pinnedLeaf (s : State) (who : Option StrandId) (va : Nat) : Option TlbEntry :=
  match who with
  | none => none
  | some sid =>
    if (s.strand sid).got.isEmpty then none
    else (s.strand sid).pinned.find? (fun e => decide (e.base ≤ va) && decide (va < e.base + e.size))

/-- An instruction is about to make its first access to some places, perhaps not all in this step: their leaves serve the remaining
ones. -/
def State.pin (s : State) (ps : List Place) : State :=
  if s.cut.isNone then s
  else s.modMe (fun t => { t with pinned := ((if t.got.isEmpty then [] else t.pinned) ++ ps.filterMap (fun p => p.leaf)).eraseDups })

/-- The place of an address outside the windows in an address space (R281). -/
def State.locateIn (s : State) (who : Option StrandId) (core : Nat) (asid : Option Nat) (cred : Cred) (user : Bool) (va : Nat)
    (kind : Access) (hidden : Bool) : Except Trap (Place × State) :=
  match asid with
  | none => .error (transTrap { cause := 0x20, level := 4 } va kind)
  | some a =>
    match s.pinnedLeaf who va with
    | some e => .ok (s.leafPlace cred e va hidden, s)
    | none =>
      match s.translate who core a va kind user with
      | .error f => .error (transTrap f va kind)
      | .ok (e, s') => .ok (s'.leafPlace cred e va hidden, s')

/-- The place of an address outside the windows, for a strand (R281, R393). The bytes of the access must lie on one page. -/
def State.locate (s : State) (sid : StrandId) (va : Nat) (kind : Access) (hidden : Bool) : Except Trap (Place × State) :=
  if s.level sid = .machine then
    match physPlace (s.cred sid) va with
    | .error e => .error e
    | .ok p => .ok (p, s)
  else s.locateIn (some sid) sid.core (s.asid sid) (s.cred sid) (s.level sid == .user) va kind hidden

/-- Marks a trap as made by a tile instruction on an engine (R291). -/
def Trap.onEngine (t : Trap) (engine : Nat) : Trap := { t with engine := some engine }

end Sys2Proof.Machine
end

