-- ==== Sys2Proof/Machine/Caches.lean ====
section
/-! DEFINITION. What an access does to the caches (R99, R100, R156, R158, R269, R328-R332). Residency decides no value but the one of
R100, the prefetch counters and where a soft error finds a dirty line. -/

namespace Sys2Proof.Machine

/-- The hints of an access (R100, R328): eviction priority, last use, and whether a line may be allocated in the L1 data cache; and whether
it is a write. -/
structure Hints where
  ep : BitVec 2 := 2
  lu : Bool := false
  l1 : Bool := true
  wr : Bool := false
  deriving DecidableEq, Repr

/-- A demand access meets the L1 data cache and the prefetches on their way (R332). -/
def State.l1Demand (s : State) (core line slot : Nat) (alloc : Bool) : State :=
  match (s.core core).l1Find line slot with
  | some e =>
    s.modCore core (fun k => { (k.l1Fill { line := line, slot := slot, prefetched := false }) with
      pfUseful := sat48 (k.pfUseful + flag e.prefetched) })
  | none =>
    let late := match s.missOf line with | some m => flag (m.pfs.contains (core, slot)) | none => 0
    let s := s.setMisses (s.caches.misses.map (fun m =>
      if m.line = line then { m with pfs := m.pfs.filter (fun e => e != (core, slot)) } else m))
    let k := if alloc then (s.core core).l1Fill { line := line, slot := slot, prefetched := false } else s.core core
    s.setCore core { k with pfLate := sat48 (k.pfLate + late) }

/-- A line goes into a cluster cache of 2 MiB (R8, R156); the line used longest ago makes room (assumption 17). -/
def ClusterState.fillLine (k : ClusterState) (line slot : Nat) : ClusterState :=
  let all := k.lines.filter (fun e => e != (line, slot)) ++ [(line, slot)]
  { k with lines := all.drop (all.length - 32768) }

/-- A cluster's cache takes a line, and the cluster holds a read lease on it (R156, R158). -/
def State.lease (s : State) (core line slot : Nat) : State :=
  let s := s.modCluster (clusterOf core) (fun k => k.fillLine line slot)
  if s.caches.leases.contains (clusterOf core, line) then s
  else { s with caches := { s.caches with leases := s.caches.leases ++ [(clusterOf core, line)] } }

/-- The access goes through the caches: cached memory outside the windows and the hub (R157, R329). -/
def Place.cached (p : Place) : Bool := !p.window && decide (p.ca = 0) && !isSpad p.loc

/-- A last-use access to the place drops its line (R100, R329). -/
def Place.drops (p : Place) : Bool := p.disc && !p.shadow && !p.sync

/-- The key slot of the line at a place, for an access made there (R269). -/
def State.placeSlot (s : State) (p : Place) (write : Bool) : Nat := s.slotFor p.cred (p.loc / 64) write

/-- The access waits for the line's slice: it would miss, and the stack is quiesced (R327). -/
def State.placeHeld (s : State) (p : Place) (write : Bool) : Bool := p.cached && s.missHeld (p.loc / 64) (s.placeSlot p write)

/-- What an access of a core does to the caches (R328, R329, R332). A last-use write acts on its slice once it enters T. -/
def State.touch (s : State) (core : Nat) (p : Place) (h : Hints) : State :=
  if p.cached then
    let line := p.loc / 64
    let slot := s.placeSlot p h.wr
    let s := (s.l1Demand core line slot h.l1).lease core line slot
    let s := if isDram p.loc then s.siltTouch line slot h.ep else s
    if h.lu && isDram p.loc then
      (if h.wr then s else s.lastUse line p.drops).modCore core (fun k =>
        { k with l1 := k.l1.filter (fun e => e.line != line || e.slot != slot) })
    else s
  else s

/-- The L1 instruction cache holds the line at a place, under the key slot with which a fetch there finds it (R8, R269). -/
def State.fetchHits (s : State) (core : Nat) (p : Place) : Bool := (s.core core).l1i.contains (p.loc / 64, s.placeSlot p false)

/-- A fetch of an instruction meets the L1 instruction cache of 1,024 lines (R8); a line it lacks comes through the cluster cache and
the slice. -/
def State.fetchTouch (s : State) (core : Nat) (p : Place) : State :=
  if !p.cached then s
  else
    let slot := s.placeSlot p false
    let hit := s.fetchHits core p
    let all := (s.core core).l1i.filter (fun e => e != (p.loc / 64, slot)) ++ [(p.loc / 64, slot)]
    let s := s.modCore core (fun k => { k with l1i := all.drop (all.length - 1024) })
    if hit then s
    else
      let s := s.lease core (p.loc / 64) slot
      if isDram p.loc then s.siltTouch (p.loc / 64) slot 2 else s

end Sys2Proof.Machine
end

