-- ==== Sys2Proof/Machine/Hub.lean ====
section
/-! DEFINITION. The hub registers (R5, R6, R324, R332, R337, R339, R343, R350, R358, R363): what reading and writing each of them
does. An offset is that of an aligned doubleword in the hub register region (R323). -/

namespace Sys2Proof.Machine

/-- A field of a register value. -/
def place (lo v : Nat) : Nat := v * 2 ^ lo

/-- The port with a number. -/
def Hub.port (h : Hub) (p : Nat) : Port := Sparse.at Port.reset h.ports p

/-- Replaces a port. -/
def Hub.setPort (h : Hub) (p : Nat) (q : Port) : Hub := { h with ports := h.ports.set p q }

/-- STATE codes of DPSTAT (R337). -/
def portCode : PortState → Nat
  | .off => 0
  | .detect => 1
  | .train => 2
  | .active => 3
  | .retrain => 4
  | .half => 5
  | .down => 6
  | .fenced => 7

/-- The port can carry flits (R336). -/
def Port.up (p : Port) : Bool := p.st == .active || p.st == .half

/-! ## Black box and mailbox words -/

/-- Doubleword `i` of a black-box record (R351). -/
def BbRecord.word (r : BbRecord) (i : Nat) : Nat :=
  match i with
  | 0 => r.time.toNat
  | 1 => r.ev.event.toNat + place 16 r.ev.source.toNat + place 32 r.ev.cause.toNat
  | 2 => r.ev.tag.toNat + place 32 (r.ev.addr.toNat % 2 ^ 32)
  | _ => r.ev.addr.toNat / 2 ^ 32 + place 32 r.ev.aux.toNat

/-- Doubleword `i` of the mailbox (R339). -/
def Hub.mailWord (h : Hub) (i : Nat) : Nat :=
  if i = 0 then h.op.toNat
  else if i ≤ 14 then (Sparse.at 0 h.args i).toNat
  else if i = 15 then h.status.toNat + place 8 (flag h.done)
  else if i = 16 then h.res0.toNat
  else h.res1.toNat

/-- MEMCFG (R324). -/
def Hub.memcfg (h : Hub) : Nat :=
  h.locals.toNat + place 6 h.shways.toNat + place 8 h.ratios.toNat + place 44 h.busy.toNat + place 56 (flag h.ratioErr)

/-- BBCTL (R350). -/
def Hub.bbctl (h : Hub) : Nat :=
  h.bbWidx.toNat + place 13 (flag h.bbWrap) + place 14 (flag h.bbFrozen) + place 16 h.bbLost.toNat + place 48 h.bbCause.toNat

/-- BOOTSTAT (R363). -/
def Hub.bootstat (h : Hub) : Nat := h.phase.toNat + place 4 h.failPh.toNat + place 8 h.reason.toNat

/-- FUSESTAT (R343). -/
def Hub.fusestat (h : Hub) : Nat :=
  h.fwctr.toNat + place 6 h.kctr.toNat + place 12 (flag h.dbgauth) + place 13 h.nkkeys.toNat + place 16 h.mode.toNat

/-- DPSTAT of a port (R337). -/
def Port.stat (p : Port) : Nat :=
  portCode p.st + place 3 (flag p.halfHigh) + place 4 p.peer.toNat + place 10 (Nat.min p.retrains (2 ^ 22 - 1)) +
    place 32 (Nat.min p.replays (2 ^ 32 - 1))

/-- CPWR of a cluster (R358). -/
def ClusterState.cpwr (k : ClusterState) : Nat :=
  k.pstate.toNat + place 2 k.cmax.toNat + place 4 k.curp.toNat + place 6 k.curc.toNat + place 8 (flag k.thr)

/-- A prefetch counter of a core (R332). -/
def CoreState.pfCount (k : CoreState) (i : Nat) : Nat :=
  match i with
  | 0 => k.pfIssued
  | 1 => k.pfUseful
  | 2 => k.pfLate
  | _ => k.pfUseless

/-- Registers that can be read in phase 15 (R362). -/
def readStopped (off : Nat) : Bool := decide (off = 0x400000) || decide (off = 0x400008)

/-- The value of a hub register (R5); an offset that no rule assigns, or that cannot be read, gives a free value
(assumption 14). -/
def State.hubRead (s : State) (off : Nat) : Word :=
  let h := s.hub
  let w (n : Nat) : Word := BitVec.ofNat 64 n
  if h.phase = 15 ∧ ¬ readStopped off then Config.hubUnassigned s.free off
  else if off = 0 then w h.memcfg
  else if 0x100000 ≤ off ∧ off < 0x100000 + 32 * 768 then w ((s.core (h.sockid.toNat * 1024 + (off - 0x100000) / 32)).pfCount (off / 8 % 4))
  else if 0x200000 ≤ off ∧ off < 0x200080 then
    if off / 8 % 2 = 0 then w (h.port ((off - 0x200000) / 16)).stat else w (flag (h.port ((off - 0x200000) / 16)).enable)
  else if off = 0x200400 then w h.sockid.toNat
  else if 0x200800 ≤ off ∧ off < 0x200A00 then w (Sparse.at 0 h.droute ((off - 0x200800) / 8)).toNat
  else if 0x300000 ≤ off ∧ off < 0x300090 then w (h.mailWord ((off - 0x300000) / 8))
  else if off = 0x400000 then w h.bbctl
  else if off = 0x400008 then w h.bootstat
  else if off = 0x400010 then w h.fusestat
  else if 0x400040 ≤ off ∧ off < 0x400080 then Config.bootNonce h.boots ((off - 0x400040) / 8)
  else if 0x410000 ≤ off ∧ off < 0x450000 then
    w (match h.bbRing.get? ((off - 0x410000) / 32) with | some r => r.word (off / 8 % 4) | none => 0)
  else if 0x500000 ≤ off ∧ off < 0x500000 + 8 * 192 then w (s.cluster ((off - 0x500000) / 8)).cpwr
  else Config.hubUnassigned s.free off

/-! ## Writes -/

/-- MEMCFG.LOCAL (R324): ignored after the first BUILD accepted since reset. -/
def State.setLocal (s : State) (v : BitVec 6) : State :=
  if s.hub.built then s else s.modHub (fun h => { h with locals := v })

/-- Lines that stand in ways now reserved leave their slices (R324). -/
def State.trimSilt (s : State) : State :=
  let beyond := s.caches.silt.filter (fun e =>
    decide (siltWays s.hub.shways ≤
      (s.caches.silt.filter (fun f => decide (f.1 < e.1) && siltSet s.hub.locals f.1 == siltSet s.hub.locals e.1)).length))
  beyond.foldl (fun s e => s.evictLine e.1) s

/-- MEMCFG.SHWAYS (R324): writable only before the first BUILD. -/
def State.setShways (s : State) (v : BitVec 2) : State :=
  if s.hub.built then s else (s.modHub (fun h => { h with shways := v })).trimSilt

/-- A RATIO field of MEMCFG (R324, R327). -/
def State.setRatio (s : State) (stack code : Nat) : State :=
  if 12 ≤ stack then s
  else if 5 ≤ code ∨ bitAt s.hub.busy.toNat stack then s.modHub (fun h => { h with ratioErr := true })
  else s.modHub (fun h =>
    { h with ratios := putBits h.ratios (3 * stack) 3 code, busy := putBits h.busy stack 1 1,
             ratioAt := h.ratioAt.set stack s.clk.cycles })

/-- Whether a byte that holds part of bits [lo + n - 1 : lo] is written, `bytes` having a bit for each written byte. -/
def fieldHit (bytes lo n : Nat) : Bool := (List.range 8).any (fun i => bitAt bytes i && decide (lo < 8 * i + 8) && decide (8 * i < lo + n))

/-- A write of MEMCFG: each field that a written byte holds part of (R324). MEMCFG is writable once the stacks are trained (R362). -/
def State.writeMemcfg (s : State) (bytes w : Nat) : State :=
  if s.hub.phase.toNat < 3 ∨ s.hub.phase = 15 then s
  else
    let s := if fieldHit bytes 0 6 then s.setLocal (BitVec.ofNat 6 w) else s
    let s := if fieldHit bytes 6 2 then s.setShways (BitVec.ofNat 2 (w / 64)) else s
    let s := if fieldHit bytes 56 1 && bitAt w 56 then s.modHub (fun h => { h with ratioErr := false }) else s
    (List.range 12).foldl (fun s i =>
      if fieldHit bytes (8 + 3 * i) 3 then s.setRatio i (bitsAt w (8 + 3 * i) 3) else s) s

/-! ## Ports (R333-R337) -/

/-- The ports of a socket's route. -/
def Hub.routePorts (h : Hub) (socket : Nat) : List Nat :=
  (List.range 8).filter (fun p => bitAt (Sparse.at 0 h.droute socket).toNat p)

/-- The socket is another one, and no port of its route is Active or Half-width (R336). -/
def Hub.unreachable (h : Hub) (socket : Nat) : Bool :=
  decide (socket ≠ h.sockid.toNat) && !(h.routePorts socket).any (fun p => (h.port p).up)

/-- A lost socket is reachable again: a port of its route has been RESET and has trained (R336). -/
def Hub.restored (h : Hub) (socket : Nat) : Bool := (h.routePorts socket).any (fun p => (h.port p).up && (h.port p).renewed)

/-- What follows from a change of the ports or routes: whether some port has left Off (R337), since when a socket has been cut off (R335),
and which lost sockets are reachable again (R336). -/
def Hub.review (h : Hub) (now : Nat) : Hub :=
  { h with leftOff := h.leftOff || (List.range 8).any (fun p => (h.port p).st != .off),
           cutSince := if (List.range 64).any h.unreachable then some (h.cutSince.getD now) else none,
           lost := h.lost.filter (fun k => !h.restored k) }

/-- A flit for another socket is sent by one of the ports of its route that can carry it, under that port's next sequence number, or
waits until one can (R333, R335). Which of several ports takes it is a free value (assumption 98). -/
def State.sendFlit (s : State) (f : Flit) : State :=
  let up := (s.hub.routePorts f.socket).filter (fun p => (s.hub.port p).up)
  match up[Config.routePort s.free % up.length]? with
  | none => s.modHub (fun h => { h with holding := h.holding ++ [f] })
  | some p =>
    let q := s.hub.port p
    let g := { f with seq := q.nextSeq }
    ({ s with free := s.free + 1 }).modHub (fun h =>
      { (h.setPort p { q with nextSeq := q.nextSeq + 1, sent := (q.sent ++ [g]).drop (q.sent.length + 1 - 64) }) with
          forwarded := h.forwarded ++ [(p, g)] })

/-- Flits are sent that have waited or must be sent again, in order. -/
def State.resend (s : State) (fs : List Flit) : State := fs.foldl State.sendFlit s

/-- A port changes (R335). One that goes Down gives the flits of its replay buffer that its peer has not taken (a free value, assumption
98) to the other ports of their routes, and one that comes to carry flits takes those that wait. -/
def State.setPort (s : State) (p : Nat) (q : Port) : State :=
  let old := s.hub.port p
  if q.st = .down ∧ old.st ≠ .down then
    let t := s.modHub (fun h => (h.setPort p { q with sent := [] }).review s.clk.time)
    ({ t with free := t.free + 1 }).resend (q.sent.drop (Config.peerTook s.free % (q.sent.length + 1)))
  else if q.up && !old.up then
    (s.modHub (fun h => { ((h.setPort p q).review s.clk.time) with holding := [] })).resend s.hub.holding
  else s.modHub (fun h => (h.setPort p q).review s.clk.time)

/-- DPCTL.ENABLE (R335): 1 takes an Off port to Detect once SOCKID has been written, until when every port stays Off (R362); 0 takes any
but a Fenced port Down. -/
def State.setEnable (s : State) (p : Nat) (on : Bool) : State :=
  if 8 ≤ p then s
  else
    let q := { s.hub.port p with enable := on }
    if q.st = .off ∧ !s.hub.sockSet then s.setPort p q
    else if on then s.setPort p (if q.st = .off then { q with st := .detect, since := s.clk.time } else q)
    else s.setPort p (if q.st = .fenced ∨ q.st = .down then q else { q with st := .down, since := s.clk.time })

/-- DPCTL.RESET (R335): Down or Fenced goes to Off, the counters kept. -/
def State.resetPort (s : State) (p : Nat) : State :=
  let q := s.hub.port p
  if 8 ≤ p then s
  else if q.st = .down ∨ q.st = .fenced then
    s.setPort p { q with st := .off, since := s.clk.time, fails := 0, expect := 0, nextSeq := 0, sent := [], renewed := true }
  else s

/-- SOCKID (R337): ignored once any port has left Off. -/
def State.setSocket (s : State) (v : BitVec 6) : State :=
  if s.hub.leftOff then s else s.modHub (fun h => ({ h with sockid := v, sockSet := true }).review s.clk.time)

/-- DROUTE (R337). -/
def State.setRoute (s : State) (socket : Nat) (v : BitVec 8) : State :=
  s.modHub (fun h => ({ h with droute := Sparse.put 0 h.droute socket v }).review s.clk.time)

/-- A command ends (R340): STATUS, DONE, the results, and the host is told (R338). -/
def State.answer (s : State) (status res0 res1 : Nat) : State :=
  (s.modHub (fun h =>
    { h with running := none, status := BitVec.ofNat 8 status, done := true,
             res0 := if status = 0 then BitVec.ofNat 64 res0 else 0, res1 := if status = 0 then BitVec.ofNat 64 res1 else 0 })).tellHost 3

/-- GO (R339, R340, R363): starts the command held in the mailbox unless one runs or bring-up has not finished; a code that is no
command is answered at once. -/
def State.go (s : State) : State :=
  if s.hub.running.isSome ∨ s.hub.phase ≠ 5 then s
  else if s.hub.op = 0 ∨ 18 < s.hub.op.toNat then s.answer 0xFE 0 0
  else s.modHub (fun h => { h with running := some (h.op, h.args) })

/-- A write of a mailbox word (R339). -/
def State.writeMail (s : State) (i bytes w : Nat) : State :=
  if i = 0 then (if bitAt bytes 0 then s.modHub (fun h => { h with op := BitVec.ofNat 8 w }) else s)
  else if i ≤ 14 then s.modHub (fun h => { h with args := Sparse.put 0 h.args i (BitVec.ofNat 64 w) })
  else if i = 15 ∧ bitAt bytes 1 then
    let s := if bitAt w 8 then s.modHub (fun h => { h with done := false }) else s
    if bitAt w 9 then s.go else s
  else s

/-- BBCTL.UNFREEZE (R350). -/
def State.unfreeze (s : State) : State := s.modHub (fun h => { h with bbFrozen := false, bbLost := 0, bbCause := 0 })

/-- CPWR.PSTATE (R358): fetch pauses until the change takes effect. -/
def State.setPstate (s : State) (k : Nat) (v : BitVec 2) : State :=
  if 192 ≤ k then s else s.modCluster k (fun c => { c with pstate := v, changing := some s.clk.cycles })

/-- CPWR.CMAX (R358). -/
def State.setCmax (s : State) (k : Nat) (v : BitVec 2) : State :=
  if 192 ≤ k then s else s.modCluster k (fun c => { c with cmax := v })

/-- A write of a prefetch counter (R332). -/
def CoreState.setPf (k : CoreState) (i v : Nat) : CoreState :=
  match i with
  | 0 => { k with pfIssued := v }
  | 1 => { k with pfUseful := v }
  | 2 => { k with pfLate := v }
  | _ => { k with pfUseless := v }

/-- A write of a hub register (R5, R6): `w` holds the written bytes over the register's present value, and `bytes` has a bit for
each written byte. In phase 15 nothing but BBCTL acts (R362). -/
def State.hubWrite (s : State) (off bytes w : Nat) : State :=
  if s.hub.phase = 15 ∧ off ≠ 0x400000 then s
  else if off = 0 then s.writeMemcfg bytes w
  else if 0x100000 ≤ off ∧ off < 0x100000 + 32 * 768 then
    s.modCore (s.hub.sockid.toNat * 1024 + (off - 0x100000) / 32) (fun k => k.setPf (off / 8 % 4) (w % 2 ^ 48))
  else if 0x200000 ≤ off ∧ off < 0x200080 then
    if off / 8 % 2 = 0 ∨ ¬ bitAt bytes 0 then s
    else
      let p := (off - 0x200000) / 16
      let s := s.setEnable p (bitAt w 0)
      if bitAt w 1 then s.resetPort p else s
  else if off = 0x200400 then (if bitAt bytes 0 then s.setSocket (BitVec.ofNat 6 w) else s)
  else if 0x200800 ≤ off ∧ off < 0x200A00 then
    if bitAt bytes 0 then s.setRoute ((off - 0x200800) / 8) (BitVec.ofNat 8 w) else s
  else if 0x300000 ≤ off ∧ off < 0x300090 then s.writeMail ((off - 0x300000) / 8) bytes w
  else if off = 0x400000 then (if bitAt bytes 1 && bitAt w 15 then s.unfreeze else s)
  else if 0x500000 ≤ off ∧ off < 0x500000 + 8 * 192 then
    if bitAt bytes 0 then (s.setPstate ((off - 0x500000) / 8) (BitVec.ofNat 2 w)).setCmax ((off - 0x500000) / 8) (BitVec.ofNat 2 (w / 4))
    else s
  else s

/-! ## Device accesses (R157, R323, R393) -/

/-- The location lies in the hub register region (R323). -/
def isHub (loc : Nat) : Bool := decide (Config.hubBase ≤ loc) && decide (loc < Config.hubEnd)

/-- `n` bytes of the hub region from a location on. -/
def State.hubBytes (s : State) (loc n : Nat) : List Byte :=
  (List.range n).map (fun i => byteOf (s.hubRead (alignDown (loc + i - Config.hubBase) 8)) ((loc + i) % 8))

/-- Bytes stored to the hub region, at most one doubleword, as one write of its register. -/
def State.hubStore (s : State) (loc : Nat) (bs : List Byte) : State :=
  let off := alignDown (loc - Config.hubBase) 8
  let o := loc % 8
  let old := (s.hubRead off).toNat
  let n := Nat.min bs.length (8 - o)
  let new := leNat (bs.take n)
  let bytes := (2 ^ n - 1) * 2 ^ o
  s.hubWrite off bytes (old - bitsAt old (8 * o) (8 * n) * 2 ^ (8 * o) + new * 2 ^ (8 * o))

/-- Bytes stored to the hub region, doubleword by doubleword, in ascending order. -/
def State.hubStores (fuel : Nat) (s : State) (loc : Nat) (bs : List Byte) : State :=
  match fuel with
  | 0 => s
  | k + 1 =>
    if bs.isEmpty then s
    else
      let n := Nat.min bs.length (8 - loc % 8)
      State.hubStores k (s.hubStore loc bs) (loc + n) (bs.drop n)

end Sys2Proof.Machine
end

