-- ==== Sys2Proof/Machine/Numeric.lean ====
section
/-! DEFINITION. Numbers and arithmetic (R66-R84): exact values, the one rounding, the IEEE formats, block codes, elastic values,
conversions and the window sum. A finite value is an exact magnitude times a power of two. -/

namespace Sys2Proof.Machine

/-! ## Values -/

/-- A number that a format can hold. A NaN carries its sign, its reason (elastic, R76) or its fraction extended to 52 bits
(IEEE, R68), and whether it is signalling. -/
inductive Val where
  | zero (neg : Bool)
  | fin (neg : Bool) (mag : Nat) (exp : Int)
  | inf (neg : Bool)
  | nan (neg : Bool) (info : Nat) (sig : Bool)
  deriving DecidableEq, Repr

/-- The sign. -/
def Val.neg : Val → Bool
  | .zero n => n
  | .fin n _ _ => n
  | .inf n => n
  | .nan n _ _ => n

/-- The value with its sign set. -/
def Val.withSign (v : Val) (n : Bool) : Val :=
  match v with
  | .zero _ => .zero n
  | .fin _ m e => .fin n m e
  | .inf _ => .inf n
  | .nan _ i s => .nan n i s

/-- The value with its sign inverted. -/
def Val.negate (v : Val) : Val := v.withSign (!v.neg)

/-- The value is a NaN. -/
def Val.isNan : Val → Bool
  | .nan .. => true
  | _ => false

/-- The value is a signalling NaN. -/
def Val.isSnan : Val → Bool
  | .nan _ _ s => s
  | _ => false

/-- The value is zero. -/
def Val.isZero : Val → Bool
  | .zero _ => true
  | _ => false

/-- The value is infinite. -/
def Val.isInf : Val → Bool
  | .inf _ => true
  | _ => false

/-- The five accrued flags (R80). -/
structure Flags where
  nv : Bool := false
  dz : Bool := false
  of : Bool := false
  uf : Bool := false
  nx : Bool := false
  deriving DecidableEq, Repr

/-- The union of flags (R80). -/
def Flags.or (a b : Flags) : Flags :=
  { nv := a.nv || b.nv, dz := a.dz || b.dz, of := a.of || b.of, uf := a.uf || b.uf, nx := a.nx || b.nx }

/-- The flags at SSW [12:8] (R36). -/
def Flags.bits (f : Flags) : Nat := flag f.nv * 256 + flag f.dz * 512 + flag f.of * 1024 + flag f.uf * 2048 + flag f.nx * 4096

/-- A result with its flags, whether RX forbids it (0x40), and whether it is a NaN produced with NV (0x50 under NTE). -/
structure Arith (α : Type) where
  val : α
  fl  : Flags := {}
  rx  : Bool := false
  made : Bool := false
  deriving DecidableEq, Repr

/-- The trap cause of a result, if any, in the order of R81. -/
def Arith.cause {α : Type} (r : Arith α) (nte : Bool) : Option Cause :=
  if r.made && nte then some 0x50 else if r.rx then some 0x40 else none

/-! ## Rounding (R77) -/

/-- The part of a magnitude below a weight: nothing, less than half, half, more than half. -/
inductive Rest where
  | exact | below | half | above
  deriving DecidableEq, Repr

/-- A magnitude divided by 2^sh: the integer part and what is left. -/
def splitAt (mag sh : Nat) : Nat × Rest :=
  if sh = 0 then (mag, .exact)
  else if bitLength mag < sh then (0, if mag = 0 then .exact else .below)
  else
    let r := mag % 2 ^ sh
    (mag / 2 ^ sh, if r = 0 then .exact else if 2 * r < 2 ^ sh then .below else if 2 * r = 2 ^ sh then .half else .above)

/-- The rounding modes of SSW.RM (R36): RNE, RNA, RTZ, RUP, RDN, RX are 0 to 5. Whether the kept magnitude goes up. -/
def roundsUp (mode : Nat) (neg : Bool) (t : Nat) (r : Rest) : Bool :=
  match r with
  | .exact => false
  | _ =>
    if mode = 0 then r == .above || (r == .half && t % 2 == 1)
    else if mode = 1 then r != .below
    else if mode = 3 then !neg
    else if mode = 4 then neg
    else false

/-- The kept magnitude in units of 2^u of mag * 2^exp, and whether bits were lost (R77). -/
def roundAt (mode : Nat) (neg : Bool) (mag : Nat) (exp u : Int) : Nat × Bool :=
  if u ≤ exp then (mag * 2 ^ (exp - u).toNat, false)
  else
    let s := splitAt mag (u - exp).toNat
    (if roundsUp mode neg s.1 s.2 then s.1 + 1 else s.1, s.2 != .exact)

/-- Floor(Log2) of mag * 2^exp. -/
def topBit (mag : Nat) (exp : Int) : Int := exp + (bitLength mag : Int) - 1

/-- The mode in force: RMO of an accepted prefix where it is nonzero, else SSW.RM (R55). An RMO of 111, which a supervisor's `csrw` of FMTP
can place behind a pending prefix, gives mode 6: no trap is raised, and R77's rounding keeps the truncated value, as by RTZ (DESIGN
CHOICE, assumption 112). -/
def modeOf (rmo rm : Nat) : Nat := if rmo = 0 then rm else rmo - 1

/-! ## What an operation gives before rounding -/

/-- The exact outcome of an operation (R68, R116). -/
inductive Pre where
  | nan (v : Val)
  | invalid (reason : Nat)
  | zero (neg : Bool)
  | inf (neg dz : Bool)
  | fin (neg : Bool) (mag : Nat) (exp : Int)
  deriving DecidableEq, Repr

/-- The first NaN in operand order (R68, R76). -/
def firstNan (vs : List Val) : Option Val := vs.find? Val.isNan

/-- A value as an outcome. -/
def Pre.of (v : Val) : Pre :=
  match v with
  | .zero n => .zero n
  | .fin n m e => .fin n m e
  | .inf n => .inf n false
  | .nan .. => .nan v

/-- The sum of two exact finite values, as a signed mantissa and an exponent. -/
def addFin (n1 : Bool) (m1 : Nat) (e1 : Int) (n2 : Bool) (m2 : Nat) (e2 : Int) : Int × Int :=
  let e := min e1 e2
  let a : Int := (m1 * 2 ^ (e1 - e).toNat : Nat)
  let b : Int := (m2 * 2 ^ (e2 - e).toNat : Nat)
  ((if n1 then -a else a) + (if n2 then -b else b), e)

/-- A signed mantissa as an outcome; an exact zero is +0, or -0 under RDN (R116). -/
def Pre.ofInt (mode : Nat) (s e : Int) : Pre :=
  if s = 0 then .zero (mode == 4) else .fin (decide (s < 0)) s.natAbs e

/-- a + b for operands that are no NaN (R116). -/
def addPre (mode : Nat) (a b : Val) : Pre :=
  match a, b with
  | .inf x, .inf y => if x = y then .inf x false else .invalid 1
  | .inf x, _ => .inf x false
  | _, .inf y => .inf y false
  | .zero x, .zero y => if x = y then .zero x else .zero (mode == 4)
  | .zero _, v => .of v
  | v, .zero _ => .of v
  | .fin n1 m1 e1, .fin n2 m2 e2 => let s := addFin n1 m1 e1 n2 m2 e2; .ofInt mode s.1 s.2
  | .nan .., _ => .nan a
  | _, .nan .. => .nan b

/-- a * b as a value, for operands that are no NaN; none where it is 0 * infinity. -/
def mulVal (a b : Val) : Option Val :=
  let n := a.neg != b.neg
  match a, b with
  | .inf _, .zero _ => none
  | .zero _, .inf _ => none
  | .inf _, _ => some (.inf n)
  | _, .inf _ => some (.inf n)
  | .fin _ m1 e1, .fin _ m2 e2 => some (.fin n (m1 * m2) (e1 + e2))
  | _, _ => some (.zero n)

/-- a * b (R116). -/
def mulPre (a b : Val) : Pre :=
  match mulVal a b with
  | none => .invalid 2
  | some v => .of v

/-- a * b + c with one rounding (R115, R116). -/
def fmaPre (mode : Nat) (a b c : Val) : Pre :=
  match mulVal a b with
  | none => .invalid 2
  | some v => addPre mode v c

/-- a / b (R116): the quotient keeps `p` + 4 bits and one more that says whether anything was left, which rounds as the exact
quotient does at any length up to `p`. -/
def divPre (p : Nat) (a b : Val) : Pre :=
  let n := a.neg != b.neg
  match a, b with
  | .zero _, .zero _ => .invalid 3
  | .inf _, .inf _ => .invalid 4
  | .inf _, _ => .inf n false
  | _, .inf _ => .zero n
  | .zero _, _ => .zero n
  | .fin .., .zero _ => .inf n true
  | .fin _ m1 e1, .fin _ m2 e2 =>
    let k := p + 4 + bitLength m2 - bitLength m1
    let q := m1 * 2 ^ k / m2
    let r := m1 * 2 ^ k % m2
    .fin n (2 * q + if r = 0 then 0 else 1) (e1 - e2 - (k : Int) - 1)
  | .nan .., _ => .nan a
  | _, .nan .. => .nan b

/-- The integer square root of `n`, built from bit `i - 1` down. -/
def sqrtBits (n i r : Nat) : Nat :=
  match i with
  | 0 => r
  | j + 1 => let c := r + 2 ^ j; if c * c ≤ n then sqrtBits n j c else sqrtBits n j r

/-- The square root (R116), with as many bits as `divPre` keeps. -/
def sqrtPre (p : Nat) (a : Val) : Pre :=
  match a with
  | .nan .. => .nan a
  | .zero n => .zero n
  | .inf false => .inf false false
  | .inf true => .invalid 5
  | .fin true _ _ => .invalid 5
  | .fin false m e =>
    let k0 := 2 * (p + 4)
    let k := if (e - (k0 : Int)) % 2 = 0 then k0 else k0 + 1
    let n := m * 2 ^ k
    let r := sqrtBits n (bitLength n / 2 + 1) 0
    .fin false (2 * r + if r * r = n then 0 else 1) ((e - (k : Int)) / 2 - 1)

/-! ## Elastic values (R72-R76) -/

/-- EXP's bias (R72). -/
def elBias : Int := 0x7FFFFF

/-- The NaN that an invalid operation makes (R76). -/
def elNan (reason : Nat) : Val := .nan false reason false

/-- A finite result at length `p`, rounded and range-checked (R75, R77). -/
def elFinish (p mode : Nat) (neg : Bool) (mag : Nat) (exp : Int) : Arith Val :=
  let u := topBit mag exp - (p : Int) + 1
  let r := roundAt mode neg mag exp u
  let e := topBit r.1 u
  let rx := mode == 5
  if 0x800000 < e then { val := .inf neg, fl := { of := true, nx := true }, rx := rx }
  else if e < -elBias then { val := .zero neg, fl := { uf := true, nx := true }, rx := rx }
  else { val := .fin neg r.1 u, fl := { nx := r.2 }, rx := rx && r.2 }

/-- An outcome as an elastic value of length `p` (R114, R116). -/
def Pre.elastic (p mode : Nat) (o : Pre) : Arith Val :=
  match o with
  | .nan v => { val := v }
  | .invalid r => { val := elNan r, fl := { nv := true }, made := true }
  | .zero n => { val := .zero n }
  | .inf n dz => { val := .inf n, fl := { dz := dz } }
  | .fin n m e => elFinish p mode n m e

/-- The elastic forms of R115 on operands (R114). -/
inductive ElOp where
  | add | sub | mul | div | sqrt | fma | fms | fnma
  deriving DecidableEq, Repr

/-- An elastic operation before rounding: NaN operands first, then R116. -/
def ElOp.pre (op : ElOp) (p mode : Nat) (a b c : Val) : Pre :=
  match op with
  | .add => match firstNan [a, b] with | some v => .nan v | none => addPre mode a b
  | .sub => match firstNan [a, b] with | some v => .nan v | none => addPre mode a b.negate
  | .mul => match firstNan [a, b] with | some v => .nan v | none => mulPre a b
  | .div => match firstNan [a, b] with | some v => .nan v | none => divPre p a b
  | .sqrt => match firstNan [a] with | some v => .nan v | none => sqrtPre p a
  | .fma => match firstNan [a, b, c] with | some v => .nan v | none => fmaPre mode a b c
  | .fms => match firstNan [a, b, c] with | some v => .nan v | none => fmaPre mode a b c.negate
  | .fnma => match firstNan [a, b, c] with | some v => .nan v | none => fmaPre mode a.negate b c

/-- An elastic operation (R114-R116). -/
def ElOp.run (op : ElOp) (p mode : Nat) (a b c : Val) : Arith Val := (op.pre p mode a b c).elastic p mode

/-- A value rounded to length `p` (R79, elastic at one length to another). -/
def elRound (p mode : Nat) (v : Val) : Arith Val := (Pre.of v).elastic p mode

/-- The header word of a record (R72). -/
def elHeader (neg : Bool) (cls n exp : Nat) : Nat := flag neg * 2 ^ 31 + cls * 2 ^ 29 + n * 2 ^ 24 + exp % 2 ^ 24

/-- A value of length `p` as header and significand, a number of 4 + p / 8 bytes (R72, R74). -/
def elEncode (p : Nat) (v : Val) : Nat :=
  let n := p / 8
  match v with
  | .zero s => elHeader s 1 n 0
  | .inf s => elHeader s 2 n 0
  | .nan s i _ => elHeader s 3 n (i % 256)
  | .fin s m e =>
    let k := (p : Int) - (bitLength m : Int)
    let g := if 0 ≤ k then m * 2 ^ k.toNat else m / 2 ^ (-k).toNat
    elHeader s 0 n (topBit m e + elBias).toNat + g * 2 ^ 32

/-- N of a record (R72). -/
def elN (w : Nat) : Nat := bitsAt w 24 5

/-- The leading bit that a finite record must have is clear (R73). -/
def elNoLead (w : Nat) : Bool := decide (bitsAt w 29 2 = 0) && !bitAt w (32 + 8 * elN w - 1)

/-- A record is malformed on its own (R73). -/
def elBad (w : Nat) : Bool := decide (elN w = 0) || decide (28 < elN w) || elNoLead w

/-- A register or lane is malformed at length `p` (R73). -/
def elBadAt (p w : Nat) : Bool := elBad w || decide (elN w ≠ p / 8)

/-- The value of a well-formed record (R72). -/
def elDecode (w : Nat) : Val :=
  let s := bitAt w 31
  match bitsAt w 29 2 with
  | 0 => .fin s (bitsAt w 32 (8 * elN w)) ((bitsAt w 0 24 : Int) - elBias - 8 * (elN w : Int) + 1)
  | 1 => .zero s
  | 2 => .inf s
  | _ => .nan s (bitsAt w 0 8) false

/-- Granules of a window at length `p` (R32). -/
def windowLen (p : Nat) : Nat := (p + 95) / 64

/-- Elastic registers that exist at length `p` (R32, R123). -/
def elCount (p : Nat) : Nat := if windowLen p ≤ 2 then 32 else if windowLen p = 3 then 21 else 16

/-! ## IEEE formats (R67, R68, R78) -/

/-- An IEEE format: exponent and fraction bits, and whether it is E4M3. -/
structure Fmt where
  eb   : Nat
  fb   : Nat
  e4m3 : Bool
  deriving DecidableEq, Repr

/-- The IEEE format of a format code of R71. -/
def fmtOf (code : Nat) : Fmt :=
  match code with
  | 2 => { eb := 4, fb := 3, e4m3 := true }
  | 3 => { eb := 5, fb := 2, e4m3 := false }
  | 4 => { eb := 5, fb := 10, e4m3 := false }
  | 5 => { eb := 8, fb := 7, e4m3 := false }
  | 6 => { eb := 8, fb := 23, e4m3 := false }
  | _ => { eb := 11, fb := 52, e4m3 := false }

/-- Bias. -/
def Fmt.bias (f : Fmt) : Int := 2 ^ (f.eb - 1) - 1
/-- Width in bits. -/
def Fmt.width (f : Fmt) : Nat := 1 + f.eb + f.fb
/-- Significand length P. -/
def Fmt.p (f : Fmt) : Nat := f.fb + 1
/-- EMIN: the exponent of the smallest normal value. -/
def Fmt.emin (f : Fmt) : Int := 1 - f.bias
/-- The format is one of the two 8-bit formats. -/
def Fmt.fp8 (f : Fmt) : Bool := decide (f.width = 8)
/-- The all-ones exponent field. -/
def Fmt.ones (f : Fmt) : Nat := 2 ^ f.eb - 1
/-- Assembles sign, exponent and fraction. -/
def Fmt.join (f : Fmt) (s : Bool) (e m : Nat) : Nat := flag s * 2 ^ (f.eb + f.fb) + e * 2 ^ f.fb + m
/-- The largest finite value's bits. -/
def Fmt.largest (f : Fmt) (s : Bool) : Nat :=
  if f.e4m3 then f.join s 15 6 else f.join s (f.ones - 1) (2 ^ f.fb - 1)
/-- Infinity's bits. -/
def Fmt.infinity (f : Fmt) (s : Bool) : Nat := f.join s f.ones 0
/-- The default NaN (R68). -/
def Fmt.defaultNan (f : Fmt) (s : Bool) : Nat := if f.e4m3 then f.join s 15 7 else f.join s f.ones (2 ^ (f.fb - 1))

/-- The value of a bit pattern (R67, R68). -/
def Fmt.decode (f : Fmt) (w : Nat) : Val :=
  let s := bitAt w (f.eb + f.fb)
  let e := bitsAt w f.fb f.eb
  let m := bitsAt w 0 f.fb
  if f.e4m3 && decide (e = 15) && decide (m = 7) then .nan s (7 * 2 ^ 49) false
  else if e = f.ones ∧ ¬ f.e4m3 then
    if m = 0 then .inf s else .nan s (m * 2 ^ (52 - f.fb)) (!bitAt m (f.fb - 1))
  else if e = 0 then
    if m = 0 then .zero s else .fin s m (f.emin - f.fb)
  else .fin s (2 ^ f.fb + m) ((e : Int) - f.bias - f.fb)

/-- The bit pattern is a subnormal number (R85). -/
def Fmt.subnormal (f : Fmt) (w : Nat) : Bool := decide (bitsAt w f.fb f.eb = 0) && decide (bitsAt w 0 f.fb ≠ 0)

/-- A NaN operand made quiet in a format (R68). -/
def Fmt.quiet (f : Fmt) (v : Val) : Nat :=
  match v with
  | .nan s i _ => if f.e4m3 then f.join s 15 7 else f.join s f.ones ((i / 2 ^ (52 - f.fb)) ||| 2 ^ (f.fb - 1))
  | _ => f.defaultNan false

/-- An overflow in a format (R78). -/
def Fmt.overflow (f : Fmt) (mode : Nat) (ovf s : Bool) : Arith Nat :=
  let fl : Flags := { of := true, nx := true }
  if mode = 5 then { val := 0, fl := fl, rx := true }
  else if f.fp8 && !ovf then { val := f.largest s, fl := fl }
  else if f.e4m3 then { val := f.join s 15 7, fl := fl }
  else
    let big := mode = 2 ∨ (mode = 3 ∧ s) ∨ (mode = 4 ∧ ¬ s)
    { val := if big then f.largest s else f.infinity s, fl := fl }

/-- An infinite result in a format: E4M3 has none (R79). -/
def Fmt.inf (f : Fmt) (mode : Nat) (ovf s dz : Bool) : Arith Nat :=
  if f.e4m3 then
    if ovf then { val := f.join s 15 7, fl := { nv := true, dz := dz }, made := true }
    else { val := f.largest s, fl := { of := true, nx := true, dz := dz }, rx := mode == 5 }
  else { val := f.infinity s, fl := { dz := dz } }

/-- A finite result in a format: rounded with gradual underflow, tininess after rounding, overflow by R78 (R77, R78). -/
def Fmt.finish (f : Fmt) (mode : Nat) (ovf neg : Bool) (mag : Nat) (exp : Int) : Arith Nat :=
  let e := topBit mag exp
  let u := max e f.emin - (f.p : Int) + 1
  let r := roundAt mode neg mag exp u
  let free := roundAt mode neg mag exp (e - (f.p : Int) + 1)
  let tiny := decide (topBit free.1 (e - (f.p : Int) + 1) < f.emin)
  let top := topBit r.1 u
  let emax := if f.e4m3 then 8 else f.bias
  let beyond := r.1 ≠ 0 ∧ (emax < top ∨ (f.e4m3 ∧ top = 8 ∧ 14 * 2 ^ 5 < r.1 * 2 ^ (u.toNat)))
  if beyond then f.overflow mode ovf neg
  else
    let bits :=
      if r.1 < 2 ^ f.fb then f.join neg 0 r.1
      else if r.1 = 2 ^ f.p then f.join neg (u + f.p + f.bias).toNat 0
      else f.join neg (u + f.fb + f.bias).toNat (r.1 - 2 ^ f.fb)
    { val := bits, fl := { uf := tiny && r.2, nx := r.2 }, rx := mode == 5 && r.2 }

/-- An outcome as a bit pattern of a format; `snan` says that an operand was a signalling NaN (R68, R78). -/
def Pre.ieee (f : Fmt) (mode : Nat) (ovf snan : Bool) (o : Pre) : Arith Nat :=
  match o with
  | .nan v => { val := f.quiet v, fl := { nv := snan }, made := snan }
  | .invalid _ => { val := f.defaultNan false, fl := { nv := true }, made := true }
  | .zero n => { val := f.join n 0 0 }
  | .inf n dz => f.inf mode ovf n dz
  | .fin n m e => f.finish mode ovf n m e

/-- An IEEE operation on bit patterns (R136). -/
def ElOp.ieee (op : ElOp) (f : Fmt) (mode : Nat) (ovf : Bool) (a b c : Nat) : Arith Nat :=
  let x := f.decode a
  let y := f.decode b
  let z := f.decode c
  let sn := match op with
    | .sqrt => x.isSnan
    | .fma => x.isSnan || y.isSnan || z.isSnan
    | .fms => x.isSnan || y.isSnan || z.isSnan
    | .fnma => x.isSnan || y.isSnan || z.isSnan
    | _ => x.isSnan || y.isSnan
  (op.pre f.p mode x y z).ieee f mode ovf sn

/-! ## Order (R119, R120, R137) -/

/-- a < b for values that are no NaN, zeros equal. -/
def Val.lt (a b : Val) : Bool :=
  match a, b with
  | .inf true, .inf true => false
  | .inf true, _ => true
  | _, .inf true => false
  | .inf false, _ => false
  | _, .inf false => true
  | .zero _, .zero _ => false
  | .zero _, .fin n _ _ => !n
  | .fin n _ _, .zero _ => n
  | .fin n1 m1 e1, .fin n2 m2 e2 => decide ((addFin n1 m1 e1 (!n2) m2 e2).1 < 0)
  | _, _ => false

/-- a = b for values that are no NaN, zeros equal. -/
def Val.eqv (a b : Val) : Bool := !a.isNan && !b.isNan && !a.lt b && !b.lt a

/-- The order of `fmin` and `fmax`: -0 below +0. -/
def Val.below (a b : Val) : Bool := a.lt b || (a.isZero && b.isZero && a.neg && !b.neg)

/-- `fmin`, or `fmax` where `big`: an operand unchanged, the other one where exactly one is a NaN, A where both are. -/
def minMax {α : Type} (big : Bool) (a b : Val) (x y : α) : α :=
  if a.isNan && b.isNan then x
  else if a.isNan then y
  else if b.isNan then x
  else if (if big then a.below b else b.below a) then y else x

/-- The class word of `fclass` (R121). -/
def classWord (v : Val) : Nat :=
  match v with
  | .inf true => 1
  | .fin true _ _ => 2
  | .zero true => 4
  | .zero false => 8
  | .fin false _ _ => 16
  | .inf false => 32
  | .nan _ r _ => 64 + r % 256 * 256

/-! ## Conversions (R79) -/

/-- A signed number as a value. -/
def Val.ofInt (i : Int) : Val := if i = 0 then .zero false else .fin (decide (i < 0)) i.natAbs 0

/-- To an integer between `lo` and `hi`: rounded in the mode; NaN gives 0 and what is out of range saturates, both with NV. -/
def toInt (mode : Nat) (lo hi : Int) (v : Val) : Arith Int :=
  match v with
  | .nan .. => { val := 0, fl := { nv := true } }
  | .inf n => { val := if n then lo else hi, fl := { nv := true } }
  | .zero _ => { val := 0 }
  | .fin n m e =>
    if 128 < topBit m e then { val := if n then lo else hi, fl := { nv := true } }
    else
      let r := roundAt mode n m e 0
      let i : Int := if n then -(r.1 : Int) else (r.1 : Int)
      if i < lo then { val := lo, fl := { nv := true } }
      else if hi < i then { val := hi, fl := { nv := true } }
      else { val := i, fl := { nx := r.2 }, rx := mode == 5 && r.2 }

/-- IEEE bits to an elastic value of length `p`. -/
def ieeeToEl (f : Fmt) (p mode : Nat) (w : Nat) : Arith Val :=
  match f.decode w with
  | .nan s _ sig => { val := .nan s 7 false, fl := { nv := sig }, made := sig }
  | v => elRound p mode v

/-- An elastic value to IEEE bits. -/
def elToIeee (f : Fmt) (mode : Nat) (ovf : Bool) (v : Val) : Arith Nat :=
  match v with
  | .nan s _ _ => { val := f.defaultNan s }
  | v => (Pre.of v).ieee f mode ovf false

/-- IEEE bits of one format to another (R79, R138). -/
def ieeeToIeee (src dst : Fmt) (mode : Nat) (ovf : Bool) (w : Nat) : Arith Nat :=
  let v := src.decode w
  (Pre.of v).ieee dst mode ovf v.isSnan

/-! ## Block codes and element values (R69-R71) -/

/-- Magnitudes of the codes of types 01, 10 and 11, in eighths (R69). -/
def blkMag (ty c : Nat) : Nat :=
  match ty with
  | 1 => [0, 4, 8, 12, 16, 24, 32, 48].getD c 0
  | 2 => [0, 1, 2, 4, 8, 16, 32, 64].getD c 0
  | _ => [0, 8, 16, 24, 32, 48, 64, 96].getD c 0

/-- The value of a block code under a scale byte (R69). -/
def blkVal (scale c : Nat) : Val :=
  let ty := bitsAt scale 6 2
  let e : Int := (bitsAt scale 0 6 : Int) - 32
  if ty = 0 then
    let i := toSigned 4 c
    if i = 0 then .zero false else .fin (decide (i < 0)) i.natAbs e
  else
    let m := blkMag ty (c % 8)
    if m = 0 then .zero false else .fin (bitAt c 3) m (e - 3)

/-- Element size in bytes of a format code; BLK4 counts as 1 byte of two codes (R71). -/
def elemSize (code : Nat) : Nat :=
  match code with
  | 4 => 2
  | 5 => 2
  | 6 => 4
  | 8 => 8
  | 15 => 12
  | _ => 1

/-- The value of an element held as `w` in an integer or IEEE format (R66, R67). -/
def elemVal (code w : Nat) : Val :=
  if code = 0 then Val.ofInt (toSigned 8 w)
  else if code = 1 then Val.ofInt ((w % 256 : Nat) : Int)
  else (fmtOf code).decode w

/-! ## The window sum (R82) -/

/-- ZeroSign (R82). -/
def zeroSign (ts : List Val) (mode : Nat) : Bool := mode == 4 || ts.all (fun t => t.isZero && t.neg)

/-- The window sum's folded terms: the sum in units of 2^(L - 1), and whether bits were lost. -/
def foldTerms (l : Int) (ts : List Val) : Int × Bool :=
  ts.foldl (fun acc t =>
    match t with
    | .fin n m e =>
      let u : Nat × Bool :=
        if l ≤ e then (2 * (m * 2 ^ (e - l).toNat), false)
        else let s := splitAt m (l - e).toNat; (2 * s.1 + (if s.2 == .exact then 0 else 1), s.2 != .exact)
      (acc.1 + (if n then -(u.1 : Int) else (u.1 : Int)), acc.2 || u.2)
    | _ => acc) (0, false)

/-- The window sum of finite terms: its exact folded value, and whether bits were lost (R82). -/
def windowFold (q : Nat) (ts : List Val) : Option (Int × Int × Bool) :=
  let tops := ts.filterMap (fun t => match t with | .fin _ m e => some (topBit m e) | _ => none)
  match tops with
  | [] => none
  | t :: rest =>
    let l := rest.foldl max t - ((q : Int) + 5)
    let s := foldTerms l ts
    some (s.1, l - 1, s.2)

/-- WindowSum (R82). -/
def windowSum (q mode : Nat) (ts : List Val) : Arith Val :=
  match ts.filterMap (fun t => match t with | .nan _ r _ => some r | _ => none) with
  | r :: rest => { val := elNan (rest.foldl Nat.min r) }
  | [] =>
    if ts.any (fun t => t == .inf false) && ts.any (fun t => t == .inf true) then
      { val := elNan 1, fl := { nv := true }, made := true }
    else
      match ts.find? Val.isInf with
      | some v => { val := v }
      | none =>
        match windowFold q ts with
        | none => { val := .zero (zeroSign ts mode) }
        | some (s, e, lost) =>
          let lostRx := lost && mode == 5
          if s = 0 then { val := .zero (zeroSign ts mode), fl := { nx := lost }, rx := lostRx }
          else
            let r := elFinish q mode (decide (s < 0)) s.natAbs e
            { r with fl := r.fl.or { nx := lost }, rx := r.rx || lostRx }

/-- The window sum of IEEE terms into an IEEE element (R148). -/
def windowIeee (f : Fmt) (mode : Nat) (ts : List Val) : Arith Nat :=
  let clash := ts.any (fun t => t == .inf false) && ts.any (fun t => t == .inf true)
  let nv := ts.any Val.isSnan || clash
  if ts.any Val.isNan || clash then { val := f.defaultNan false, fl := { nv := nv }, made := nv }
  else
    match ts.find? Val.isInf with
    | some v => { val := f.infinity v.neg }
    | none =>
      match windowFold f.p ts with
      | none => { val := f.join (zeroSign ts mode) 0 0 }
      | some (s, e, lost) =>
        let lostRx := lost && mode == 5
        if s = 0 then { val := f.join (zeroSign ts mode) 0 0, fl := { nx := lost }, rx := lostRx }
        else
          let r := f.finish mode true (decide (s < 0)) s.natAbs e
          { r with fl := r.fl.or { nx := lost }, rx := r.rx || lostRx }

/-! ## Accumulator cells (R84) -/

/-- A value of length `q` as a cell. -/
def cellOf (q : Nat) (v : Val) : Cell96 := BitVec.ofNat 96 (elEncode q v)

/-- The value of a cell at its own length. -/
def cellVal (c : Cell96) : Val := elDecode c.toNat

end Sys2Proof.Machine
end

