-- ==== Sys2Proof/Machine/Flags.lean ====
section
/-! DEFINITION. Accrued flags and arithmetic traps (R80, R81, R114, R132). -/

namespace Sys2Proof.Machine

/-- SSW with flags accrued: a flag is set and never cleared (R80). -/
def accrueSsw (ssw : Word) (f : Flags) : Word := ssw ||| BitVec.ofNat 64 f.bits

/-- Flags accrue to the executing strand (R80). -/
def State.accrue (s : State) (f : Flags) : State := s.modMe (fun t => { t with ssw := accrueSsw t.ssw f })

/-- A result's trap, if it raises one under the strand's NTE (R81), with an element position and formats for EIDX and EFMT. -/
def Arith.check {α : Type} (r : Arith α) (nte : Bool) (eidx efmt : Word) : Except Trap Unit :=
  match r.cause nte with
  | some c => .error { cause := c, eidx := eidx, efmt := efmt }
  | none => .ok ()

/-- The causes that a list of element results raises: the earliest in the order of R81 (0x50 before 0x40), at the lowest element
that raises it (R132). -/
def firstCause {α : Type} (nte : Bool) (rs : List (Nat × Arith α)) : Option (Cause × Nat) :=
  match rs.find? (fun r => r.2.cause nte == some 0x50) with
  | some r => some (0x50, r.1)
  | none =>
    match rs.find? (fun r => r.2.cause nte == some 0x40) with
    | some r => some (0x40, r.1)
    | none => none

/-- The union of the flags of a list of results (R80). -/
def unionFlags {α : Type} (rs : List (Nat × Arith α)) : Flags := rs.foldl (fun f r => f.or r.2.fl) {}

/-- The mode of an instruction that accepts a format prefix: RMO of a pending prefix where nonzero, else SSW.RM (R55); an RMO of 111 truncates
(DESIGN CHOICE, assumption 112). -/
def Strand.mode (t : Strand) : Nat := if t.pp then modeOf (bitsAt t.fmtp.toNat 1 3) t.rm else t.rm

/-- OVF of a pending prefix (R55). -/
def Strand.ovf (t : Strand) : Bool := t.pp && bitAt t.fmtp.toNat 0

/-- AFMT, BFMT and OFMT of a pending prefix, or `d` where none is pending (R55). -/
def Strand.afmt (t : Strand) (d : Nat) : Nat := if t.pp then bitsAt t.fmtp.toNat 20 4 else d
/-- BFMT. -/
def Strand.bfmt (t : Strand) (d : Nat) : Nat := if t.pp then bitsAt t.fmtp.toNat 16 4 else d
/-- OFMT. -/
def Strand.ofmt (t : Strand) (d : Nat) : Nat := if t.pp then bitsAt t.fmtp.toNat 12 4 else d

/-- EFMT's fields (R37). -/
def efmtOf (a b o : Nat) : Word := BitVec.ofNat 64 (a + 16 * b + 256 * o)

end Sys2Proof.Machine
end

