-- ==== Sys2Proof/Machine/Regs.lean ====
section
/-! DEFINITION. Elastic registers and their windows (R32, R74, R123), control registers (R34-R37, R270) and the register space
(R38-R40). -/

namespace Sys2Proof.Machine

/-! ## Elastic registers (R32, R74) -/

/-- A granule of a strand. -/
def Strand.granule (t : Strand) (i : Nat) : Word := Sparse.at granuleZero t.g i

/-- The bytes of `n` granules from `i` on, as a number. -/
def Strand.granules (t : Strand) (i n : Nat) : Nat :=
  match n with
  | 0 => 0
  | k + 1 => (t.granule i).toNat + 2 ^ 64 * t.granules (i + 1) k

/-- Writes `n` granules from `i` on with the bytes of a number. -/
def Strand.putGranules (t : Strand) (i n w : Nat) : Strand :=
  match n with
  | 0 => t
  | k + 1 => ({ t with g := Sparse.put granuleZero t.g i (BitVec.ofNat 64 w) }).putGranules (i + 1) k (w / 2 ^ 64)

/-- The bytes of elastic register `i` (R74). -/
def Strand.fBits (t : Strand) (i : Nat) : Nat := t.granules (i * windowLen t.p) (windowLen t.p)

/-- Writes a value into elastic register `i` at the length in force (R74). -/
def Strand.putF (t : Strand) (i : Nat) (v : Val) : Strand := t.putGranules (i * windowLen t.p) (windowLen t.p) (elEncode t.p v)

/-- Existence (R113 step 2): every register of a list exists, or 0x40 with the lowest that fails. -/
def Strand.existF (t : Strand) (rs : List Nat) : Except Trap Unit :=
  match (rs.filter (fun r => decide (elCount t.p ≤ r))).foldl (fun m r => match m with | none => some r | some k => some (Nat.min k r))
      none with
  | none => .ok ()
  | some r => .error { cause := 0x40, eidx := BitVec.ofNat 64 r }

/-- Reads elastic register `i`, or 0x42 where it is malformed (R113 step 3). -/
def Strand.readF (t : Strand) (i : Nat) : Except Trap Val :=
  if elBadAt t.p (t.fBits i) then .error { cause := 0x42, eidx := BitVec.ofNat 64 i } else .ok (elDecode (t.fBits i))

/-- Writes an elastic result into a register of the executing strand, its flags accrued. -/
def State.putF (s : State) (r : FReg) (a : Arith Val) : State := (s.modMe (fun t => t.putF r.toNat a.val)).accrue a.fl

/-- The values that `setprec` gives to registers 0 to `n` - 1, with the union of their flags (R123). -/
def Strand.relay (t : Strand) (p : Nat) (n : Nat) : Except Trap (List Val × Flags) :=
  match n with
  | 0 => .ok ([], {})
  | k + 1 =>
    match t.relay p k with
    | .error e => .error e
    | .ok (vs, fl) =>
      match t.readF k with
      | .error e => .error e
      | .ok v =>
        let r := elRound p t.rm v
        match r.cause false with
        | some c => .error { cause := c, eidx := BitVec.ofNat 64 k }
        | none => .ok (vs ++ [r.val], fl.or r.fl)

/-- Writes a list of values into registers from `i` on. -/
def Strand.putFs (t : Strand) (i : Nat) (vs : List Val) : Strand :=
  match vs with
  | [] => t
  | v :: rest => (t.putF i v).putFs (i + 1) rest

/-- `setprec` (R123): every register is rounded or extended to the new length and laid out anew; one that comes to exist holds
the window-lost NaN. -/
def Strand.setPrec (t : Strand) (p : Nat) : Except Trap Strand :=
  if p < 8 ∨ 224 < p ∨ p % 8 ≠ 0 then .error (trapOf 0x41)
  else
    let old := elCount t.p
    let new := elCount p
    match t.relay p (Nat.min old new) with
    | .error e => .error e
    | .ok (vs, fl) =>
      let t := { t with prec := BitVec.ofNat 64 p, ssw := accrueSsw t.ssw fl }
      .ok (t.putFs 0 (vs ++ List.replicate (new - vs.length) (elNan 6)))

/-! ## Control registers (R34-R37) -/

/-- Writable bits of SSW: IE, RM, NTE, the flags, EPRI and IPRI (R36). -/
def sswMask : Nat := 0x1FFF4

/-- The value of a control register (R34). -/
def State.csr (s : State) (n : Nat) : Word :=
  let t := s.me
  match n with
  | 0x00 => t.ssw
  | 0x01 => t.eps
  | 0x02 => t.epc
  | 0x03 => t.cause
  | 0x04 => t.eva
  | 0x05 => t.etile
  | 0x06 => t.eidx
  | 0x07 => t.efmt
  | 0x08 => t.prec
  | 0x09 => t.tstep
  | 0x0A => t.fmtp
  | 0x0B => t.tcoord
  | 0x0C => (s.core s.cur.core).tagw
  | 0x0D => t.crb
  | 0x0E => t.crn
  | 0x0F => t.htb
  | 0x10 => (s.core s.cur.core).htab
  | _ => (s.core s.cur.core).rfsleep

/-- User level may read the register (R34). -/
def csrUserRead (n : Nat) : Bool := decide (n = 0) || (decide (8 ≤ n) && decide (n ≤ 0xF))

/-- User level may write the register (R34). -/
def csrUserWrite (n : Nat) : Bool := decide (n = 0) || decide (n = 8)

/-- The access is not permitted at the level (R34). -/
def csrDenied (level : Level) (write : Bool) (n : Nat) : Bool :=
  level == .user && !(if write then csrUserWrite n else csrUserRead n)

/-- SSW after a write (R35, R36): PRIV and PP are kept; at user level an EPRI of 3 stores 2. -/
def sswWrite (level : Level) (old new : Word) : Word :=
  let w := (old &&& ~~~(BitVec.ofNat 64 sswMask)) ||| (new &&& BitVec.ofNat 64 sswMask)
  if level == .user && decide (bitsAt w.toNat 13 2 = 3) then putBits w 13 2 2 else w

/-- EPS after a write (R270): PRIV takes the lower of the written value and the current level, and 10 stores 01. -/
def epsWrite (level : Level) (new : Word) : Word :=
  let w := BitVec.ofNat 64 (bitsAt new.toNat 0 17)
  let here := match level with | .user => 0 | .supervisor => 1 | .machine => 3
  let p := bitsAt w.toNat 0 2
  putBits w 0 2 (Nat.min (if p = 2 then 1 else p) here)

/-- A count is a power of two from 1 to 256 (R35). -/
def crnOk (n : Nat) : Bool := [1, 2, 4, 8, 16, 32, 64, 128, 256].contains n

/-- A write of a control register, its value checked and its fields kept by their access kinds (R5, R35, R270). -/
def State.csrWrite (s : State) (n : Nat) (v : Word) : Run :=
  let w := v.toNat
  match n with
  | 0x00 =>
    if 5 < bitsAt w 4 3 then .error (trapOf 0x0A)
    else .ok (s.modMe (fun t => { t with ssw := sswWrite s.myLevel t.ssw v }))
  | 0x01 =>
    if 5 < bitsAt w 4 3 then .error (trapOf 0x0A)
    else .ok (s.modMe (fun t => { t with eps := epsWrite s.myLevel v }))
  | 0x02 => .ok (s.modMe (fun t => { t with epc := BitVec.ofNat 64 (alignDown w 4) }))
  | 0x03 => .ok (s.modMe (fun t => { t with cause := BitVec.ofNat 64 (w % 2 ^ 8) }))
  | 0x04 => .ok (s.modMe (fun t => { t with eva := v }))
  | 0x05 => .ok (s.modMe (fun t => { t with etile := BitVec.ofNat 64 (w % 2 ^ 48) }))
  | 0x06 => .ok (s.modMe (fun t => { t with eidx := v }))
  | 0x07 => .ok (s.modMe (fun t => { t with efmt := BitVec.ofNat 64 (w % 2 ^ 12) }))
  | 0x08 =>
    match s.me.setPrec (w % 2 ^ 8) with
    | .error e => .error e
    | .ok t => .ok (s.setStrand s.cur t)
  | 0x09 => .ok (s.modMe (fun t => { t with tstep := BitVec.ofNat 64 (w % 2 ^ 32) }))
  | 0x0A => .ok (s.modMe (fun t => { t with fmtp := BitVec.ofNat 64 (w % 2 ^ 24) }))
  | 0x0B => .ok (s.modMe (fun t => { t with tcoord := BitVec.ofNat 64 (w % 2 ^ 48) }))
  | 0x0C => .ok (s.modCore s.cur.core (fun k => { k with tagw := k.tagw &&& ~~~v }))
  | 0x0D => .ok (s.modMe (fun t => { t with crb := BitVec.ofNat 64 (alignDown w 16), widx := 0, ridx := 0, seq := 0 }))
  | 0x0E =>
    if crnOk (w % 2 ^ 9) then
      .ok (s.modMe (fun t => { t with crn := BitVec.ofNat 64 (w % 2 ^ 9), widx := 0, ridx := 0, seq := 0 }))
    else .error (trapOf 0x0A)
  | 0x0F => .ok (s.modMe (fun t => { t with htb := v }))
  | 0x10 => .ok (s.modCore s.cur.core (fun k => { k with htab := BitVec.ofNat 64 (alignDown w 64) }))
  | _ => .ok (s.modCore s.cur.core (fun k => { k with rfsleep := BitVec.ofNat 64 (w % 4) }))

/-! ## Register space (R38, R39) -/

/-- A register of the register space. -/
inductive RegName where
  | x (n : Nat) | s (n : Nat) | m (n : Nat) | csr (n : Nat) | v (n : Nat) | f (n : Nat)
  deriving DecidableEq, Repr

/-- The register that holds bytes [off, off + n) of the self window, and the first byte's place in it (R38, R39). -/
def regNamed (p off n : Nat) : Option (RegName × Nat) :=
  let fits : Nat → Nat → Nat → (Nat → RegName) → Option (RegName × Nat) := fun base stride count name =>
    let i := (off - base) / stride
    let o := (off - base) % stride
    if i < count ∧ o + n ≤ stride then some (name i, o) else none
  if off < 0x80000 then none
  else if off < 0x80100 then fits 0x80000 8 32 .x
  else if off < 0x80200 then fits 0x80100 8 32 .s
  else if off < 0x80280 then fits 0x80200 16 8 .m
  else if off < 0x80400 then none
  else if off < 0x80490 then fits 0x80400 8 18 .csr
  else if off < 0x81000 then none
  else if off < 0x82000 then fits 0x81000 128 32 .v
  else if off < 0x82200 then fits 0x82000 (8 * windowLen p) (elCount p) .f
  else none

/-- The register's value as a number (R38). -/
def State.regValue (s : State) (r : RegName) : Nat :=
  match r with
  | .x n => (s.x (BitVec.ofNat 6 n)).toNat
  | .s n => (s.x (BitVec.ofNat 6 (n + 32))).toNat
  | .m n => (s.m (BitVec.ofNat 3 n)).toNat
  | .csr n => (s.csr n).toNat
  | .v n => (s.v (BitVec.ofNat 5 n)).toNat
  | .f n => s.me.fBits n

/-- A value with bytes replaced, each at its byte index. -/
def mergeBytes (w : Nat) (cells : List (Nat × Byte)) : Nat :=
  cells.foldl (fun w c => w - bitsAt w (8 * c.1) 8 * 2 ^ (8 * c.1) + c.2.toNat * 2 ^ (8 * c.1)) w

/-- A read of the register space, obeying `csrr`'s permissions (R39). -/
def State.regRead (s : State) (ea off n : Nat) : Except Trap (List Byte) :=
  match regNamed s.me.p off n with
  | none => .error (trapAt 0x29 ea)
  | some (r, o) =>
    let bytes := leBytes n (s.regValue r / 2 ^ (8 * o))
    match r with
    | .csr k => if csrDenied s.myLevel false k then .error (trapOf 0x06) else .ok bytes
    | _ => .ok bytes

/-- SSW after a write of some of its bytes: an EPRI whose byte is not written keeps its value, 3 included (R39). -/
def State.keepEpri (s t : State) (cells : List (Nat × Byte)) : State :=
  if cells.any (fun c => c.1 == 1) then t else t.modMe (fun q => { q with ssw := putBits q.ssw 13 2 s.me.epri })

/-- A write of bytes of a register, each at its byte index (R39): the bytes not written keep their values; of a W1C field only the
bytes written act; a control register obeys `csrw`. -/
def State.regPut (s : State) (r : RegName) (cells : List (Nat × Byte)) : Run :=
  let w := mergeBytes (s.regValue r) cells
  match r with
  | .x n => .ok (s.setX (BitVec.ofNat 6 n) (BitVec.ofNat 64 w))
  | .s n => .ok (s.setX (BitVec.ofNat 6 (n + 32)) (BitVec.ofNat 64 w))
  | .m n => .ok (s.setM (BitVec.ofNat 3 n) (BitVec.ofNat 128 w))
  | .v n => .ok (s.setV (BitVec.ofNat 5 n) (BitVec.ofNat 1024 w))
  | .f n => .ok (s.modMe (fun t => t.putGranules (n * windowLen t.p) (windowLen t.p) w))
  | .csr k =>
    if csrDenied s.myLevel true k then .error (trapOf 0x06)
    else if k = 0x0C then s.csrWrite k (BitVec.ofNat 64 (mergeBytes 0 cells))
    else if k = 0 then (s.csrWrite k (BitVec.ofNat 64 w)).map (fun t => s.keepEpri t cells)
    else s.csrWrite k (BitVec.ofNat 64 w)

/-- A write of consecutive bytes of the register space (R39). -/
def State.regWrite (s : State) (ea off : Nat) (bs : List Byte) : Run :=
  match regNamed s.me.p off bs.length with
  | none => .error (trapAt 0x29 ea)
  | some (r, o) => s.regPut r (cellsAt o bs)

end Sys2Proof.Machine
end

