-- ==== Sys2Proof/Machine/Operands.lean ====
section
/-! DEFINITION. Operand forms of memory accesses: effective addresses (R48, R52, R95), fences that hold an access (R169), the checks of
an access (R97, R103, R106), loads with forwarding from the store buffer (R54, R154, R155), stores into it (R96, R154), and accesses
to the register space and to devices (R39, R157). -/

namespace Sys2Proof.Machine

/-! ## Effective addresses -/

/-- Bytes of an access by its SIZE code (R49). -/
def accessSize (size : Nat) : Nat := [1, 1, 2, 2, 4, 4, 8, 64].getD size 1

/-- IMM14, or the immediate that one or two `himm` words widen (R52, R92). -/
def Strand.imm (t : Strand) (i : BitVec 14) : Word :=
  match t.himm with
  | [] => sext 14 i.toNat
  | [h] => sext 38 (h.toNat * 2 ^ 14 + i.toNat)
  | h :: k :: _ => sext 62 ((h.toNat * 2 ^ 24 + k.toNat) * 2 ^ 14 + i.toNat)

/-- DISP of an M-format word: DISP8, or what one `himm` widens it to, times the access size (R48, R52). -/
def Strand.disp (t : Strand) (p : BitVec 8) (size : Nat) : Word :=
  let d := match t.himm with
    | [] => sext 8 p.toNat
    | h :: _ => sext 32 (h.toNat * 2 ^ 8 + p.toNat)
  d * BitVec.ofNat 64 size

/-- DISP of an E-memory word (R48, R52). -/
def Strand.disp12 (t : Strand) (p : BitVec 12) : Word :=
  match t.himm with
  | [] => sext 12 p.toNat
  | h :: _ => sext 36 (h.toNat * 2 ^ 12 + p.toNat)

/-! ## Fences (R165, R169) -/

/-- A range of addresses as the bytes it names: the part of the self window that aliases the own scratchpad names the scratchpad
window's bytes (R13). -/
def aliases (core lo hi : Nat) : List (Nat × Nat) :=
  let base := Config.spadWindowBase + core * Config.spadBlock
  let selfEnd := Config.selfWindowBase + Config.spadBytes
  [(lo, hi), (Nat.max lo Config.selfWindowBase - Config.selfWindowBase + base, Nat.min hi selfEnd - Config.selfWindowBase + base)]

/-- Two ranges of addresses of a core's strand meet (R165). -/
def rangesMeet (core alo ahi blo bhi : Nat) : Bool :=
  (aliases core alo ahi).any (fun a => (aliases core blo bhi).any (fun b => meets a.1 a.2 b.1 b.2))

/-- A pending fence of the strand names some of the bytes (R169). -/
def State.fenced (s : State) (sid : StrandId) (lo hi : Nat) : Bool :=
  (s.strand sid).fences.any (fun f => f.items.any (fun r => rangesMeet sid.core r.1 r.2 lo hi))

/-- An access held by a fence waits whole; otherwise the work is done (R169). -/
def State.unlessHeld (s : State) (ranges : List (Nat × Nat)) (work : Run) : Run :=
  if ranges.any (fun r => s.fenced s.cur r.1 r.2) then .ok s else work

/-! ## Where an access goes (R97) -/

/-- What an access reaches. -/
inductive Target where
  | mem (p : Place)
  | reg (off : Nat)
  deriving DecidableEq, Repr

/-- The windows, and then translation, for `n` bytes of one page or window from an address on (R97 steps 2 to 4). -/
def State.reach (s : State) (ea n : Nat) (kind : Access) (hidden : Bool) : Except Trap (Target × State) :=
  match s.window s.cur ea n with
  | .bad c => .error (trapAt c ea)
  | .spad core off => .ok (.mem (spadPlace (s.cred s.cur) ea core off), s)
  | .regs off => .ok (.reg off, s)
  | .outside =>
    match s.locate s.cur ea kind hidden with
    | .error e => .error e
    | .ok (p, s') => .ok (.mem p, s')

/-- The cause of a read that meets an uncorrectable error: 0xF0 in stacked DRAM, 0xF1 in a scratchpad (R331, R353). -/
def poisonCause (loc : Nat) : Cause := if isSpad loc then 0xF1 else 0xF0

/-- The trap of an access of `n` bytes that may not be made to the register space (R39), or that meets an offset there that names no
register (R14, R97 step 2). -/
def State.regTrap (s : State) (ea off n : Nat) : Trap :=
  trapAt (if (List.range n).any (fun i => (regNamed s.me.p (off + i) 1).isNone) then 0x29 else 0x2A) ea

/-- The checks of `n` bytes at the page reached: a write to a sync page, a read or an indivisible operation that meets poison, once the
strand's older stores have entered T (R97 step 5, R103, R153, R331). On a page that is both a sync page and a device page an indivisible
operation traps 0x80: the spec does not order the two causes (DESIGN CHOICE, assumption 99). -/
def State.admits (s : State) (p : Place) (n : Nat) (kind : Access) : Except Trap Unit :=
  if p.sync && kind != .read then .error (trapAt 0x80 p.va)
  else if kind == .modify && decide (p.ca = 2) then .error (trapAt 0x22 p.va)
  else if kind != .write && (s.drain s.cur).mem.poisoned p.cred p.loc n then .error { trapAt (poisonCause p.loc) p.va with drains := true }
  else .ok ()

/-! ## Loads (R96, R154, R155) -/

/-- The byte that a buffered store holds for a location, under a credential. -/
def BufStore.byteAt (m : Mem) (b : BufStore) (c : Cred) (loc : Nat) : Option Byte :=
  if b.cred = c then ((b.placed m).find? (fun e => e.1 == loc)).map (·.2) else none

/-- The buffered store whose byte a load of a strand takes at a location, its own stores having entered T: of the sibling stores that it
has seen and those that a free choice offers, the one retired last (R154, R155; assumption 10). A store is offered with all its bytes, so
that no aligned element is torn (R143). -/
def State.forward (s : State) (sid : StrandId) (c : Cred) (loc : Nat) : Option BufStore :=
  ((s.core sid.core).buffer.filter (fun b => (b.byteAt s.mem c loc).isSome &&
    ((s.strand sid).seen.contains b.id || Config.takeSibling s.free b.id))).getLast?

/-- The byte that a load of a strand returns. -/
def State.loadByte (s : State) (sid : StrandId) (c : Cred) (loc : Nat) : Byte :=
  match (s.forward sid c loc).bind (fun b => b.byteAt s.mem c loc) with
  | some b => b
  | none => s.mem.read s.free c loc

/-- The numbers of the siblings' stores that a load takes bytes from. -/
def State.taken (s : State) (sid : StrandId) (c : Cred) (loc n : Nat) : List Nat :=
  ((List.range n).filterMap (fun i => s.forward sid c (loc + i))).map (·.id)

/-- A buffered store touches some of `n` bytes. -/
def BufStore.touches (m : Mem) (b : BufStore) (loc n : Nat) : Bool :=
  (b.placed m).any (fun e => decide (loc ≤ e.1) && decide (e.1 < loc + n))

/-- Stores that stand before an access in T have entered it: the strand's own older stores (R153), and, for an access that takes nothing
from the buffer, those of siblings that the strand has seen at its bytes (R54, R155). -/
def State.settleLoad (s : State) (sid : StrandId) (loc n : Nat) (nofwd : Bool) : State :=
  let s := s.drain sid
  if nofwd then
    let seen := (s.strand sid).seen
    let who := dedup (((s.core sid.core).buffer.filter (fun b => seen.contains b.id && b.touches s.mem loc n)).map (·.num))
    who.foldl (fun s k => s.drain { sid with num := k }) s
  else s

/-- A read of the executing strand enters T: its bytes, and the state after it. -/
def State.loadNow (s : State) (p : Place) (n : Nat) (nofwd : Bool) (h : Hints) : List Byte × State :=
  let sid := s.cur
  let alone := nofwd || p.ca == 2
  let s := (s.settleLoad sid p.loc n alone).wakeSpad p.loc
  if p.ca = 2 then
    (if isHub p.loc then s.hubBytes p.loc n else s.mem.readBytes s.free p.cred p.loc n, { s with free := s.free + 1 })
  else
    let bytes := (List.range n).map (fun i =>
      if alone then s.mem.read s.free p.cred (p.loc + i) else s.loadByte sid p.cred (p.loc + i))
    let got := if alone then [] else s.taken sid p.cred p.loc n
    let s := if got.isEmpty then s else s.modStrand sid (fun t => { t with seen := got ++ t.seen })
    (bytes, { (s.touch sid.core p h) with free := s.free + 1 })

/-- A load from memory, one access: its bytes, and the state after it. It waits while its miss is held (R327). -/
def State.loadMem (s : State) (p : Place) (n : Nat) (nofwd : Bool) (h : Hints) : Except Trap (List Byte × State) :=
  s.access (fun s => if s.placeHeld p false then .error Trap.wait else .ok (s.loadNow p n nofwd h))

/-! ## Stores (R96, R98, R154) -/

/-- A store retires into the shared store buffer. On a shadowed page it follows the visible frame (R170); a last-use hint acts once it
enters T (R100). -/
def State.buffer (s : State) (p : Place) (cells : List Host.Cell) (lu : Bool) : State :=
  let sid := s.cur
  let b : BufStore :=
    { num := sid.num, id := s.fresh, born := if s.me.got.isEmpty then s.fresh else s.me.bornAt, leaf := p.leaf, cells := cells, cred := p.cred,
      pair := p.pair, last := if lu && p.cached && isDram p.loc then some p.drops else none }
  { (s.modCore sid.core (fun k => { k with buffer := k.buffer ++ [b] })) with fresh := s.fresh + 1 }

/-- A store of the executing strand to bytes of a page's place goes into the store buffer; on a device page it enters T at once, the
strand's older stores before it (R157). -/
def State.storeCells (s : State) (p : Place) (cells : List Host.Cell) (h : Hints) : State :=
  let s := s.touch s.cur.core p { h with wr := true }
  if p.ca = 2 then (s.drain s.cur).store p.cred cells else s.buffer p cells h.lu

/-- A store of the executing strand, one access; on the hub's device registers it acts at once (R157). It waits while its miss is held
(R327). -/
def State.storeAt (s : State) (p : Place) (cells : List Host.Cell) (h : Hints) : Run :=
  (s.access (fun s =>
    if s.placeHeld p true then .error Trap.wait
    else if p.ca = 2 ∧ isHub p.loc then .ok ([], (s.drain s.cur).hubStores cells.length p.loc (cells.map (fun (c : Host.Cell) => c.2)))
    else .ok ([], s.storeCells p cells h))).map (·.2)

/-- A store of consecutive bytes at a place. -/
def State.storeMem (s : State) (p : Place) (bs : List Byte) (h : Hints) : Run := s.storeAt p (cellsAt p.loc bs) h

/-! ## Scalar accesses (R95, R97) -/

/-- A scalar load of `n` bytes. -/
def State.loadScalar (s : State) (ea n : Nat) (nofwd : Bool) (h : Hints) : Except Trap (Nat × State) :=
  if ea % n ≠ 0 then .error (trapAt 0x21 ea)
  else
    match s.reach ea n .read false with
    | .error e => .error e
    | .ok (.reg off, s') => (s'.regRead ea off n).map (fun bs => (leNat bs, s'))
    | .ok (.mem p, s') =>
      match s'.admits p n .read with
      | .error e => .error e
      | .ok _ => (s'.loadMem p n nofwd h).map (fun r => (leNat r.1, r.2))

/-- A scalar store of the low `n` bytes of a value. -/
def State.storeScalar (s : State) (ea n : Nat) (v : Word) (h : Hints) : Run :=
  if ea % n ≠ 0 then .error (trapAt 0x21 ea)
  else
    match s.reach ea n .write false with
    | .error e => .error e
    | .ok (.reg off, s') => s'.regWrite ea off (leBytes n v.toNat)
    | .ok (.mem p, s') =>
      match s'.admits p n .write with
      | .error e => .error e
      | .ok _ => s'.storeMem p (leBytes n v.toNat) h

/-! ## Footprints of many bytes (R127, R142, R143, R182) -/

/-- `[a, a + n)` cut at the multiples of `k`, in ascending order. -/
def cutAt (fuel k a n : Nat) : List (Nat × Nat) :=
  match fuel with
  | 0 => []
  | f + 1 =>
    if n = 0 then []
    else
      let m := Nat.min n (k - a % k)
      (a, m) :: cutAt f k (a + m) (n - m)

/-- A place some bytes further on. -/
def Place.shift (p : Place) (k : Nat) : Place := { p with loc := p.loc + k, va := p.va + k }

/-- What a footprint reaches: places with their lengths, one for each page, or the register space. -/
inductive Foot where
  | mem (parts : List (Place × Nat))
  | reg (off : Nat)
  deriving DecidableEq, Repr

/-- The places of the pages that a list of ranges touches; the first that fails decides, with EVA its lowest byte. -/
def State.locateAll (s : State) (parts : List (Nat × Nat)) (kind : Access) (hidden : Bool) :
    Except Trap (List (Place × Nat) × State) :=
  match parts with
  | [] => .ok ([], s)
  | (a, n) :: rest =>
    match s.locate s.cur (wrap64 a) kind hidden with
    | .error e => .error e
    | .ok (p, s1) =>
      match s1.locateAll rest kind hidden with
      | .error e => .error e
      | .ok (ps, s2) => .ok ((p, n) :: ps, s2)

/-- The windows and the translation of every page for a footprint. -/
def State.reachAll (s : State) (ea n : Nat) (kind : Access) (hidden : Bool) : Except Trap (Foot × State) :=
  match s.window s.cur ea n with
  | .bad c => .error (trapAt c ea)
  | .spad core off => .ok (.mem [(spadPlace (s.cred s.cur) ea core off, n)], s)
  | .regs off => .ok (.reg off, s)
  | .outside =>
    match s.locateAll (cutAt n 4096 ea n) kind hidden with
    | .error e => .error e
    | .ok (ps, s') => .ok (.mem ps, s')

/-- The accesses that a part of a footprint is made of: one for each line, and on uncached and device pages aligned pieces of at
most 8 bytes (R127, R142). Each such piece is the part's share of one aligned 8-byte word, which may be 3, 5, 6 or 7 bytes (DESIGN CHOICE,
assumption 100). -/
def Place.pieces (p : Place) (n : Nat) : List (Place × Nat) :=
  (cutAt n (if p.ca = 0 then 64 else 8) p.loc n).map (fun c => (p.shift (c.1 - p.loc), c.2))

/-- The accesses of a footprint, in ascending order. -/
def piecesOf (parts : List (Place × Nat)) : List (Place × Nat) := (parts.map (fun e => e.1.pieces e.2)).flatten

/-- Every part admits the access (R97 step 5, R331). Where only a later page is a sync page, EVA is its first byte of the footprint
(DESIGN CHOICE, assumption 101). -/
def State.admitsAll (s : State) (parts : List (Place × Nat)) (kind : Access) : Except Trap Unit :=
  match parts with
  | [] => .ok ()
  | (p, n) :: rest =>
    match s.admits p n kind with
    | .error e => .error e
    | .ok _ => s.admitsAll rest kind

/-- Loads a list of accesses in order. -/
def State.loadAll (s : State) (parts : List (Place × Nat)) (nofwd : Bool) (h : Hints) : Except Trap (List Byte × State) :=
  match parts with
  | [] => .ok ([], s)
  | (p, n) :: rest =>
    match s.loadMem p n nofwd h with
    | .error e => .error e
    | .ok r =>
      match r.2.loadAll rest nofwd h with
      | .error e => .error e
      | .ok q => .ok (r.1 ++ q.1, q.2)

/-- Stores bytes through a list of accesses in order. -/
def State.storeAll (s : State) (parts : List (Place × Nat)) (bs : List Byte) (h : Hints) : Run :=
  match parts with
  | [] => .ok s
  | (p, n) :: rest =>
    match s.storeMem p (bs.take n) h with
    | .error e => .error e
    | .ok s' => s'.storeAll rest (bs.drop n) h

/-- The bytes of a list of places, read at one point of T: one access (R152). It waits while a miss of one of them is held (R327). -/
def State.loadOnce (s : State) (parts : List (Place × Nat)) : Except Trap (List Byte × State) :=
  s.access (fun s =>
    if parts.any (fun e => s.placeHeld e.1 false) then .error Trap.wait
    else .ok (parts.foldl (fun r e => let q := r.2.loadNow e.1 e.2 false {}; (r.1 ++ q.1, q.2)) ([], s)))

/-- One synchronous read of `n` bytes, checked by R97 (R218, R219, R223, R238). -/
def State.readSpan (s : State) (ea n al : Nat) : Except Trap (List Byte × State) :=
  if ea % al ≠ 0 then .error (trapAt 0x21 ea)
  else
    match s.reachAll ea n .read false with
    | .error e => .error e
    | .ok (.reg off, _) => .error (s.regTrap ea off n)
    | .ok (.mem ps, s') =>
      match s'.admitsAll (piecesOf ps) .read with
      | .error e => .error e
      | .ok _ => (s'.pin (ps.map (·.1))).loadOnce (piecesOf ps)

/-! ## Indivisible operations at a home (R101-R106) -/

/-- An indivisible operation at a place is about to be performed there: every older store of the strand, and the stores of siblings that
it has seen there, have entered T (R102, R155), and the line is at its home. It waits while its miss is held (R327). -/
def State.atPlace (s : State) (p : Place) (n : Nat) : Except Trap (Place × State) :=
  if s.placeHeld p true then .error Trap.wait
  else .ok (p, ((s.settleLoad s.cur p.loc n true).wakeSpad p.loc).touch s.cur.core p { wr := true })

/-- The checks of an atomic or full/empty operation on `n` bytes: its place, and the state at its point in T (R102, R103, R106). -/
def State.reachHome (s : State) (ea n : Nat) : Except Trap (Place × State) :=
  if ea % n ≠ 0 then .error (trapAt 0x21 ea)
  else
    match s.reach ea n .modify false with
    | .error e => .error e
    | .ok (.reg off, _) => .error (s.regTrap ea off n)
    | .ok (.mem p, s') =>
      match s'.admits p n .modify with
      | .error e => .error e
      | .ok _ => s'.atPlace p n

/-- Memory with the full/empty bit of a word set, the word claimed for the writer, and the rounds that the change starts
(R98, R105, R269). -/
def State.setFe (s : State) (c : Cred) (loc : Nat) (full : Bool) : State :=
  let s := s.soil (loc / 64)
  ({ s with mem := (s.mem.take s.free c loc).setFull full loc }).roundsAt [loc]

end Sys2Proof.Machine
end

