-- ==== Sys2Proof/Machine/Atomic.lean ====
section
/-! DEFINITION. Atomics (R101-R103). -/

namespace Sys2Proof.Machine

/-- An atomic at its home (R101): `f` takes the old value, the operand and the compare value, and answers what is written, if
anything is. -/
def State.amo (f : (n : Nat) → BitVec n → BitVec n → BitVec n → Option (BitVec n)) (d a b : IntReg) (w : BitVec 1) (s : State) : Run :=
  let n := if w = 1 then 8 else 4
  let ea := (s.x a).toNat
  let v : BitVec (8 * n) := BitVec.ofNat (8 * n) (s.x b).toNat
  let c : BitVec (8 * n) := BitVec.ofNat (8 * n) (s.x d).toNat
  s.unlessHeld [(ea, ea + n)]
    (match s.reachHome ea n with
     | .error e => .error e
     | .ok (p, s') =>
       let old := s'.mem.readNat s'.free p.cred p.loc n
       let t := match f (8 * n) (BitVec.ofNat (8 * n) old) v c with
         | some new => s'.store p.cred (cellsAt p.loc (leBytes n new.toNat))
         | none => s'
       .ok (({ t with free := t.free + 1 }).setX d (sext (8 * n) old)).retire)

/-- R101: `amo.swap`. -/
def execAmoSwap (d a b : IntReg) (w : BitVec 1) (s : State) : Host.Outcome State Fault Refusal :=
  word plain false (State.amo (fun _ _ b _ => some b) d a b w) s

/-- R101: `amo.cas`. -/
def execAmoCas (d a b : IntReg) (w : BitVec 1) (s : State) : Host.Outcome State Fault Refusal :=
  word plain false (State.amo (fun _ old b c => if old = c then some b else none) d a b w) s

/-- R101: `amo.add`. -/
def execAmoAdd (d a b : IntReg) (w : BitVec 1) (s : State) : Host.Outcome State Fault Refusal :=
  word plain false (State.amo (fun _ old b _ => some (old + b)) d a b w) s

/-- R101: `amo.and`. -/
def execAmoAnd (d a b : IntReg) (w : BitVec 1) (s : State) : Host.Outcome State Fault Refusal :=
  word plain false (State.amo (fun _ old b _ => some (old &&& b)) d a b w) s

/-- R101: `amo.or`. -/
def execAmoOr (d a b : IntReg) (w : BitVec 1) (s : State) : Host.Outcome State Fault Refusal :=
  word plain false (State.amo (fun _ old b _ => some (old ||| b)) d a b w) s

/-- R101: `amo.xor`. -/
def execAmoXor (d a b : IntReg) (w : BitVec 1) (s : State) : Host.Outcome State Fault Refusal :=
  word plain false (State.amo (fun _ old b _ => some (old ^^^ b)) d a b w) s

/-- R101: `amo.min`. -/
def execAmoMin (d a b : IntReg) (w : BitVec 1) (s : State) : Host.Outcome State Fault Refusal :=
  word plain false (State.amo (fun _ old b _ => some (if b.slt old then b else old)) d a b w) s

/-- R101: `amo.max`. -/
def execAmoMax (d a b : IntReg) (w : BitVec 1) (s : State) : Host.Outcome State Fault Refusal :=
  word plain false (State.amo (fun _ old b _ => some (if old.slt b then b else old)) d a b w) s

/-- R101: `amo.minu`. -/
def execAmoMinu (d a b : IntReg) (w : BitVec 1) (s : State) : Host.Outcome State Fault Refusal :=
  word plain false (State.amo (fun _ old b _ => some (if b.ult old then b else old)) d a b w) s

/-- R101: `amo.maxu`. -/
def execAmoMaxu (d a b : IntReg) (w : BitVec 1) (s : State) : Host.Outcome State Fault Refusal :=
  word plain false (State.amo (fun _ old b _ => some (if old.ult b then b else old)) d a b w) s

end Sys2Proof.Machine
end

