-- ==== Sys2Proof/Machine/Barrier.lean ====
section
/-! DEFINITION. Barriers (R247-R254). -/

namespace Sys2Proof.Machine

/-- ARRIVED. -/
def barArrived (w : Nat) : Nat := bitsAt w 0 16
/-- EXPECTED. -/
def barExpected (w : Nat) : Nat := bitsAt w 16 16
/-- GEN. -/
def barGen (w : Nat) : Nat := bitsAt w 32 32

/-- The word that opens the generation after `w`'s, with a count. -/
def barOpen (w n : Nat) : Nat := (barGen w + 1) % 2 ^ 32 * 2 ^ 32 + n * 2 ^ 16

/-- The translation of a barrier's address (R250 step 4): read permission, and write permission for a form that writes. -/
def State.barLocate (s : State) (ea : Nat) (writes : Bool) : Except Trap (Place × State) :=
  match s.locate s.cur ea .read false with
  | .error e => .error e
  | .ok (p, s') => if writes then s'.locate s'.cur ea .write false else .ok (p, s')

/-- The checks of R250, steps 1 to 7, and of R331; `count` is what `bar.init` is given. The strand's older stores have entered T
(R252). -/
def State.reachBarrier (s : State) (ea : Nat) (writes : Bool) (count : Option Nat) : Except Trap (Place × State) :=
  if ea % 8 ≠ 0 then .error (trapAt 0x21 ea)
  else
    match s.window s.cur ea 8 with
    | .regs _ => .error (trapAt 0x2A ea)
    | .bad c => .error (trapAt c ea)
    | .spad _ _ => .error (trapAt 0x81 ea)
    | .outside =>
      match s.barLocate ea writes with
      | .error e => .error e
      | .ok (p, s1) =>
        if !p.sync || p.shadow then .error (trapAt 0x81 ea)
        else if p.ca = 2 then .error (trapAt 0x22 ea)
        else if count.any (fun n => decide (n = 0) || decide (0xFFFF < n)) then .error (trapAt 0x82 ea)
        else if (s1.drain s1.cur).mem.poisoned p.cred p.loc 8 then .error { trapAt 0xF0 ea with drains := true }
        else s1.atPlace p 8

/-- The work of a barrier form at its home. -/
def State.atBarrier (ea : Nat) (writes : Bool) (count : Option Nat) (work : Place → Nat → State → Run) (s : State) : Run :=
  s.unlessHeld [(ea, ea + 8)]
    (match s.reachBarrier ea writes count with
     | .error e => .error e
     | .ok (p, s1) => work p (s1.mem.readNat s1.free p.cred p.loc 8) { s1 with free := s1.free + 1 })

/-- A parked waiter's reference generation differs from the new one (R253). -/
def Waiter.passes (loc : Nat) (gen : BitVec 32) (w : Waiter) : Bool :=
  match w.wait with
  | .barrier _ _ l g => l == loc && g != gen
  | _ => false

/-- The wake round at a word (R253): every waiter whose reference differs from the new generation is served. -/
def State.wakeRound (s : State) (loc : Nat) (gen : BitVec 32) : State :=
  let served := s.waiters.filter (Waiter.passes loc gen)
  let s := { s with waiters := s.waiters.filter (fun w => !w.passes loc gen) }
  served.foldl (fun s w => s.modStrand w.who (fun t => { t with served := some (BitVec.ofNat 64 gen.toNat) })) s

/-- The barrier word is written at its home; a new generation starts a wake round. -/
def State.writeBarrier (s : State) (p : Place) (w : Nat) (wake : Bool) : State :=
  let s := s.store p.cred (cellsAt p.loc (leBytes 8 w))
  if wake then s.wakeRound p.loc (BitVec.ofNat 32 (barGen w)) else s

/-- One arrival (R251): the word after it, and whether it completed the generation. -/
def barArrive (w : Nat) : Nat × Bool :=
  if barArrived w + 1 = barExpected w then (barOpen w (barExpected w), true) else (w + 1, false)

/-- The executing strand waits for the generation to differ from `g` (R251, R254). -/
def State.waitBarrier (s : State) (arrived : Bool) (d : IntReg) (p : Place) (g : BitVec 32) : Run :=
  let w : Wait := .barrier arrived d p.loc g
  let q : Waiter := { who := s.cur, wait := w, data := 0, cred := p.cred }
  ({ s with waiters := s.waiters ++ [q] }).parkOr68 w

/-- R251: `bar.init`. -/
def execBarInit (a n : IntReg) (s : State) : Host.Outcome State Fault Refusal :=
  word plain false (fun s => s.atBarrier (s.x a).toNat true (some (s.x n).toNat) (fun p w t =>
    .ok (t.writeBarrier p (barOpen w (s.x n).toNat) true).retire)) s

/-- The trap of an arrival at a word with EXPECTED = 0: the step at the home has seen the word, after the strand's older stores (R250 step 8,
R252). -/
def barUninit (ea : Nat) : Trap := { trapAt 0x83 ea with drains := true }

/-- R251: `bar.arr`. -/
def execBarArr (d a : IntReg) (s : State) : Host.Outcome State Fault Refusal :=
  word plain false (fun s => s.atBarrier (s.x a).toNat true none (fun p w t =>
    if barExpected w = 0 then .error (barUninit (s.x a).toNat)
    else
      let r := barArrive w
      .ok ((t.writeBarrier p r.1 r.2).setX d (BitVec.ofNat 64 (flag r.2 * 2 ^ 32 + barGen w))).retire)) s

/-- R251: `bar.wait`. -/
def execBarWait (d a g : IntReg) (s : State) : Host.Outcome State Fault Refusal :=
  word plain false (fun s => s.atBarrier (s.x a).toNat false none (fun p w t =>
    let ref := BitVec.ofNat 32 (s.x g).toNat
    if barGen w ≠ ref.toNat then .ok (t.setX d (BitVec.ofNat 64 (barGen w))).retire
    else t.waitBarrier false d p ref)) s

/-- R251: `bar.aw`. -/
def execBarAw (d a : IntReg) (s : State) : Host.Outcome State Fault Refusal :=
  word plain false (fun s => s.atBarrier (s.x a).toNat true none (fun p w t =>
    if barExpected w = 0 then .error (barUninit (s.x a).toNat)
    else
      let r := barArrive w
      let t := t.writeBarrier p r.1 r.2
      if r.2 then .ok (t.setX d (BitVec.ofNat 64 (barGen r.1))).retire
      else t.waitBarrier true d p (BitVec.ofNat 32 (barGen w)))) s

/-- R251: `bar.query`. -/
def execBarQuery (d a : IntReg) (s : State) : Host.Outcome State Fault Refusal :=
  word plain false (fun s => s.atBarrier (s.x a).toNat false none (fun _ w t => .ok (t.setX d (BitVec.ofNat 64 w)).retire)) s

end Sys2Proof.Machine
end

