-- ==== Sys2Proof/WellFormed.lean ====
section
/-! DEFINITION. Which terms of Instr are instructions: the operand values that an encoding admits (R49, R50, R55, R57, R140,
R148, R216, R223, R237), and which constructors have a word at all. -/

namespace Sys2Proof

/-- The constructor is an event of the table: no word encodes it. -/
def Instr.isEvent (i : Instr) : Bool :=
  match i with
  | .nonInstructionWord .. => true
  | .takeInterrupt .. => true
  | .hostInterruptMessage .. => true
  | .strandWake .. => true
  | .standbyUrgentStart .. => true
  | .chainMessageStart .. => true
  | .nudgeExpiry .. => true
  | .starvationToken .. => true
  | .retentionEntry .. => true
  | .retentionWake .. => true
  | .wfeDeadline .. => true
  | .yieldTimeout .. => true
  | .storeBufferDrain .. => true
  | .leaseExpiry .. => true
  | .fenceSatisfied .. => true
  | .copyIssue .. => true
  | .copyRead .. => true
  | .copyWrite .. => true
  | .copyFault .. => true
  | .copyComplete .. => true
  | .packetInject .. => true
  | .landingPacketArrival .. => true
  | .landingHandlerStart .. => true
  | .publishFlip .. => true
  | .engineTurnStart .. => true
  | .engineEntryAgeing .. => true
  | .kblockBoundary .. => true
  | .engineCompletion .. => true
  | .stealRound .. => true
  | .spreadFloodAccept .. => true
  | .pageWalkComplete .. => true
  | .faultPost .. => true
  | .invalidationPoint .. => true
  | .invalidationAck .. => true
  | .attachCoreReset .. => true
  | .evictSave .. => true
  | .swapSave .. => true
  | .build .. => true
  | .attach .. => true
  | .evict .. => true
  | .restore .. => true
  | .swap .. => true
  | .haltCommand .. => true
  | .destroy .. => true
  | .qenable .. => true
  | .qresume .. => true
  | .qdisable .. => true
  | .ttload .. => true
  | .ttTableSwitch .. => true
  | .ttSlotOpen .. => true
  | .ttSlotEnd .. => true
  | .frontEndRead .. => true
  | .packetRoot .. => true
  | .packetSpread .. => true
  | .packetUnload .. => true
  | .packetWaitval .. => true
  | .packetSignal .. => true
  | .packetNop .. => true
  | .kload .. => true
  | .kernelVerify .. => true
  | .kernelInstall .. => true
  | .krelease .. => true
  | .kquery .. => true
  | .kpurge .. => true
  | .fuseraise .. => true
  | .attest .. => true
  | .debugset .. => true
  | .debugAccess .. => true
  | .ratioChange .. => true
  | .ratioQuiesceEnd .. => true
  | .memcfgLocal .. => true
  | .memcfgShways .. => true
  | .siltMissFill .. => true
  | .siltWriteback .. => true
  | .dpctlEnable .. => true
  | .dpctlReset .. => true
  | .sockidWrite .. => true
  | .peerDetected .. => true
  | .portTrained .. => true
  | .trainingTimeout .. => true
  | .laneFailure .. => true
  | .flitReceive .. => true
  | .portFenceTimeout .. => true
  | .hostPostedWrite .. => true
  | .hostRead .. => true
  | .ptpMessage .. => true
  | .blackBoxWrite .. => true
  | .bbctlUnfreeze .. => true
  | .cpwrPstate .. => true
  | .pstateChangeComplete .. => true
  | .cpwrCmax .. => true
  | .cstateEntry .. => true
  | .clusterWake .. => true
  | .powerThrottle .. => true
  | .powerThrottleRelease .. => true
  | .thermalSample .. => true
  | .refclkLoss .. => true
  | .railFault .. => true
  | .coldReset .. => true
  | .warmReset .. => true
  | .resetRelease .. => true
  | .bringupPhase .. => true
  | .registerWrite .. => true
  | .fetchFault .. => true
  | .softError .. => true
  | .translationObtained .. => true
  | _ => false

/-- The operand values are ones the encoding assigns: a field outside them traps 0x02 or 0x04 at decode. -/
def Instr.fieldsOk (i : Instr) : Bool :=
  match i with
  | .hsched b _ u => (b != 3 && u != 3)
  | .fmt _ _ _ r _ => (r != 7)
  | .ld _ _ s _ _ _ => (s != 7)
  | .st _ _ s _ _ _ => (s == 0 || s == 2 || s == 4 || s == 6)
  | .ldx _ _ s _ _ _ => (s != 7)
  | .stx _ _ s _ _ _ => (s == 0 || s == 2 || s == 4 || s == 6)
  | .vfadd _ _ _ _ w => (decide (w.toNat < 6))
  | .vfsub _ _ _ _ w => (decide (w.toNat < 6))
  | .vfmul _ _ _ _ w => (decide (w.toNat < 6))
  | .vfdiv _ _ _ _ w => (decide (w.toNat < 6))
  | .vfsqrt _ _ _ w => (decide (w.toNat < 6))
  | .vfma _ _ _ _ w => (decide (w.toNat < 6))
  | .vfmin _ _ _ _ w => (decide (w.toNat < 6))
  | .vfmax _ _ _ _ w => (decide (w.toNat < 6))
  | .vfcmpEq _ _ _ _ w => (decide (w.toNat < 6))
  | .vfcmpLt _ _ _ _ w => (decide (w.toNat < 6))
  | .vfcmpLe _ _ _ _ w => (decide (w.toNat < 6))
  | .vfcmpUn _ _ _ _ w => (decide (w.toNat < 6))
  | .vfcvt _ _ s _ w => (decide (w.toNat < 6) && decide (s.toNat < 6))
  | .vgathT _ _ _ k _ => (k != 0)
  | .vredEw _ _ _ _ w => (decide (w.toNat < 4) || w == 7)
  | .acld x y _ _ _ => (decide (x.toNat < 4) && decide (y.toNat < 4))
  | .acst x y _ _ _ => (decide (x.toNat < 4) && decide (y.toNat < 4))
  | .tmma _ _ x y => (decide (x.toNat < 4) && decide (y.toNat < 4))
  | .aczero x y => (decide (x.toNat < 4) && decide (y.toNat < 4))
  | .acmov r c x y => (decide (r.toNat < 4) && decide (c.toNat < 4) && decide (x.toNat < 4) && decide (y.toNat < 4))
  | .sendh _ _ b => (b != 31)
  | .sendr _ _ b => (b != 31)
  | .fenceH _ n => (decide (1 ≤ n.toNat) && decide (n.toNat ≤ 4))
  | .fenceL _ n => (decide (1 ≤ n.toNat) && decide (n.toNat ≤ 4))
  | .grank _ a g => (g == 1 || a == 0)
  | .csrr _ n => (decide (n.toNat < 18))
  | .csrw _ _ n => (decide (n.toNat < 18))
  | .csrs _ _ n => (decide (n.toNat < 18))
  | .csrc _ _ n => (decide (n.toNat < 18))
  | _ => true

/-- A well-formed instruction word: not an event, and every field has an assigned value. -/
def Instr.wellFormed (i : Instr) : Bool := !i.isEvent && i.fieldsOk

end Sys2Proof
end

