-- ==== Sys2Proof/Decode.lean ====
section
/-! DEFINITION. The decoder (R44-R61): total on every 32-bit word; a word that is not an instruction is rejected with the
cause of R60, the first in the order of R61. After it the encoder, written from the same layouts (R46), and the reading of
an instruction's bits as spec/opcode_table.json numbers them. -/

namespace Sys2Proof

/-- Bits [lo + n - 1 : lo] of a word, as a number. -/
def fldN (w : IWord) (lo n : Nat) : Nat := w.toNat / 2 ^ lo % 2 ^ n

/-- Bits [lo + n - 1 : lo] of a word, as a field. -/
def fld (w : IWord) (lo n : Nat) : BitVec n := BitVec.ofNat n (w.toNat / 2 ^ lo)

/-- Bits [lo + n - 1 : lo] of a word are zero. -/
def z (w : IWord) (lo n : Nat) : Bool := fldN w lo n == 0

/-- Cause 0x04 unless the reserved fields are zero (R6, R60). -/
def need4 (ok : Bool) (i : Instr) : Except Cause Instr := if ok then .ok i else .error 0x04

/-- Cause 0x02 unless the minor is assigned (R57). -/
def need2 (ok : Bool) (r : Except Cause Instr) : Except Cause Instr := if ok then r else .error 0x02

/-- Major 0x01, hint words (R50-R55). -/
def decode01 (w : IWord) : Except Cause Instr :=
  match fldN w 24 2 with
  | 0 => .ok (.himm (fld w 0 24))
  | 1 => need4 ((z w 0 19) && ((fld w 22 2) != 3 && (fld w 19 2) != 3)) (.hsched (fld w 22 2) (fld w 21 1) (fld w 19 2))
  | 2 =>
    match fldN w 16 8 with
    | 1 => need4 (z w 0 16) .hmodNofwd
    | 2 => need4 (z w 0 16) .hmodL1na
    | _ => .error 0x02
  | _ => need4 ((z w 4 8) && ((fld w 1 3) != 7)) (.fmt (fld w 20 4) (fld w 16 4) (fld w 12 4) (fld w 1 3) (fld w 0 1))

/-- Major 0x02 (R89, R57). -/
def decode02 (w : IWord) : Except Cause Instr :=
  match fldN w 0 8 with
  | 0x00 => .ok (.add (fld w 20 6) (fld w 14 6) (fld w 8 6))
  | 0x01 => .ok (.sub (fld w 20 6) (fld w 14 6) (fld w 8 6))
  | 0x02 => .ok (.and (fld w 20 6) (fld w 14 6) (fld w 8 6))
  | 0x03 => .ok (.or (fld w 20 6) (fld w 14 6) (fld w 8 6))
  | 0x04 => .ok (.xor (fld w 20 6) (fld w 14 6) (fld w 8 6))
  | 0x05 => .ok (.andn (fld w 20 6) (fld w 14 6) (fld w 8 6))
  | 0x06 => .ok (.orn (fld w 20 6) (fld w 14 6) (fld w 8 6))
  | 0x07 => .ok (.xnor (fld w 20 6) (fld w 14 6) (fld w 8 6))
  | 0x08 => .ok (.sll (fld w 20 6) (fld w 14 6) (fld w 8 6))
  | 0x09 => .ok (.srl (fld w 20 6) (fld w 14 6) (fld w 8 6))
  | 0x0A => .ok (.sra (fld w 20 6) (fld w 14 6) (fld w 8 6))
  | 0x0B => .ok (.rol (fld w 20 6) (fld w 14 6) (fld w 8 6))
  | 0x0C => .ok (.ror (fld w 20 6) (fld w 14 6) (fld w 8 6))
  | 0x0D => .ok (.slt (fld w 20 6) (fld w 14 6) (fld w 8 6))
  | 0x0E => .ok (.sltu (fld w 20 6) (fld w 14 6) (fld w 8 6))
  | 0x0F => .ok (.min (fld w 20 6) (fld w 14 6) (fld w 8 6))
  | 0x10 => .ok (.max (fld w 20 6) (fld w 14 6) (fld w 8 6))
  | 0x11 => .ok (.minu (fld w 20 6) (fld w 14 6) (fld w 8 6))
  | 0x12 => .ok (.maxu (fld w 20 6) (fld w 14 6) (fld w 8 6))
  | 0x13 => .ok (.mul (fld w 20 6) (fld w 14 6) (fld w 8 6))
  | 0x14 => .ok (.mulh (fld w 20 6) (fld w 14 6) (fld w 8 6))
  | 0x15 => .ok (.mulhu (fld w 20 6) (fld w 14 6) (fld w 8 6))
  | 0x16 => .ok (.mulhsu (fld w 20 6) (fld w 14 6) (fld w 8 6))
  | 0x17 => .ok (.div (fld w 20 6) (fld w 14 6) (fld w 8 6))
  | 0x18 => .ok (.divu (fld w 20 6) (fld w 14 6) (fld w 8 6))
  | 0x19 => .ok (.rem (fld w 20 6) (fld w 14 6) (fld w 8 6))
  | 0x1A => .ok (.remu (fld w 20 6) (fld w 14 6) (fld w 8 6))
  | 0x1B => need4 ((z w 8 6)) (.clz (fld w 20 6) (fld w 14 6))
  | 0x1C => need4 ((z w 8 6)) (.ctz (fld w 20 6) (fld w 14 6))
  | 0x1D => need4 ((z w 8 6)) (.popc (fld w 20 6) (fld w 14 6))
  | 0x1E => need4 ((z w 8 6)) (.bswap (fld w 20 6) (fld w 14 6))
  | 0x1F => .ok (.sel (fld w 20 6) (fld w 14 6) (fld w 8 6))
  | _ => .error 0x02

/-- Major 0x03 (R92). -/
def decode03 (w : IWord) : Except Cause Instr :=
  .ok (.addi (fld w 20 6) (fld w 14 6) (fld w 0 14))

/-- Major 0x04 (R92). -/
def decode04 (w : IWord) : Except Cause Instr :=
  .ok (.andi (fld w 20 6) (fld w 14 6) (fld w 0 14))

/-- Major 0x05 (R92). -/
def decode05 (w : IWord) : Except Cause Instr :=
  .ok (.ori (fld w 20 6) (fld w 14 6) (fld w 0 14))

/-- Major 0x06 (R92). -/
def decode06 (w : IWord) : Except Cause Instr :=
  .ok (.xori (fld w 20 6) (fld w 14 6) (fld w 0 14))

/-- Major 0x07 (R93, R57). -/
def decode07 (w : IWord) : Except Cause Instr :=
  match fldN w 12 2 with
  | 0x00 => need4 ((z w 6 6)) (.slli (fld w 20 6) (fld w 14 6) (fld w 0 6))
  | 0x01 => need4 ((z w 6 6)) (.srli (fld w 20 6) (fld w 14 6) (fld w 0 6))
  | 0x02 => need4 ((z w 6 6)) (.srai (fld w 20 6) (fld w 14 6) (fld w 0 6))
  | _ => need4 ((z w 6 6)) (.rori (fld w 20 6) (fld w 14 6) (fld w 0 6))

/-- Major 0x08 (R94). -/
def decode08 (w : IWord) : Except Cause Instr :=
  .ok (.lih (fld w 20 6) (fld w 14 6) (fld w 0 14))

/-- Major 0x09 (R92). -/
def decode09 (w : IWord) : Except Cause Instr :=
  .ok (.slti (fld w 20 6) (fld w 14 6) (fld w 0 14))

/-- Major 0x0A (R92). -/
def decode0A (w : IWord) : Except Cause Instr :=
  .ok (.sltiu (fld w 20 6) (fld w 14 6) (fld w 0 14))

/-- Major 0x0B (R92). -/
def decode0B (w : IWord) : Except Cause Instr :=
  .ok (.muli (fld w 20 6) (fld w 14 6) (fld w 0 14))

/-- Major 0x0C (R95, R49, R99): SIZE 111 is `pf`. -/
def decode0C (w : IWord) : Except Cause Instr :=
  match fldN w 11 3 with
  | 7 => need4 (z w 20 6) (.pf (fld w 14 6) (fld w 9 2) (fld w 8 1) (fld w 0 8))
  | _ => .ok (.ld (fld w 20 6) (fld w 14 6) (fld w 11 3) (fld w 9 2) (fld w 8 1) (fld w 0 8))

/-- Major 0x0D (R95). -/
def decode0D (w : IWord) : Except Cause Instr :=
  need2 (((fld w 11 3) == 0 || (fld w 11 3) == 2 || (fld w 11 3) == 4 || (fld w 11 3) == 6)) (.ok (.st (fld w 20 6) (fld w 14 6) (fld w 11 3) (fld w 9 2) (fld w 8 1) (fld w 0 8)))

/-- Major 0x0E (R95, R49, R99): SIZE 111 is `pf`. -/
def decode0E (w : IWord) : Except Cause Instr :=
  match fldN w 11 3 with
  | 7 => need4 (z w 0 2 && z w 20 6) (.pfIndexed (fld w 14 6) (fld w 9 2) (fld w 8 1) (fld w 2 6))
  | _ => need4 (z w 0 2) (.ldx (fld w 20 6) (fld w 14 6) (fld w 11 3) (fld w 9 2) (fld w 8 1) (fld w 2 6))

/-- Major 0x0F (R95). -/
def decode0F (w : IWord) : Except Cause Instr :=
  need2 (((fld w 11 3) == 0 || (fld w 11 3) == 2 || (fld w 11 3) == 4 || (fld w 11 3) == 6)) (need4 ((z w 0 2)) (.stx (fld w 20 6) (fld w 14 6) (fld w 11 3) (fld w 9 2) (fld w 8 1) (fld w 2 6)))

/-- Major 0x10 (R101, R57). -/
def decode10 (w : IWord) : Except Cause Instr :=
  match fldN w 0 7 with
  | 0x00 => .ok (.amoSwap (fld w 20 6) (fld w 14 6) (fld w 8 6) (fld w 7 1))
  | 0x01 => .ok (.amoCas (fld w 20 6) (fld w 14 6) (fld w 8 6) (fld w 7 1))
  | 0x02 => .ok (.amoAdd (fld w 20 6) (fld w 14 6) (fld w 8 6) (fld w 7 1))
  | 0x03 => .ok (.amoAnd (fld w 20 6) (fld w 14 6) (fld w 8 6) (fld w 7 1))
  | 0x04 => .ok (.amoOr (fld w 20 6) (fld w 14 6) (fld w 8 6) (fld w 7 1))
  | 0x05 => .ok (.amoXor (fld w 20 6) (fld w 14 6) (fld w 8 6) (fld w 7 1))
  | 0x06 => .ok (.amoMin (fld w 20 6) (fld w 14 6) (fld w 8 6) (fld w 7 1))
  | 0x07 => .ok (.amoMax (fld w 20 6) (fld w 14 6) (fld w 8 6) (fld w 7 1))
  | 0x08 => .ok (.amoMinu (fld w 20 6) (fld w 14 6) (fld w 8 6) (fld w 7 1))
  | 0x09 => .ok (.amoMaxu (fld w 20 6) (fld w 14 6) (fld w 8 6) (fld w 7 1))
  | _ => .error 0x02

/-- Major 0x11 (R104, R57). -/
def decode11 (w : IWord) : Except Cause Instr :=
  match fldN w 0 8 with
  | 0x00 => need4 ((z w 8 6)) (.ldc (fld w 20 6) (fld w 14 6))
  | 0x01 => need4 ((z w 20 6)) (.stp (fld w 14 6) (fld w 8 6))
  | 0x02 => need4 ((z w 8 6)) (.ldf (fld w 20 6) (fld w 14 6))
  | 0x03 => need4 ((z w 8 6) && (z w 20 6)) (.feSet (fld w 14 6))
  | 0x04 => need4 ((z w 8 6) && (z w 20 6)) (.feFill (fld w 14 6))
  | 0x05 => need4 ((z w 8 6)) (.feProbe (fld w 20 6) (fld w 14 6))
  | _ => .error 0x02

/-- Major 0x12 (R108). -/
def decode12 (w : IWord) : Except Cause Instr :=
  .ok (.beq (fld w 20 6) (fld w 14 6) (fld w 0 14))

/-- Major 0x13 (R108). -/
def decode13 (w : IWord) : Except Cause Instr :=
  .ok (.bne (fld w 20 6) (fld w 14 6) (fld w 0 14))

/-- Major 0x14 (R108). -/
def decode14 (w : IWord) : Except Cause Instr :=
  .ok (.blt (fld w 20 6) (fld w 14 6) (fld w 0 14))

/-- Major 0x15 (R108). -/
def decode15 (w : IWord) : Except Cause Instr :=
  .ok (.bge (fld w 20 6) (fld w 14 6) (fld w 0 14))

/-- Major 0x16 (R108). -/
def decode16 (w : IWord) : Except Cause Instr :=
  .ok (.bltu (fld w 20 6) (fld w 14 6) (fld w 0 14))

/-- Major 0x17 (R108). -/
def decode17 (w : IWord) : Except Cause Instr :=
  .ok (.bgeu (fld w 20 6) (fld w 14 6) (fld w 0 14))

/-- Major 0x18 (R109). -/
def decode18 (w : IWord) : Except Cause Instr :=
  .ok (.j (fld w 0 26))

/-- Major 0x19 (R109). -/
def decode19 (w : IWord) : Except Cause Instr :=
  .ok (.call (fld w 0 26))

/-- Major 0x1A (R110, R57). -/
def decode1A (w : IWord) : Except Cause Instr :=
  match fldN w 0 8 with
  | 0x00 => need4 ((z w 8 6) && (z w 20 6)) (.jr (fld w 14 6))
  | 0x01 => need4 ((z w 8 6) && (z w 20 6)) (.callr (fld w 14 6))
  | 0x02 => need4 ((z w 8 18)) (.ret)
  | _ => .error 0x02

/-- Major 0x1C (R115, R57). -/
def decode1C (w : IWord) : Except Cause Instr :=
  match fldN w 0 6 with
  | 0x00 => need4 ((z w 6 5)) (.fadd (fld w 21 5) (fld w 16 5) (fld w 11 5))
  | 0x01 => need4 ((z w 6 5)) (.fsub (fld w 21 5) (fld w 16 5) (fld w 11 5))
  | 0x02 => need4 ((z w 6 5)) (.fmul (fld w 21 5) (fld w 16 5) (fld w 11 5))
  | 0x03 => need4 ((z w 6 5)) (.fdiv (fld w 21 5) (fld w 16 5) (fld w 11 5))
  | 0x04 => need4 ((z w 6 10)) (.fsqrt (fld w 21 5) (fld w 16 5))
  | 0x05 => .ok (.fma (fld w 21 5) (fld w 16 5) (fld w 11 5) (fld w 6 5))
  | 0x06 => .ok (.fms (fld w 21 5) (fld w 16 5) (fld w 11 5) (fld w 6 5))
  | 0x07 => .ok (.fnma (fld w 21 5) (fld w 16 5) (fld w 11 5) (fld w 6 5))
  | 0x08 => need4 ((z w 6 5)) (.fmin (fld w 21 5) (fld w 16 5) (fld w 11 5))
  | 0x09 => need4 ((z w 6 5)) (.fmax (fld w 21 5) (fld w 16 5) (fld w 11 5))
  | 0x0A => .ok (.ftwosum (fld w 21 5) (fld w 16 5) (fld w 11 5) (fld w 6 5))
  | 0x0B => .ok (.ftwoprod (fld w 21 5) (fld w 16 5) (fld w 11 5) (fld w 6 5))
  | 0x0C => need4 ((z w 6 10)) (.fround (fld w 21 5) (fld w 16 5))
  | 0x0D => need4 ((z w 6 5)) (.fscale (fld w 21 5) (fld w 16 5) (fld w 11 5))
  | 0x0E => need4 ((z w 6 10)) (.fmov (fld w 21 5) (fld w 16 5))
  | 0x0F => need4 ((z w 6 10)) (.fneg (fld w 21 5) (fld w 16 5))
  | 0x10 => need4 ((z w 6 10)) (.fabs (fld w 21 5) (fld w 16 5))
  | _ => .error 0x02

/-- Major 0x1D (R126, R57). -/
def decode1D (w : IWord) : Except Cause Instr :=
  match fldN w 12 3 with
  | 0x00 => .ok (.fld (fld w 21 5) (fld w 15 6) (fld w 0 12))
  | 0x01 => .ok (.fst (fld w 21 5) (fld w 15 6) (fld w 0 12))
  | 0x02 => need4 ((z w 0 6)) (.fldS (fld w 21 5) (fld w 15 6) (fld w 6 6))
  | 0x03 => need4 ((z w 0 6)) (.fstS (fld w 21 5) (fld w 15 6) (fld w 6 6))
  | _ => .error 0x02

/-- Major 0x1E (R123, R57). -/
def decode1E (w : IWord) : Except Cause Instr :=
  match fldN w 0 6 with
  | 0x00 => need4 ((z w 6 10) && (z w 21 5)) (.setprec (fld w 16 5))
  | 0x01 => need4 ((z w 6 15)) (.getprec (fld w 21 5))
  | 0x02 => need4 ((z w 6 10) && (z w 21 5)) (.setrnd (fld w 16 5))
  | 0x10 => need4 ((z w 6 10)) (.fcvtElD (fld w 21 5) (fld w 16 5))
  | 0x11 => need4 ((z w 6 10)) (.fcvtElDu (fld w 21 5) (fld w 16 5))
  | 0x12 => need4 ((z w 6 10)) (.fcvtDEl (fld w 21 5) (fld w 16 5))
  | 0x13 => need4 ((z w 6 10)) (.fcvtDuEl (fld w 21 5) (fld w 16 5))
  | 0x14 => need4 ((z w 6 10)) (.fcvtElDf (fld w 21 5) (fld w 16 5))
  | 0x15 => need4 ((z w 6 10)) (.fcvtDfEl (fld w 21 5) (fld w 16 5))
  | 0x16 => need4 ((z w 6 10)) (.fcvtElSf (fld w 21 5) (fld w 16 5))
  | 0x17 => need4 ((z w 6 10)) (.fcvtSfEl (fld w 21 5) (fld w 16 5))
  | 0x20 => need4 ((z w 6 5)) (.fcmpEq (fld w 21 5) (fld w 16 5) (fld w 11 5))
  | 0x21 => need4 ((z w 6 5)) (.fcmpLt (fld w 21 5) (fld w 16 5) (fld w 11 5))
  | 0x22 => need4 ((z w 6 5)) (.fcmpLe (fld w 21 5) (fld w 16 5) (fld w 11 5))
  | 0x23 => need4 ((z w 6 5)) (.fcmpUn (fld w 21 5) (fld w 16 5) (fld w 11 5))
  | 0x24 => need4 ((z w 6 10)) (.fclass (fld w 21 5) (fld w 16 5))
  | _ => .error 0x02

/-- Major 0x20 (R134, R57). -/
def decode20 (w : IWord) : Except Cause Instr :=
  match fldN w 3 5 with
  | 0x00 => need2 ((z w 2 1)) (.ok (.vadd (fld w 21 5) (fld w 16 5) (fld w 11 5) (fld w 8 3) (fld w 0 2)))
  | 0x01 => need2 ((z w 2 1)) (.ok (.vsub (fld w 21 5) (fld w 16 5) (fld w 11 5) (fld w 8 3) (fld w 0 2)))
  | 0x02 => need2 ((z w 2 1)) (.ok (.vmul (fld w 21 5) (fld w 16 5) (fld w 11 5) (fld w 8 3) (fld w 0 2)))
  | 0x03 => need2 ((z w 2 1)) (.ok (.vmulh (fld w 21 5) (fld w 16 5) (fld w 11 5) (fld w 8 3) (fld w 0 2)))
  | 0x04 => need2 ((z w 2 1)) (.ok (.vand (fld w 21 5) (fld w 16 5) (fld w 11 5) (fld w 8 3) (fld w 0 2)))
  | 0x05 => need2 ((z w 2 1)) (.ok (.vor (fld w 21 5) (fld w 16 5) (fld w 11 5) (fld w 8 3) (fld w 0 2)))
  | 0x06 => need2 ((z w 2 1)) (.ok (.vxor (fld w 21 5) (fld w 16 5) (fld w 11 5) (fld w 8 3) (fld w 0 2)))
  | 0x07 => need2 ((z w 2 1)) (.ok (.vsll (fld w 21 5) (fld w 16 5) (fld w 11 5) (fld w 8 3) (fld w 0 2)))
  | 0x08 => need2 ((z w 2 1)) (.ok (.vsrl (fld w 21 5) (fld w 16 5) (fld w 11 5) (fld w 8 3) (fld w 0 2)))
  | 0x09 => need2 ((z w 2 1)) (.ok (.vsra (fld w 21 5) (fld w 16 5) (fld w 11 5) (fld w 8 3) (fld w 0 2)))
  | 0x0A => need2 ((z w 2 1)) (.ok (.vmin (fld w 21 5) (fld w 16 5) (fld w 11 5) (fld w 8 3) (fld w 0 2)))
  | 0x0B => need2 ((z w 2 1)) (.ok (.vmax (fld w 21 5) (fld w 16 5) (fld w 11 5) (fld w 8 3) (fld w 0 2)))
  | 0x0C => need2 ((z w 2 1)) (.ok (.vminu (fld w 21 5) (fld w 16 5) (fld w 11 5) (fld w 8 3) (fld w 0 2)))
  | 0x0D => need2 ((z w 2 1)) (.ok (.vmaxu (fld w 21 5) (fld w 16 5) (fld w 11 5) (fld w 8 3) (fld w 0 2)))
  | 0x0E => need2 ((z w 2 1)) (need4 ((z w 24 2)) (.vcmpEq (fld w 21 3) (fld w 16 5) (fld w 11 5) (fld w 8 3) (fld w 0 2)))
  | 0x0F => need2 ((z w 2 1)) (need4 ((z w 24 2)) (.vcmpLt (fld w 21 3) (fld w 16 5) (fld w 11 5) (fld w 8 3) (fld w 0 2)))
  | 0x10 => need2 ((z w 2 1)) (need4 ((z w 24 2)) (.vcmpLtu (fld w 21 3) (fld w 16 5) (fld w 11 5) (fld w 8 3) (fld w 0 2)))
  | 0x11 => need2 ((z w 0 3)) (.ok (.vdot4 (fld w 21 5) (fld w 16 5) (fld w 11 5) (fld w 8 3)))
  | _ => .error 0x02

/-- Major 0x21 (R136, R57). -/
def decode21 (w : IWord) : Except Cause Instr :=
  match fldN w 3 5 with
  | 0x00 => need2 ((decide ((fld w 0 3).toNat < 6))) (.ok (.vfadd (fld w 21 5) (fld w 16 5) (fld w 11 5) (fld w 8 3) (fld w 0 3)))
  | 0x01 => need2 ((decide ((fld w 0 3).toNat < 6))) (.ok (.vfsub (fld w 21 5) (fld w 16 5) (fld w 11 5) (fld w 8 3) (fld w 0 3)))
  | 0x02 => need2 ((decide ((fld w 0 3).toNat < 6))) (.ok (.vfmul (fld w 21 5) (fld w 16 5) (fld w 11 5) (fld w 8 3) (fld w 0 3)))
  | 0x03 => need2 ((decide ((fld w 0 3).toNat < 6))) (.ok (.vfdiv (fld w 21 5) (fld w 16 5) (fld w 11 5) (fld w 8 3) (fld w 0 3)))
  | 0x04 => need2 ((decide ((fld w 0 3).toNat < 6))) (need4 ((z w 11 5)) (.vfsqrt (fld w 21 5) (fld w 16 5) (fld w 8 3) (fld w 0 3)))
  | 0x05 => need2 ((decide ((fld w 0 3).toNat < 6))) (.ok (.vfma (fld w 21 5) (fld w 16 5) (fld w 11 5) (fld w 8 3) (fld w 0 3)))
  | 0x06 => need2 ((decide ((fld w 0 3).toNat < 6))) (.ok (.vfmin (fld w 21 5) (fld w 16 5) (fld w 11 5) (fld w 8 3) (fld w 0 3)))
  | 0x07 => need2 ((decide ((fld w 0 3).toNat < 6))) (.ok (.vfmax (fld w 21 5) (fld w 16 5) (fld w 11 5) (fld w 8 3) (fld w 0 3)))
  | 0x08 => need2 ((decide ((fld w 0 3).toNat < 6))) (need4 ((z w 24 2)) (.vfcmpEq (fld w 21 3) (fld w 16 5) (fld w 11 5) (fld w 8 3) (fld w 0 3)))
  | 0x09 => need2 ((decide ((fld w 0 3).toNat < 6))) (need4 ((z w 24 2)) (.vfcmpLt (fld w 21 3) (fld w 16 5) (fld w 11 5) (fld w 8 3) (fld w 0 3)))
  | 0x0A => need2 ((decide ((fld w 0 3).toNat < 6))) (need4 ((z w 24 2)) (.vfcmpLe (fld w 21 3) (fld w 16 5) (fld w 11 5) (fld w 8 3) (fld w 0 3)))
  | 0x0B => need2 ((decide ((fld w 0 3).toNat < 6))) (need4 ((z w 24 2)) (.vfcmpUn (fld w 21 3) (fld w 16 5) (fld w 11 5) (fld w 8 3) (fld w 0 3)))
  | 0x0C => need2 ((decide ((fld w 0 3).toNat < 6) && decide ((fld w 11 3).toNat < 6))) (need4 ((z w 14 2)) (.vfcvt (fld w 21 5) (fld w 16 5) (fld w 11 3) (fld w 8 3) (fld w 0 3)))
  | _ => .error 0x02

/-- Major 0x22 (R139, R57). -/
def decode22 (w : IWord) : Except Cause Instr :=
  match fldN w 3 5 with
  | 0x00 => need2 ((fldN w 0 3 == 7)) (.ok (.veadd (fld w 21 5) (fld w 16 5) (fld w 11 5) (fld w 8 3)))
  | 0x01 => need2 ((fldN w 0 3 == 7)) (.ok (.vesub (fld w 21 5) (fld w 16 5) (fld w 11 5) (fld w 8 3)))
  | 0x02 => need2 ((fldN w 0 3 == 7)) (.ok (.vemul (fld w 21 5) (fld w 16 5) (fld w 11 5) (fld w 8 3)))
  | 0x03 => need2 ((fldN w 0 3 == 7)) (.ok (.vefma (fld w 21 5) (fld w 16 5) (fld w 11 5) (fld w 8 3)))
  | _ => .error 0x02

/-- Major 0x23 (R141, R57). -/
def decode23 (w : IWord) : Except Cause Instr :=
  match fldN w 2 4 with
  | 0x00 => need4 ((z w 9 6)) (.vld (fld w 21 5) (fld w 15 6) (fld w 6 3) (fld w 0 2))
  | 0x01 => need4 ((z w 9 6)) (.vst (fld w 21 5) (fld w 15 6) (fld w 6 3) (fld w 0 2))
  | 0x02 => .ok (.vlds (fld w 21 5) (fld w 15 6) (fld w 9 6) (fld w 6 3) (fld w 0 2))
  | 0x03 => .ok (.vsts (fld w 21 5) (fld w 15 6) (fld w 9 6) (fld w 6 3) (fld w 0 2))
  | 0x04 => need4 ((z w 14 1)) (.vgath (fld w 21 5) (fld w 15 6) (fld w 9 5) (fld w 6 3) (fld w 0 2))
  | 0x05 => need2 (((fld w 6 3) != 0)) (need4 ((z w 14 1)) (.vgathT (fld w 21 5) (fld w 15 6) (fld w 9 5) (fld w 6 3) (fld w 0 2)))
  | 0x06 => need4 ((z w 14 1)) (.vscat (fld w 21 5) (fld w 15 6) (fld w 9 5) (fld w 6 3) (fld w 0 2))
  | 0x07 => need2 ((z w 0 2)) (.ok (.vldel (fld w 21 5) (fld w 15 6) (fld w 9 6) (fld w 6 3)))
  | 0x08 => need2 ((z w 0 2)) (.ok (.vstel (fld w 21 5) (fld w 15 6) (fld w 9 6) (fld w 6 3)))
  | _ => .error 0x02

/-- Major 0x24 (R146, R57). -/
def decode24 (w : IWord) : Except Cause Instr :=
  match fldN w 3 5 with
  | 0x00 => need2 ((z w 2 1)) (.ok (.vperm (fld w 21 5) (fld w 16 5) (fld w 11 5) (fld w 8 3) (fld w 0 2)))
  | 0x01 => need2 ((z w 2 1)) (.ok (.vslide (fld w 21 5) (fld w 16 5) (fld w 11 5) (fld w 8 3) (fld w 0 2)))
  | 0x02 => need2 ((z w 2 1)) (need4 ((z w 11 5)) (.vbcast (fld w 21 5) (fld w 16 5) (fld w 8 3) (fld w 0 2)))
  | 0x03 => need2 ((z w 2 1)) (need4 ((z w 8 3)) (.vext (fld w 21 5) (fld w 16 5) (fld w 11 5) (fld w 0 2)))
  | 0x04 => need2 ((z w 2 1)) (need4 ((z w 11 5)) (.vredAdd (fld w 21 5) (fld w 16 5) (fld w 8 3) (fld w 0 2)))
  | 0x05 => need2 ((z w 2 1)) (need4 ((z w 11 5)) (.vredMin (fld w 21 5) (fld w 16 5) (fld w 8 3) (fld w 0 2)))
  | 0x06 => need2 ((z w 2 1)) (need4 ((z w 11 5)) (.vredMax (fld w 21 5) (fld w 16 5) (fld w 8 3) (fld w 0 2)))
  | 0x07 => need2 ((decide ((fld w 0 3).toNat < 4) || (fld w 0 3) == 7)) (.ok (.vredEw (fld w 21 5) (fld w 16 5) (fld w 11 5) (fld w 8 3) (fld w 0 3)))
  | 0x08 => need2 ((z w 0 3)) (need4 ((z w 8 3) && (z w 14 2) && (z w 19 2) && (z w 24 2)) (.mand (fld w 21 3) (fld w 16 3) (fld w 11 3)))
  | 0x09 => need2 ((z w 0 3)) (need4 ((z w 8 3) && (z w 14 2) && (z w 19 2) && (z w 24 2)) (.mor (fld w 21 3) (fld w 16 3) (fld w 11 3)))
  | 0x0A => need2 ((z w 0 3)) (need4 ((z w 8 3) && (z w 14 2) && (z w 19 2) && (z w 24 2)) (.mxor (fld w 21 3) (fld w 16 3) (fld w 11 3)))
  | 0x0B => need2 ((z w 0 3)) (need4 ((z w 8 8) && (z w 19 2) && (z w 24 2)) (.mnot (fld w 21 3) (fld w 16 3)))
  | 0x0C => need2 ((z w 0 3)) (need4 ((z w 8 8) && (z w 24 2)) (.msetn (fld w 21 3) (fld w 16 5)))
  | 0x0D => need2 ((z w 0 3)) (need4 ((z w 8 8) && (z w 19 2)) (.mpop (fld w 21 5) (fld w 16 3)))
  | 0x0E => need2 ((z w 0 3)) (need4 ((z w 8 8) && (z w 19 2)) (.mfirst (fld w 21 5) (fld w 16 3)))
  | _ => .error 0x02

/-- Major 0x26 (R183, R57). -/
def decode26 (w : IWord) : Except Cause Instr :=
  match fldN w 0 2 with
  | 0x00 => need4 ((z w 2 2) && (z w 20 3)) (.tld (fld w 23 3) (fld w 14 6) (fld w 8 6) (fld w 4 4))
  | 0x01 => need4 ((z w 2 2) && (z w 20 3)) (.tst (fld w 23 3) (fld w 14 6) (fld w 8 6) (fld w 4 4))
  | 0x02 => need4 ((z w 2 2) && (decide ((fld w 23 3).toNat < 4) && decide ((fld w 20 3).toNat < 4))) (.acld (fld w 23 3) (fld w 20 3) (fld w 14 6) (fld w 8 6) (fld w 4 4))
  | _ => need4 ((z w 2 2) && (decide ((fld w 23 3).toNat < 4) && decide ((fld w 20 3).toNat < 4))) (.acst (fld w 23 3) (fld w 20 3) (fld w 14 6) (fld w 8 6) (fld w 4 4))

/-- Major 0x27 (R187, R57). -/
def decode27 (w : IWord) : Except Cause Instr :=
  match fldN w 0 8 with
  | 0x00 => need4 ((z w 8 3) && (z w 23 3) && (decide ((fld w 14 3).toNat < 4) && decide ((fld w 11 3).toNat < 4))) (.tmma (fld w 20 3) (fld w 17 3) (fld w 14 3) (fld w 11 3))
  | 0x01 => need4 ((z w 8 15)) (.tzero (fld w 23 3))
  | 0x02 => need4 ((z w 8 3) && (z w 17 9) && (decide ((fld w 14 3).toNat < 4) && decide ((fld w 11 3).toNat < 4))) (.aczero (fld w 14 3) (fld w 11 3))
  | 0x03 => need4 ((z w 8 3) && (z w 17 3) && (decide ((fld w 23 3).toNat < 4) && decide ((fld w 20 3).toNat < 4) && decide ((fld w 14 3).toNat < 4) && decide ((fld w 11 3).toNat < 4))) (.acmov (fld w 23 3) (fld w 20 3) (fld w 14 3) (fld w 11 3))
  | 0x10 => .ok (.tgemm (fld w 20 6) (fld w 14 6) (fld w 8 6))
  | 0x11 => .ok (.tgemmG (fld w 20 6) (fld w 14 6) (fld w 8 6))
  | _ => .error 0x02

/-- Major 0x28 (R176, R57). -/
def decode28 (w : IWord) : Except Cause Instr :=
  match fldN w 8 6 with
  | 0x00 => need4 ((z w 0 8)) (.tbind (fld w 20 6) (fld w 14 6))
  | 0x01 => need4 ((z w 0 8) && (z w 14 6)) (.tunbind (fld w 20 6))
  | 0x02 => need4 ((z w 0 8) && (z w 14 6)) (.tstat (fld w 20 6))
  | _ => .error 0x02

/-- Major 0x29 (R197, R57). -/
def decode29 (w : IWord) : Except Cause Instr :=
  match fldN w 8 6 with
  | 0x00 => need4 ((z w 3 5) && (z w 14 12)) (.gang (fld w 0 3))
  | _ => .error 0x02

/-- Major 0x2A (R215, R57). -/
def decode2A (w : IWord) : Except Cause Instr :=
  match fldN w 0 8 with
  | 0x00 => .ok (.send (fld w 20 6) (fld w 14 6) (fld w 8 6))
  | 0x01 => need4 ((z w 13 1) && ((fld w 8 5) != 31)) (.sendh (fld w 20 6) (fld w 14 6) (fld w 8 5))
  | 0x02 => need4 ((z w 13 1) && ((fld w 8 5) != 31)) (.sendr (fld w 20 6) (fld w 14 6) (fld w 8 5))
  | _ => .error 0x02

/-- Major 0x2B (R220, R57). -/
def decode2B (w : IWord) : Except Cause Instr :=
  match fldN w 8 6 with
  | 0x00 => need4 ((z w 0 8)) (.waita (fld w 20 6) (fld w 14 6))
  | 0x01 => need4 ((z w 0 8)) (.waitl (fld w 20 6) (fld w 14 6))
  | 0x02 => need4 ((z w 0 8)) (.ffr (fld w 20 6) (fld w 14 6))
  | 0x03 => need4 ((z w 0 8) && (z w 20 6)) (.tclr (fld w 14 6))
  | 0x04 => need4 ((z w 0 8) && (z w 20 6)) (.waitc (fld w 14 6))
  | 0x05 => need4 ((z w 0 8) && (z w 14 6)) (.waitr (fld w 20 6))
  | _ => .error 0x02

/-- Major 0x2C (R168, R57). -/
def decode2C (w : IWord) : Except Cause Instr :=
  match fldN w 8 6 with
  | 0x00 => need4 ((z w 0 8)) (.fenceR (fld w 20 6) (fld w 14 6))
  | 0x01 => need4 ((z w 3 5) && (z w 20 6) && (decide (1 ≤ (fld w 0 3).toNat) && decide ((fld w 0 3).toNat ≤ 4))) (.fenceH (fld w 14 6) (fld w 0 3))
  | 0x02 => need4 ((z w 3 5) && (z w 20 6) && (decide (1 ≤ (fld w 0 3).toNat) && decide ((fld w 0 3).toNat ≤ 4))) (.fenceL (fld w 14 6) (fld w 0 3))
  | 0x03 => need4 ((z w 0 8)) (.publish (fld w 20 6) (fld w 14 6))
  | _ => .error 0x02

/-- Major 0x2D (R219, R57). -/
def decode2D (w : IWord) : Except Cause Instr :=
  match fldN w 0 8 with
  | 0x00 => .ok (.tsend (fld w 20 6) (fld w 14 6) (fld w 8 6))
  | _ => .error 0x02

/-- Major 0x2E (R238, R57). -/
def decode2E (w : IWord) : Except Cause Instr :=
  match fldN w 8 6 with
  | 0x00 => need4 ((z w 0 8)) (.spawn (fld w 20 6) (fld w 14 6))
  | 0x01 => need4 ((z w 0 8) && (z w 20 6)) (.join (fld w 14 6))
  | 0x02 => need4 ((z w 0 8) && (z w 20 6)) (.exit (fld w 14 6))
  | 0x03 => need4 ((z w 0 8) && (z w 14 12)) (.yield)
  | 0x04 => need4 ((z w 0 8) && (z w 14 6)) (.steal (fld w 20 6))
  | 0x05 => need4 ((z w 2 6) && (z w 14 6)) (.tcoord (fld w 20 6) (fld w 0 2))
  | 0x06 => need4 ((z w 1 7) && ((fld w 0 1) == 1 || (fld w 14 6) == 0)) (.grank (fld w 20 6) (fld w 14 6) (fld w 0 1))
  | 0x07 => need4 ((z w 0 8) && (z w 14 6)) (.spreadwait (fld w 20 6))
  | _ => .error 0x02

/-- Major 0x2F (R251, R57). -/
def decode2F (w : IWord) : Except Cause Instr :=
  match fldN w 8 6 with
  | 0x00 => need4 ((z w 6 2) && (z w 20 6)) (.barInit (fld w 14 6) (fld w 0 6))
  | 0x01 => need4 ((z w 0 8)) (.barArr (fld w 20 6) (fld w 14 6))
  | 0x02 => need4 ((z w 6 2)) (.barWait (fld w 20 6) (fld w 14 6) (fld w 0 6))
  | 0x03 => need4 ((z w 0 8)) (.barAw (fld w 20 6) (fld w 14 6))
  | 0x04 => need4 ((z w 0 8)) (.barQuery (fld w 20 6) (fld w 14 6))
  | _ => .error 0x02

/-- Major 0x30 (R270, R57). A control-register number above 0x11 is an undefined minor (R34, R61). -/
def decode30 (w : IWord) : Except Cause Instr :=
  match fldN w 8 6 with
  | 0x00 => need2 ((decide ((fld w 0 8).toNat < 18))) (need4 ((z w 14 6)) (.csrr (fld w 20 6) (fld w 0 8)))
  | 0x01 => need2 ((decide ((fld w 0 8).toNat < 18))) (.ok (.csrw (fld w 20 6) (fld w 14 6) (fld w 0 8)))
  | 0x02 => need2 ((decide ((fld w 0 8).toNat < 18))) (.ok (.csrs (fld w 20 6) (fld w 14 6) (fld w 0 8)))
  | 0x03 => need2 ((decide ((fld w 0 8).toNat < 18))) (.ok (.csrc (fld w 20 6) (fld w 14 6) (fld w 0 8)))
  | 0x04 => need4 ((z w 14 12)) (.trap (fld w 0 8))
  | 0x05 => need4 ((z w 0 8) && (z w 14 12)) (.eret)
  | 0x06 => need4 ((z w 0 8) && (z w 14 12)) (.halt)
  | 0x07 => need4 ((z w 0 8) && (z w 20 6)) (.wfe (fld w 14 6))
  | 0x08 => need4 ((z w 0 8) && (z w 14 6)) (.tid (fld w 20 6))
  | 0x09 => need4 ((z w 0 8) && (z w 14 6)) (.rdtime (fld w 20 6))
  | 0x0A => need4 ((z w 5 3)) (.urgent (fld w 20 6) (fld w 14 6) (fld w 4 1) (fld w 0 4))
  | 0x0B => need4 ((z w 0 8) && (z w 14 12)) (.lret)
  | _ => .error 0x02

/-- Major 0x31 (R294, R57). -/
def decode31 (w : IWord) : Except Cause Instr :=
  match fldN w 8 6 with
  | 0x00 => need4 ((z w 6 2)) (.invR (fld w 20 6) (fld w 14 6) (fld w 0 6))
  | 0x01 => need4 ((z w 0 8) && (z w 14 6)) (.invA (fld w 20 6))
  | 0x02 => need4 ((z w 0 8) && (z w 14 12)) (.invack)
  | 0x03 => need4 ((z w 0 8)) (.probe (fld w 20 6) (fld w 14 6))
  | 0x04 => need4 ((z w 0 8) && (z w 20 6)) (.fqReplay (fld w 14 6))
  | 0x05 => need4 ((z w 6 2) && (z w 20 6)) (.fqFail (fld w 14 6) (fld w 0 6))
  | _ => .error 0x02

/-- Major 0x32 (R322, R57). -/
def decode32 (w : IWord) : Except Cause Instr :=
  match fldN w 8 6 with
  | 0x00 => .ok (.chsend (fld w 20 6) (fld w 14 6) (fld w 0 8))
  | 0x01 => need4 ((z w 14 6)) (.chrecv (fld w 20 6) (fld w 0 8))
  | 0x02 => need4 ((z w 14 6)) (.chpoll (fld w 20 6) (fld w 0 8))
  | 0x03 => need4 ((z w 0 8) && (z w 14 6)) (.vcore (fld w 20 6))
  | _ => .error 0x02

/-- The instruction a word holds, or the cause with which it traps at retirement (R60), in the order of R61. -/
def decode (w : IWord) : Except Cause Instr :=
  match fldN w 26 6 with
  | 0x00 => .error 0x03
  | 0x3F => .error 0x03
  | 0x01 => decode01 w
  | 0x02 => decode02 w
  | 0x03 => decode03 w
  | 0x04 => decode04 w
  | 0x05 => decode05 w
  | 0x06 => decode06 w
  | 0x07 => decode07 w
  | 0x08 => decode08 w
  | 0x09 => decode09 w
  | 0x0A => decode0A w
  | 0x0B => decode0B w
  | 0x0C => decode0C w
  | 0x0D => decode0D w
  | 0x0E => decode0E w
  | 0x0F => decode0F w
  | 0x10 => decode10 w
  | 0x11 => decode11 w
  | 0x12 => decode12 w
  | 0x13 => decode13 w
  | 0x14 => decode14 w
  | 0x15 => decode15 w
  | 0x16 => decode16 w
  | 0x17 => decode17 w
  | 0x18 => decode18 w
  | 0x19 => decode19 w
  | 0x1A => decode1A w
  | 0x1C => decode1C w
  | 0x1D => decode1D w
  | 0x1E => decode1E w
  | 0x20 => decode20 w
  | 0x21 => decode21 w
  | 0x22 => decode22 w
  | 0x23 => decode23 w
  | 0x24 => decode24 w
  | 0x26 => decode26 w
  | 0x27 => decode27 w
  | 0x28 => decode28 w
  | 0x29 => decode29 w
  | 0x2A => decode2A w
  | 0x2B => decode2B w
  | 0x2C => decode2C w
  | 0x2D => decode2D w
  | 0x2E => decode2E w
  | 0x2F => decode2F w
  | 0x30 => decode30 w
  | 0x31 => decode31 w
  | 0x32 => decode32 w
  | _ => .error 0x01

/-- The number an instruction's word stands for, field by field (R46). An event has no word: 0, the null word. -/
def encodeNat (i : Instr) : Nat :=
  match i with
  | .himm p => 0x04000000 + p.toNat * 0x1
  | .hsched b n u => 0x05000000 + b.toNat * 0x400000 + n.toNat * 0x200000 + u.toNat * 0x80000
  | .hmodNofwd => 0x06010000
  | .hmodL1na => 0x06020000
  | .fmt a b o r v => 0x07000000 + a.toNat * 0x100000 + b.toNat * 0x10000 + o.toNat * 0x1000 + r.toNat * 0x2 + v.toNat * 0x1
  | .add d a b => 0x08000000 + d.toNat * 0x100000 + a.toNat * 0x4000 + b.toNat * 0x100
  | .sub d a b => 0x08000001 + d.toNat * 0x100000 + a.toNat * 0x4000 + b.toNat * 0x100
  | .and d a b => 0x08000002 + d.toNat * 0x100000 + a.toNat * 0x4000 + b.toNat * 0x100
  | .or d a b => 0x08000003 + d.toNat * 0x100000 + a.toNat * 0x4000 + b.toNat * 0x100
  | .xor d a b => 0x08000004 + d.toNat * 0x100000 + a.toNat * 0x4000 + b.toNat * 0x100
  | .andn d a b => 0x08000005 + d.toNat * 0x100000 + a.toNat * 0x4000 + b.toNat * 0x100
  | .orn d a b => 0x08000006 + d.toNat * 0x100000 + a.toNat * 0x4000 + b.toNat * 0x100
  | .xnor d a b => 0x08000007 + d.toNat * 0x100000 + a.toNat * 0x4000 + b.toNat * 0x100
  | .sll d a b => 0x08000008 + d.toNat * 0x100000 + a.toNat * 0x4000 + b.toNat * 0x100
  | .srl d a b => 0x08000009 + d.toNat * 0x100000 + a.toNat * 0x4000 + b.toNat * 0x100
  | .sra d a b => 0x0800000A + d.toNat * 0x100000 + a.toNat * 0x4000 + b.toNat * 0x100
  | .rol d a b => 0x0800000B + d.toNat * 0x100000 + a.toNat * 0x4000 + b.toNat * 0x100
  | .ror d a b => 0x0800000C + d.toNat * 0x100000 + a.toNat * 0x4000 + b.toNat * 0x100
  | .slt d a b => 0x0800000D + d.toNat * 0x100000 + a.toNat * 0x4000 + b.toNat * 0x100
  | .sltu d a b => 0x0800000E + d.toNat * 0x100000 + a.toNat * 0x4000 + b.toNat * 0x100
  | .min d a b => 0x0800000F + d.toNat * 0x100000 + a.toNat * 0x4000 + b.toNat * 0x100
  | .max d a b => 0x08000010 + d.toNat * 0x100000 + a.toNat * 0x4000 + b.toNat * 0x100
  | .minu d a b => 0x08000011 + d.toNat * 0x100000 + a.toNat * 0x4000 + b.toNat * 0x100
  | .maxu d a b => 0x08000012 + d.toNat * 0x100000 + a.toNat * 0x4000 + b.toNat * 0x100
  | .mul d a b => 0x08000013 + d.toNat * 0x100000 + a.toNat * 0x4000 + b.toNat * 0x100
  | .mulh d a b => 0x08000014 + d.toNat * 0x100000 + a.toNat * 0x4000 + b.toNat * 0x100
  | .mulhu d a b => 0x08000015 + d.toNat * 0x100000 + a.toNat * 0x4000 + b.toNat * 0x100
  | .mulhsu d a b => 0x08000016 + d.toNat * 0x100000 + a.toNat * 0x4000 + b.toNat * 0x100
  | .div d a b => 0x08000017 + d.toNat * 0x100000 + a.toNat * 0x4000 + b.toNat * 0x100
  | .divu d a b => 0x08000018 + d.toNat * 0x100000 + a.toNat * 0x4000 + b.toNat * 0x100
  | .rem d a b => 0x08000019 + d.toNat * 0x100000 + a.toNat * 0x4000 + b.toNat * 0x100
  | .remu d a b => 0x0800001A + d.toNat * 0x100000 + a.toNat * 0x4000 + b.toNat * 0x100
  | .clz d a => 0x0800001B + d.toNat * 0x100000 + a.toNat * 0x4000
  | .ctz d a => 0x0800001C + d.toNat * 0x100000 + a.toNat * 0x4000
  | .popc d a => 0x0800001D + d.toNat * 0x100000 + a.toNat * 0x4000
  | .bswap d a => 0x0800001E + d.toNat * 0x100000 + a.toNat * 0x4000
  | .sel d a b => 0x0800001F + d.toNat * 0x100000 + a.toNat * 0x4000 + b.toNat * 0x100
  | .addi d a i => 0x0C000000 + d.toNat * 0x100000 + a.toNat * 0x4000 + i.toNat * 0x1
  | .andi d a i => 0x10000000 + d.toNat * 0x100000 + a.toNat * 0x4000 + i.toNat * 0x1
  | .ori d a i => 0x14000000 + d.toNat * 0x100000 + a.toNat * 0x4000 + i.toNat * 0x1
  | .xori d a i => 0x18000000 + d.toNat * 0x100000 + a.toNat * 0x4000 + i.toNat * 0x1
  | .slli d a n => 0x1C000000 + d.toNat * 0x100000 + a.toNat * 0x4000 + n.toNat * 0x1
  | .srli d a n => 0x1C001000 + d.toNat * 0x100000 + a.toNat * 0x4000 + n.toNat * 0x1
  | .srai d a n => 0x1C002000 + d.toNat * 0x100000 + a.toNat * 0x4000 + n.toNat * 0x1
  | .rori d a n => 0x1C003000 + d.toNat * 0x100000 + a.toNat * 0x4000 + n.toNat * 0x1
  | .lih d a i => 0x20000000 + d.toNat * 0x100000 + a.toNat * 0x4000 + i.toNat * 0x1
  | .slti d a i => 0x24000000 + d.toNat * 0x100000 + a.toNat * 0x4000 + i.toNat * 0x1
  | .sltiu d a i => 0x28000000 + d.toNat * 0x100000 + a.toNat * 0x4000 + i.toNat * 0x1
  | .muli d a i => 0x2C000000 + d.toNat * 0x100000 + a.toNat * 0x4000 + i.toNat * 0x1
  | .ld d b s e l p => 0x30000000 + d.toNat * 0x100000 + b.toNat * 0x4000 + s.toNat * 0x800 + e.toNat * 0x200 + l.toNat * 0x100 + p.toNat * 0x1
  | .pf b e l p => 0x30003800 + b.toNat * 0x4000 + e.toNat * 0x200 + l.toNat * 0x100 + p.toNat * 0x1
  | .st d b s e l p => 0x34000000 + d.toNat * 0x100000 + b.toNat * 0x4000 + s.toNat * 0x800 + e.toNat * 0x200 + l.toNat * 0x100 + p.toNat * 0x1
  | .ldx d b s e l i => 0x38000000 + d.toNat * 0x100000 + b.toNat * 0x4000 + s.toNat * 0x800 + e.toNat * 0x200 + l.toNat * 0x100 + i.toNat * 0x4
  | .pfIndexed b e l i => 0x38003800 + b.toNat * 0x4000 + e.toNat * 0x200 + l.toNat * 0x100 + i.toNat * 0x4
  | .stx d b s e l i => 0x3C000000 + d.toNat * 0x100000 + b.toNat * 0x4000 + s.toNat * 0x800 + e.toNat * 0x200 + l.toNat * 0x100 + i.toNat * 0x4
  | .amoSwap d a b w => 0x40000000 + d.toNat * 0x100000 + a.toNat * 0x4000 + b.toNat * 0x100 + w.toNat * 0x80
  | .amoCas d a b w => 0x40000001 + d.toNat * 0x100000 + a.toNat * 0x4000 + b.toNat * 0x100 + w.toNat * 0x80
  | .amoAdd d a b w => 0x40000002 + d.toNat * 0x100000 + a.toNat * 0x4000 + b.toNat * 0x100 + w.toNat * 0x80
  | .amoAnd d a b w => 0x40000003 + d.toNat * 0x100000 + a.toNat * 0x4000 + b.toNat * 0x100 + w.toNat * 0x80
  | .amoOr d a b w => 0x40000004 + d.toNat * 0x100000 + a.toNat * 0x4000 + b.toNat * 0x100 + w.toNat * 0x80
  | .amoXor d a b w => 0x40000005 + d.toNat * 0x100000 + a.toNat * 0x4000 + b.toNat * 0x100 + w.toNat * 0x80
  | .amoMin d a b w => 0x40000006 + d.toNat * 0x100000 + a.toNat * 0x4000 + b.toNat * 0x100 + w.toNat * 0x80
  | .amoMax d a b w => 0x40000007 + d.toNat * 0x100000 + a.toNat * 0x4000 + b.toNat * 0x100 + w.toNat * 0x80
  | .amoMinu d a b w => 0x40000008 + d.toNat * 0x100000 + a.toNat * 0x4000 + b.toNat * 0x100 + w.toNat * 0x80
  | .amoMaxu d a b w => 0x40000009 + d.toNat * 0x100000 + a.toNat * 0x4000 + b.toNat * 0x100 + w.toNat * 0x80
  | .ldc d a => 0x44000000 + d.toNat * 0x100000 + a.toNat * 0x4000
  | .stp a b => 0x44000001 + a.toNat * 0x4000 + b.toNat * 0x100
  | .ldf d a => 0x44000002 + d.toNat * 0x100000 + a.toNat * 0x4000
  | .feSet a => 0x44000003 + a.toNat * 0x4000
  | .feFill a => 0x44000004 + a.toNat * 0x4000
  | .feProbe d a => 0x44000005 + d.toNat * 0x100000 + a.toNat * 0x4000
  | .beq a b o => 0x48000000 + a.toNat * 0x100000 + b.toNat * 0x4000 + o.toNat * 0x1
  | .bne a b o => 0x4C000000 + a.toNat * 0x100000 + b.toNat * 0x4000 + o.toNat * 0x1
  | .blt a b o => 0x50000000 + a.toNat * 0x100000 + b.toNat * 0x4000 + o.toNat * 0x1
  | .bge a b o => 0x54000000 + a.toNat * 0x100000 + b.toNat * 0x4000 + o.toNat * 0x1
  | .bltu a b o => 0x58000000 + a.toNat * 0x100000 + b.toNat * 0x4000 + o.toNat * 0x1
  | .bgeu a b o => 0x5C000000 + a.toNat * 0x100000 + b.toNat * 0x4000 + o.toNat * 0x1
  | .j o => 0x60000000 + o.toNat * 0x1
  | .call o => 0x64000000 + o.toNat * 0x1
  | .jr a => 0x68000000 + a.toNat * 0x4000
  | .callr a => 0x68000001 + a.toNat * 0x4000
  | .ret => 0x68000002
  | .fadd d a b => 0x70000000 + d.toNat * 0x200000 + a.toNat * 0x10000 + b.toNat * 0x800
  | .fsub d a b => 0x70000001 + d.toNat * 0x200000 + a.toNat * 0x10000 + b.toNat * 0x800
  | .fmul d a b => 0x70000002 + d.toNat * 0x200000 + a.toNat * 0x10000 + b.toNat * 0x800
  | .fdiv d a b => 0x70000003 + d.toNat * 0x200000 + a.toNat * 0x10000 + b.toNat * 0x800
  | .fsqrt d a => 0x70000004 + d.toNat * 0x200000 + a.toNat * 0x10000
  | .fma d a b c => 0x70000005 + d.toNat * 0x200000 + a.toNat * 0x10000 + b.toNat * 0x800 + c.toNat * 0x40
  | .fms d a b c => 0x70000006 + d.toNat * 0x200000 + a.toNat * 0x10000 + b.toNat * 0x800 + c.toNat * 0x40
  | .fnma d a b c => 0x70000007 + d.toNat * 0x200000 + a.toNat * 0x10000 + b.toNat * 0x800 + c.toNat * 0x40
  | .fmin d a b => 0x70000008 + d.toNat * 0x200000 + a.toNat * 0x10000 + b.toNat * 0x800
  | .fmax d a b => 0x70000009 + d.toNat * 0x200000 + a.toNat * 0x10000 + b.toNat * 0x800
  | .ftwosum d a b c => 0x7000000A + d.toNat * 0x200000 + a.toNat * 0x10000 + b.toNat * 0x800 + c.toNat * 0x40
  | .ftwoprod d a b c => 0x7000000B + d.toNat * 0x200000 + a.toNat * 0x10000 + b.toNat * 0x800 + c.toNat * 0x40
  | .fround d a => 0x7000000C + d.toNat * 0x200000 + a.toNat * 0x10000
  | .fscale d a b => 0x7000000D + d.toNat * 0x200000 + a.toNat * 0x10000 + b.toNat * 0x800
  | .fmov d a => 0x7000000E + d.toNat * 0x200000 + a.toNat * 0x10000
  | .fneg d a => 0x7000000F + d.toNat * 0x200000 + a.toNat * 0x10000
  | .fabs d a => 0x70000010 + d.toNat * 0x200000 + a.toNat * 0x10000
  | .fld d b p => 0x74000000 + d.toNat * 0x200000 + b.toNat * 0x8000 + p.toNat * 0x1
  | .fst d b p => 0x74001000 + d.toNat * 0x200000 + b.toNat * 0x8000 + p.toNat * 0x1
  | .fldS d b i => 0x74002000 + d.toNat * 0x200000 + b.toNat * 0x8000 + i.toNat * 0x40
  | .fstS d b i => 0x74003000 + d.toNat * 0x200000 + b.toNat * 0x8000 + i.toNat * 0x40
  | .setprec a => 0x78000000 + a.toNat * 0x10000
  | .getprec d => 0x78000001 + d.toNat * 0x200000
  | .setrnd a => 0x78000002 + a.toNat * 0x10000
  | .fcvtElD d a => 0x78000010 + d.toNat * 0x200000 + a.toNat * 0x10000
  | .fcvtElDu d a => 0x78000011 + d.toNat * 0x200000 + a.toNat * 0x10000
  | .fcvtDEl d a => 0x78000012 + d.toNat * 0x200000 + a.toNat * 0x10000
  | .fcvtDuEl d a => 0x78000013 + d.toNat * 0x200000 + a.toNat * 0x10000
  | .fcvtElDf d a => 0x78000014 + d.toNat * 0x200000 + a.toNat * 0x10000
  | .fcvtDfEl d a => 0x78000015 + d.toNat * 0x200000 + a.toNat * 0x10000
  | .fcvtElSf d a => 0x78000016 + d.toNat * 0x200000 + a.toNat * 0x10000
  | .fcvtSfEl d a => 0x78000017 + d.toNat * 0x200000 + a.toNat * 0x10000
  | .fcmpEq d a b => 0x78000020 + d.toNat * 0x200000 + a.toNat * 0x10000 + b.toNat * 0x800
  | .fcmpLt d a b => 0x78000021 + d.toNat * 0x200000 + a.toNat * 0x10000 + b.toNat * 0x800
  | .fcmpLe d a b => 0x78000022 + d.toNat * 0x200000 + a.toNat * 0x10000 + b.toNat * 0x800
  | .fcmpUn d a b => 0x78000023 + d.toNat * 0x200000 + a.toNat * 0x10000 + b.toNat * 0x800
  | .fclass d a => 0x78000024 + d.toNat * 0x200000 + a.toNat * 0x10000
  | .vadd d a b k w => 0x80000000 + d.toNat * 0x200000 + a.toNat * 0x10000 + b.toNat * 0x800 + k.toNat * 0x100 + w.toNat * 0x1
  | .vsub d a b k w => 0x80000008 + d.toNat * 0x200000 + a.toNat * 0x10000 + b.toNat * 0x800 + k.toNat * 0x100 + w.toNat * 0x1
  | .vmul d a b k w => 0x80000010 + d.toNat * 0x200000 + a.toNat * 0x10000 + b.toNat * 0x800 + k.toNat * 0x100 + w.toNat * 0x1
  | .vmulh d a b k w => 0x80000018 + d.toNat * 0x200000 + a.toNat * 0x10000 + b.toNat * 0x800 + k.toNat * 0x100 + w.toNat * 0x1
  | .vand d a b k w => 0x80000020 + d.toNat * 0x200000 + a.toNat * 0x10000 + b.toNat * 0x800 + k.toNat * 0x100 + w.toNat * 0x1
  | .vor d a b k w => 0x80000028 + d.toNat * 0x200000 + a.toNat * 0x10000 + b.toNat * 0x800 + k.toNat * 0x100 + w.toNat * 0x1
  | .vxor d a b k w => 0x80000030 + d.toNat * 0x200000 + a.toNat * 0x10000 + b.toNat * 0x800 + k.toNat * 0x100 + w.toNat * 0x1
  | .vsll d a b k w => 0x80000038 + d.toNat * 0x200000 + a.toNat * 0x10000 + b.toNat * 0x800 + k.toNat * 0x100 + w.toNat * 0x1
  | .vsrl d a b k w => 0x80000040 + d.toNat * 0x200000 + a.toNat * 0x10000 + b.toNat * 0x800 + k.toNat * 0x100 + w.toNat * 0x1
  | .vsra d a b k w => 0x80000048 + d.toNat * 0x200000 + a.toNat * 0x10000 + b.toNat * 0x800 + k.toNat * 0x100 + w.toNat * 0x1
  | .vmin d a b k w => 0x80000050 + d.toNat * 0x200000 + a.toNat * 0x10000 + b.toNat * 0x800 + k.toNat * 0x100 + w.toNat * 0x1
  | .vmax d a b k w => 0x80000058 + d.toNat * 0x200000 + a.toNat * 0x10000 + b.toNat * 0x800 + k.toNat * 0x100 + w.toNat * 0x1
  | .vminu d a b k w => 0x80000060 + d.toNat * 0x200000 + a.toNat * 0x10000 + b.toNat * 0x800 + k.toNat * 0x100 + w.toNat * 0x1
  | .vmaxu d a b k w => 0x80000068 + d.toNat * 0x200000 + a.toNat * 0x10000 + b.toNat * 0x800 + k.toNat * 0x100 + w.toNat * 0x1
  | .vcmpEq d a b k w => 0x80000070 + d.toNat * 0x200000 + a.toNat * 0x10000 + b.toNat * 0x800 + k.toNat * 0x100 + w.toNat * 0x1
  | .vcmpLt d a b k w => 0x80000078 + d.toNat * 0x200000 + a.toNat * 0x10000 + b.toNat * 0x800 + k.toNat * 0x100 + w.toNat * 0x1
  | .vcmpLtu d a b k w => 0x80000080 + d.toNat * 0x200000 + a.toNat * 0x10000 + b.toNat * 0x800 + k.toNat * 0x100 + w.toNat * 0x1
  | .vdot4 d a b k => 0x80000088 + d.toNat * 0x200000 + a.toNat * 0x10000 + b.toNat * 0x800 + k.toNat * 0x100
  | .vfadd d a b k w => 0x84000000 + d.toNat * 0x200000 + a.toNat * 0x10000 + b.toNat * 0x800 + k.toNat * 0x100 + w.toNat * 0x1
  | .vfsub d a b k w => 0x84000008 + d.toNat * 0x200000 + a.toNat * 0x10000 + b.toNat * 0x800 + k.toNat * 0x100 + w.toNat * 0x1
  | .vfmul d a b k w => 0x84000010 + d.toNat * 0x200000 + a.toNat * 0x10000 + b.toNat * 0x800 + k.toNat * 0x100 + w.toNat * 0x1
  | .vfdiv d a b k w => 0x84000018 + d.toNat * 0x200000 + a.toNat * 0x10000 + b.toNat * 0x800 + k.toNat * 0x100 + w.toNat * 0x1
  | .vfsqrt d a k w => 0x84000020 + d.toNat * 0x200000 + a.toNat * 0x10000 + k.toNat * 0x100 + w.toNat * 0x1
  | .vfma d a b k w => 0x84000028 + d.toNat * 0x200000 + a.toNat * 0x10000 + b.toNat * 0x800 + k.toNat * 0x100 + w.toNat * 0x1
  | .vfmin d a b k w => 0x84000030 + d.toNat * 0x200000 + a.toNat * 0x10000 + b.toNat * 0x800 + k.toNat * 0x100 + w.toNat * 0x1
  | .vfmax d a b k w => 0x84000038 + d.toNat * 0x200000 + a.toNat * 0x10000 + b.toNat * 0x800 + k.toNat * 0x100 + w.toNat * 0x1
  | .vfcmpEq d a b k w => 0x84000040 + d.toNat * 0x200000 + a.toNat * 0x10000 + b.toNat * 0x800 + k.toNat * 0x100 + w.toNat * 0x1
  | .vfcmpLt d a b k w => 0x84000048 + d.toNat * 0x200000 + a.toNat * 0x10000 + b.toNat * 0x800 + k.toNat * 0x100 + w.toNat * 0x1
  | .vfcmpLe d a b k w => 0x84000050 + d.toNat * 0x200000 + a.toNat * 0x10000 + b.toNat * 0x800 + k.toNat * 0x100 + w.toNat * 0x1
  | .vfcmpUn d a b k w => 0x84000058 + d.toNat * 0x200000 + a.toNat * 0x10000 + b.toNat * 0x800 + k.toNat * 0x100 + w.toNat * 0x1
  | .vfcvt d a s k w => 0x84000060 + d.toNat * 0x200000 + a.toNat * 0x10000 + s.toNat * 0x800 + k.toNat * 0x100 + w.toNat * 0x1
  | .veadd d a b k => 0x88000007 + d.toNat * 0x200000 + a.toNat * 0x10000 + b.toNat * 0x800 + k.toNat * 0x100
  | .vesub d a b k => 0x8800000F + d.toNat * 0x200000 + a.toNat * 0x10000 + b.toNat * 0x800 + k.toNat * 0x100
  | .vemul d a b k => 0x88000017 + d.toNat * 0x200000 + a.toNat * 0x10000 + b.toNat * 0x800 + k.toNat * 0x100
  | .vefma d a b k => 0x8800001F + d.toNat * 0x200000 + a.toNat * 0x10000 + b.toNat * 0x800 + k.toNat * 0x100
  | .vld d b k w => 0x8C000000 + d.toNat * 0x200000 + b.toNat * 0x8000 + k.toNat * 0x40 + w.toNat * 0x1
  | .vst d b k w => 0x8C000004 + d.toNat * 0x200000 + b.toNat * 0x8000 + k.toNat * 0x40 + w.toNat * 0x1
  | .vlds d b c k w => 0x8C000008 + d.toNat * 0x200000 + b.toNat * 0x8000 + c.toNat * 0x200 + k.toNat * 0x40 + w.toNat * 0x1
  | .vsts d b c k w => 0x8C00000C + d.toNat * 0x200000 + b.toNat * 0x8000 + c.toNat * 0x200 + k.toNat * 0x40 + w.toNat * 0x1
  | .vgath d b c k w => 0x8C000010 + d.toNat * 0x200000 + b.toNat * 0x8000 + c.toNat * 0x200 + k.toNat * 0x40 + w.toNat * 0x1
  | .vgathT d b c k w => 0x8C000014 + d.toNat * 0x200000 + b.toNat * 0x8000 + c.toNat * 0x200 + k.toNat * 0x40 + w.toNat * 0x1
  | .vscat d b c k w => 0x8C000018 + d.toNat * 0x200000 + b.toNat * 0x8000 + c.toNat * 0x200 + k.toNat * 0x40 + w.toNat * 0x1
  | .vldel d b c k => 0x8C00001C + d.toNat * 0x200000 + b.toNat * 0x8000 + c.toNat * 0x200 + k.toNat * 0x40
  | .vstel d b c k => 0x8C000020 + d.toNat * 0x200000 + b.toNat * 0x8000 + c.toNat * 0x200 + k.toNat * 0x40
  | .vperm d a b k w => 0x90000000 + d.toNat * 0x200000 + a.toNat * 0x10000 + b.toNat * 0x800 + k.toNat * 0x100 + w.toNat * 0x1
  | .vslide d a b k w => 0x90000008 + d.toNat * 0x200000 + a.toNat * 0x10000 + b.toNat * 0x800 + k.toNat * 0x100 + w.toNat * 0x1
  | .vbcast d a k w => 0x90000010 + d.toNat * 0x200000 + a.toNat * 0x10000 + k.toNat * 0x100 + w.toNat * 0x1
  | .vext d a b w => 0x90000018 + d.toNat * 0x200000 + a.toNat * 0x10000 + b.toNat * 0x800 + w.toNat * 0x1
  | .vredAdd d a k w => 0x90000020 + d.toNat * 0x200000 + a.toNat * 0x10000 + k.toNat * 0x100 + w.toNat * 0x1
  | .vredMin d a k w => 0x90000028 + d.toNat * 0x200000 + a.toNat * 0x10000 + k.toNat * 0x100 + w.toNat * 0x1
  | .vredMax d a k w => 0x90000030 + d.toNat * 0x200000 + a.toNat * 0x10000 + k.toNat * 0x100 + w.toNat * 0x1
  | .vredEw d a b k w => 0x90000038 + d.toNat * 0x200000 + a.toNat * 0x10000 + b.toNat * 0x800 + k.toNat * 0x100 + w.toNat * 0x1
  | .mand d a b => 0x90000040 + d.toNat * 0x200000 + a.toNat * 0x10000 + b.toNat * 0x800
  | .mor d a b => 0x90000048 + d.toNat * 0x200000 + a.toNat * 0x10000 + b.toNat * 0x800
  | .mxor d a b => 0x90000050 + d.toNat * 0x200000 + a.toNat * 0x10000 + b.toNat * 0x800
  | .mnot d a => 0x90000058 + d.toNat * 0x200000 + a.toNat * 0x10000
  | .msetn d a => 0x90000060 + d.toNat * 0x200000 + a.toNat * 0x10000
  | .mpop d a => 0x90000068 + d.toNat * 0x200000 + a.toNat * 0x10000
  | .mfirst d a => 0x90000070 + d.toNat * 0x200000 + a.toNat * 0x10000
  | .tld t b s n => 0x98000000 + t.toNat * 0x800000 + b.toNat * 0x4000 + s.toNat * 0x100 + n.toNat * 0x10
  | .tst t b s n => 0x98000001 + t.toNat * 0x800000 + b.toNat * 0x4000 + s.toNat * 0x100 + n.toNat * 0x10
  | .acld x y b s n => 0x98000002 + x.toNat * 0x800000 + y.toNat * 0x100000 + b.toNat * 0x4000 + s.toNat * 0x100 + n.toNat * 0x10
  | .acst x y b s n => 0x98000003 + x.toNat * 0x800000 + y.toNat * 0x100000 + b.toNat * 0x4000 + s.toNat * 0x100 + n.toNat * 0x10
  | .tmma a b x y => 0x9C000000 + a.toNat * 0x100000 + b.toNat * 0x20000 + x.toNat * 0x4000 + y.toNat * 0x800
  | .tzero t => 0x9C000001 + t.toNat * 0x800000
  | .aczero x y => 0x9C000002 + x.toNat * 0x4000 + y.toNat * 0x800
  | .acmov r c x y => 0x9C000003 + r.toNat * 0x800000 + c.toNat * 0x100000 + x.toNat * 0x4000 + y.toNat * 0x800
  | .tgemm d a b => 0x9C000010 + d.toNat * 0x100000 + a.toNat * 0x4000 + b.toNat * 0x100
  | .tgemmG d a b => 0x9C000011 + d.toNat * 0x100000 + a.toNat * 0x4000 + b.toNat * 0x100
  | .tbind d a => 0xA0000000 + d.toNat * 0x100000 + a.toNat * 0x4000
  | .tunbind d => 0xA0000100 + d.toNat * 0x100000
  | .tstat d => 0xA0000200 + d.toNat * 0x100000
  | .gang n => 0xA4000000 + n.toNat * 0x1
  | .send d a b => 0xA8000000 + d.toNat * 0x100000 + a.toNat * 0x4000 + b.toNat * 0x100
  | .sendh d a b => 0xA8000001 + d.toNat * 0x100000 + a.toNat * 0x4000 + b.toNat * 0x100
  | .sendr d a b => 0xA8000002 + d.toNat * 0x100000 + a.toNat * 0x4000 + b.toNat * 0x100
  | .waita d a => 0xAC000000 + d.toNat * 0x100000 + a.toNat * 0x4000
  | .waitl d a => 0xAC000100 + d.toNat * 0x100000 + a.toNat * 0x4000
  | .ffr d a => 0xAC000200 + d.toNat * 0x100000 + a.toNat * 0x4000
  | .tclr a => 0xAC000300 + a.toNat * 0x4000
  | .waitc a => 0xAC000400 + a.toNat * 0x4000
  | .waitr d => 0xAC000500 + d.toNat * 0x100000
  | .fenceR d a => 0xB0000000 + d.toNat * 0x100000 + a.toNat * 0x4000
  | .fenceH a n => 0xB0000100 + a.toNat * 0x4000 + n.toNat * 0x1
  | .fenceL a n => 0xB0000200 + a.toNat * 0x4000 + n.toNat * 0x1
  | .publish d a => 0xB0000300 + d.toNat * 0x100000 + a.toNat * 0x4000
  | .tsend d a b => 0xB4000000 + d.toNat * 0x100000 + a.toNat * 0x4000 + b.toNat * 0x100
  | .spawn d a => 0xB8000000 + d.toNat * 0x100000 + a.toNat * 0x4000
  | .join a => 0xB8000100 + a.toNat * 0x4000
  | .exit a => 0xB8000200 + a.toNat * 0x4000
  | .yield => 0xB8000300
  | .steal d => 0xB8000400 + d.toNat * 0x100000
  | .tcoord d n => 0xB8000500 + d.toNat * 0x100000 + n.toNat * 0x1
  | .grank d a g => 0xB8000600 + d.toNat * 0x100000 + a.toNat * 0x4000 + g.toNat * 0x1
  | .spreadwait d => 0xB8000700 + d.toNat * 0x100000
  | .barInit a n => 0xBC000000 + a.toNat * 0x4000 + n.toNat * 0x1
  | .barArr d a => 0xBC000100 + d.toNat * 0x100000 + a.toNat * 0x4000
  | .barWait d a g => 0xBC000200 + d.toNat * 0x100000 + a.toNat * 0x4000 + g.toNat * 0x1
  | .barAw d a => 0xBC000300 + d.toNat * 0x100000 + a.toNat * 0x4000
  | .barQuery d a => 0xBC000400 + d.toNat * 0x100000 + a.toNat * 0x4000
  | .csrr d n => 0xC0000000 + d.toNat * 0x100000 + n.toNat * 0x1
  | .csrw d a n => 0xC0000100 + d.toNat * 0x100000 + a.toNat * 0x4000 + n.toNat * 0x1
  | .csrs d a n => 0xC0000200 + d.toNat * 0x100000 + a.toNat * 0x4000 + n.toNat * 0x1
  | .csrc d a n => 0xC0000300 + d.toNat * 0x100000 + a.toNat * 0x4000 + n.toNat * 0x1
  | .trap n => 0xC0000400 + n.toNat * 0x1
  | .eret => 0xC0000500
  | .halt => 0xC0000600
  | .wfe a => 0xC0000700 + a.toNat * 0x4000
  | .tid d => 0xC0000800 + d.toNat * 0x100000
  | .rdtime d => 0xC0000900 + d.toNat * 0x100000
  | .urgent d a k n => 0xC0000A00 + d.toNat * 0x100000 + a.toNat * 0x4000 + k.toNat * 0x10 + n.toNat * 0x1
  | .lret => 0xC0000B00
  | .invR d a n => 0xC4000000 + d.toNat * 0x100000 + a.toNat * 0x4000 + n.toNat * 0x1
  | .invA d => 0xC4000100 + d.toNat * 0x100000
  | .invack => 0xC4000200
  | .probe d a => 0xC4000300 + d.toNat * 0x100000 + a.toNat * 0x4000
  | .fqReplay a => 0xC4000400 + a.toNat * 0x4000
  | .fqFail a c => 0xC4000500 + a.toNat * 0x4000 + c.toNat * 0x1
  | .chsend d a n => 0xC8000000 + d.toNat * 0x100000 + a.toNat * 0x4000 + n.toNat * 0x1
  | .chrecv d n => 0xC8000100 + d.toNat * 0x100000 + n.toNat * 0x1
  | .chpoll d n => 0xC8000200 + d.toNat * 0x100000 + n.toNat * 0x1
  | .vcore d => 0xC8000300 + d.toNat * 0x100000
  | _ => 0

/-- The word of an instruction (R46). -/
def encode (i : Instr) : IWord := BitVec.ofNat 32 (encodeNat i)

/-- A word as the bytes memory holds, little-endian (R3, R44). -/
def wordBytes (w : IWord) : List Byte :=
  [fld w 0 8, fld w 8 8, fld w 16 8, fld w 24 8]

/-- The word that four bytes of memory hold, lowest address first (R3, R44). -/
def bytesWord (b0 b1 b2 b3 : Byte) : IWord :=
  BitVec.ofNat 32 (b0.toNat + b1.toNat * 2 ^ 8 + b2.toNat * 2 ^ 16 + b3.toNat * 2 ^ 24)

/-- The instruction at the head of a byte string and the bytes after it; none where fewer than four bytes stand there or
the word is not an instruction. -/
def decodeBytes (bs : List Byte) : Option (Instr × List Byte) :=
  match bs with
  | b0 :: b1 :: b2 :: b3 :: rest =>
    match decode (bytesWord b0 b1 b2 b3) with
    | .ok i => some (i, rest)
    | .error _ => none
  | _ => none

/-- The instruction the decoder reads from bits numbered as spec/opcode_table.json numbers them. Every row of the table
that has bits has 32 of them, one word. -/
def decodeTableWord (nbits w : Nat) : Option Instr :=
  if nbits ≤ 32 then
    match decodeBytes (wordBytes (BitVec.ofNat 32 (w % 2 ^ nbits))) with
    | some (i, _) => some i
    | none => none
  else none

end Sys2Proof
end

