-- ==== Sys2Proof/Machine/Fetch.lean ====
section
/-! DEFINITION. Instruction fetch (R44, R111, R160, R314, R393) and the choice of the strand that issues (R28, R29). -/

namespace Sys2Proof.Machine

/-- The place of the word at PC (R111, R393). A window is fetched from as a page without execute permission. -/
def State.fetchPlace (s : State) (sid : StrandId) : Except Trap (Place × State) :=
  let pc := (s.strand sid).pc.toNat
  match s.window sid pc 4 with
  | .outside =>
    match s.locate sid pc .fetch false with
    | .error e => .error e
    | .ok (p, s') => .ok (if s.level sid = .machine then { p with cred := Cred.shared } else p, s')
  | _ =>
    .error (if s.level sid = .machine then trapAt 0x25 pc else { transTrap { cause := 0x25, level := 0 } pc .fetch with drop := none })

/-- The frame carries the mark of a kernel slot that is Withdrawn (R314). -/
def State.withdrawn (s : State) (loc : Nat) : Bool :=
  match s.mem.marks.get? (loc / 4096) with
  | none => false
  | some k => (s.kernels.get? k.slot).any (fun q => q.st == .withdrawn)

/-- The instruction word that stands at a location. -/
def State.wordAt (s : State) (c : Cred) (loc : Nat) : IWord :=
  BitVec.ofNat 32 (leNat (if isHub loc then s.hubBytes loc 4 else s.mem.readBytes s.free c loc 4))

/-- The line of a place, as one read takes it (R152). -/
def State.readLine (s : State) (p : Place) : HeldLine :=
  { words := (List.range 16).map (fun i => s.wordAt p.cred (p.loc / 64 * 64 + 4 * i)), cred := p.cred, barred := [] }

/-- The line as the strand has fetched it before, where a free choice takes the word of this fetch from it: not after an `eret`, nor at an
address that a fence satisfied since names (R160; assumption 11). -/
def State.fetchOld (s : State) (sid : StrandId) (p : Place) : Option HeldLine :=
  ((s.strand sid).fetched.get? (p.loc / 64)).filter (fun l =>
    decide (l.cred = p.cred) && !l.barred.any (fun r => decide (r.1 < p.va + 4) && decide (p.va < r.2)) && Config.fetchStale s.free)

/-- The word at a place, as a strand fetches it (R160). -/
def State.fetchWord (s : State) (sid : StrandId) (p : Place) : IWord :=
  match s.fetchOld sid p with
  | some l => l.words.getD (p.loc % 64 / 4) 0
  | none => s.wordAt p.cred p.loc

/-- The strand has fetched from the line at a place: it holds the line as that fetch read it (R152). -/
def State.holdLine (s : State) (sid : StrandId) (p : Place) : State :=
  let l := match s.fetchOld sid p with | some l => l | none => s.readLine p
  s.modStrand sid (fun t => { t with fetched := t.fetched.set (p.loc / 64) l })

/-- The fetch waits: the line is not in the L1 instruction cache, and its slice holds the miss (R8, R327). -/
def State.fetchHeld (s : State) (core : Nat) (p : Place) : Bool := !s.fetchHits core p && s.placeHeld p false

/-- Fetches the word at PC: the word, or the fault that its fetch meets. -/
def State.fetch (s : State) (sid : StrandId) : Except Trap (IWord × State) :=
  match s.fetchPlace sid with
  | .error e => .error e
  | .ok (p, s') =>
    if s.withdrawn p.loc then .error (trapAt 0xC4 p.va)
    else if s.mem.poisoned p.cred p.loc 4 then .error (trapAt 0xF0 p.va)
    else if s'.fetchHeld sid.core p then .error Trap.wait
    else
      let w := s'.fetchWord sid p
      let t := (s'.holdLine sid p).fetchTouch sid.core p
      .ok (w, { t with free := t.free + 1 })

/-! ## Issue choice (R28, R29, R242) -/

/-- The strand is Running or Trapped (R28). -/
def State.busyStrand (s : State) (sid : StrandId) : Bool :=
  let t := s.strand sid
  (t.st == .running || t.st == .trapped) && !t.paused

/-- The strand can be fetched: Running or Trapped, not paused, not waiting on the handler chain, an engine, a gang or a held
copy, and not stopped by a swap or by the host's debug access. -/
def State.runnable (s : State) (sid : StrandId) : Bool :=
  let t := s.strand sid
  s.busyStrand sid && !t.chained && t.held.isNone && t.gangWait.isNone && !(t.tile.any (fun c => c.op.isSome)) &&
    !(isGeneral sid && s.swapStops sid.core && t.got.isEmpty) && !(sid.num != 5 && s.contextSwapped sid.core) && (!t.stopped || t.stepping)

/-- The strand yields fetch to strands that have not been fetched since (R242). -/
def State.yields (s : State) (core n : Nat) : Bool :=
  match (s.strand { core := core, num := n }).yielding with
  | none => false
  | some (since, left) =>
    decide (s.clk.cycles < since + 16) && left.any (fun k => s.busyStrand { core := core, num := k })

/-- Effective IPRI (R28, R53). -/
def State.issuePriority (s : State) (core n : Nat) : Nat :=
  let t := s.strand { core := core, num := n }
  match t.nudge with
  | some (stop, up) => if stop ≤ s.clk.cycles then t.ipri else if up then Nat.min 3 (t.ipri + 1) else t.ipri - 1
  | none => t.ipri

/-- The general strands that can be fetched and do not yield, in round-robin order after the last one chosen (R28, R242). -/
def State.candidates (s : State) (core : Nat) : List Nat :=
  let last := (s.core core).lastGeneral
  ((List.range 4).map (fun i => (last + 1 + i) % 4)).filter (fun n => s.runnable { core := core, num := n } && !s.yields core n)

/-- The elements of a list with the greatest measure. -/
def keepMost (f : Nat → Nat) (l : List Nat) : List Nat := l.filter (fun n => l.all (fun k => decide (f k ≤ f n)))

/-- The elements of a list with the least measure. -/
def keepLeast (f : Nat → Nat) (l : List Nat) : List Nat := l.filter (fun n => l.all (fun k => decide (f n ≤ f k)))

/-- The core cycles since a strand was fetched last, or became runnable (R29). -/
def State.fetchAge (s : State) (core n : Nat) : Nat := s.clk.cycles - (s.strand { core := core, num := n }).lastFetch

/-- The core fetched for the strand in the cycle before this one (R28, R29). -/
def State.fetchedBefore (s : State) (core n : Nat) : Bool :=
  (s.core core).lastStrand == some n && (s.core core).fetchedAt.any (fun c => c + 1 == s.clk.cycles)

/-- How many instructions of a strand are fetched and not retired (R28). -/
def State.aheadOf (s : State) (core n : Nat) : Nat := (s.strand { core := core, num := n }).ahead

/-- The general strand chosen (R28 step 3), none of `skip`: one that has waited 15 cycles, oldest wait first; else the highest
priority; then the fewest instructions fetched and not retired; then round robin. A strand fetched in the last cycle gives way to another
(R29). -/
def State.chooseGeneral (s : State) (core : Nat) (skip : List Nat) : Option Nat :=
  let all := (s.candidates core).filter (fun n => !skip.contains n)
  let fresh := all.filter (fun n => !s.fetchedBefore core n)
  let pool := if fresh.isEmpty then all else fresh
  let late := (List.range 4).filter (fun n => pool.contains n && decide (15 ≤ s.fetchAge core n))
  if late.isEmpty then (keepLeast (s.aheadOf core) (keepMost (s.issuePriority core) pool)).head?
  else (keepMost (s.fetchAge core) late).head?

/-- The bound of R29 needs this cycle for a general strand: one that has waited 15 cycles would be fetched too late if it, and those that
have waited as long, had to wait for this cycle to pass (DEDUCED, assumption 124). -/
def State.boundDue (s : State) (core : Nat) : Bool :=
  (s.candidates core).any (fun n =>
    decide (15 ≤ s.fetchAge core n) &&
      decide (16 < s.fetchAge core n + ((s.candidates core).filter (fun k => decide (s.fetchAge core n ≤ s.fetchAge core k))).length))

/-- The strand that a fetch goes to, in the order of R28: standby; landing, at most every other cycle while a general strand is Running or
Trapped, and not in a cycle that the bound of R29 needs; then a general strand. -/
def State.pick (s : State) (core : Nat) (skip : List Nat) : Option Nat :=
  let busy := (List.range 4).any (fun n => s.busyStrand { core := core, num := n })
  if s.runnable { core := core, num := 5 } && !skip.contains 5 then some 5
  else if s.runnable { core := core, num := 4 } && !skip.contains 4 && !(busy && s.fetchedBefore core 4) && !s.boundDue core then some 4
  else s.chooseGeneral core skip

/-- The strand that a core fetches for: a strand that owes fetches to the normaliser forfeits this one, and it goes to the next
choice (R28, R85). -/
def State.grant (fuel : Nat) (s : State) (core : Nat) (skip : List Nat) : Option Nat × State :=
  match fuel with
  | 0 => (none, s)
  | k + 1 =>
    match s.pick core skip with
    | none => (none, s)
    | some n =>
      let sid : StrandId := { core := core, num := n }
      if (s.strand sid).forfeit = 0 then (some n, s)
      else State.grant k (s.modStrand sid (fun t => { t with forfeit := t.forfeit - 1 })) core (n :: skip)

/-- The strand that a core fetches for in this cycle (R28). -/
def State.choose (s : State) (core : Nat) : Option Nat × State := s.grant 6 core []

/-- The core can fetch at all: it is not in retention, its cluster's P-state is not changing, and no thermal trip stands (R41,
R358, R360). -/
def State.canFetch (s : State) (core : Nat) : Bool :=
  !s.hub.tripped && decide ((s.core core).retained = 0) && (s.cluster (clusterOf core)).changing.isNone &&
    decide ((s.cluster (clusterOf core)).curc = 0)

/-- The first strand of a Ready context runs, and the context is Running (R258). -/
def State.activate (s : State) (sid : StrandId) : State :=
  match s.asidOf sid.core with
  | none => s
  | some a =>
    match s.contexts.get? a with
    | none => s
    | some c => if isGeneral sid && c.st == .ready then { s with contexts := s.contexts.set a { c with st := .active } } else s

/-- Other strands' yields no longer wait for this strand (R242). -/
def State.noteYield (s : State) (sid : StrandId) : State :=
  (List.range 4).foldl (fun s n =>
    match (s.strand { core := sid.core, num := n }).yielding with
    | none => s
    | some (since, left) =>
      s.modStrand { core := sid.core, num := n } (fun t => { t with yielding := some (since, removeNat left sid.num) })) s

/-- Accounts for a fetch: the round robin, the bound, the instructions ahead and the yields (R28, R29, R242). -/
def State.noteFetch (s : State) (sid : StrandId) : State :=
  let s := s.modCore sid.core (fun k =>
    { k with lastStrand := some sid.num, fetchedAt := some s.clk.cycles, lastGeneral := if isGeneral sid then sid.num else k.lastGeneral })
  (s.modStrand sid (fun t => { t with lastFetch := s.clk.cycles, ahead := t.ahead + 1, yielding := none })).noteYield sid

/-! ## Cycles (R28, R29, R31) -/

/-- At the end of a cycle in which no instruction of a core has issued, the core has fetched for a strand all the same, whose word has not
retired yet (R28, R29). -/
def State.holdFetch (s : State) (core : Nat) : State :=
  if (s.core core).fetchedAt = some s.clk.cycles ∨ !s.canFetch core then s
  else
    match s.choose core with
    | (none, t) => t
    | (some n, t) => t.noteFetch { core := core, num := n }

/-- A core cycle ends. -/
def State.nextCycle (s : State) : State := (s.listedCores.foldl State.holdFetch s).tick 1

/-- Core cycles pass; where no strand can be fetched, nothing but time. -/
def State.passCycles (n : Nat) (s : State) : State :=
  match n with
  | 0 => s
  | k + 1 => if s.listedStrands.any s.runnable then State.passCycles k s.nextCycle else s.tick (k + 1)

/-- An instruction of a core retires in this cycle, unless one has retired already: then in the next (R31). -/
def State.toRetire (s : State) (core : Nat) : State :=
  let s := if (s.core core).retiredAt = some s.clk.cycles then s.nextCycle else s
  s.modCore core (fun k => { k with retiredAt := some s.clk.cycles })

/-- A core is about to issue: a cycle ends first in which it has fetched or an instruction of it has retired (R28, R31). -/
def State.toIssue (s : State) (core : Nat) : State :=
  if (s.core core).fetchedAt = some s.clk.cycles ∨ (s.core core).retiredAt = some s.clk.cycles then s.nextCycle else s

/-- The strand whose word issues executes: the fetch is accounted for, and accesses that the word has made before are not made again
(R143, R152). -/
def State.startIssue (s : State) (sid : StrandId) : State :=
  let s := ((s.noteFetch sid).activate sid).modCore sid.core (fun k => { k with retiredAt := some s.clk.cycles })
  { (s.modStrand sid (fun t => { t with stepping := false })) with cur := sid, replay := (s.strand sid).got }

end Sys2Proof.Machine
end

