-- ==== Sys2Proof/Machine/Channel.lean ====
section
/-! DEFINITION. Channel words of translated kernels (R317, R319-R322). -/

namespace Sys2Proof.Machine

/-- The slot and kernel whose portable, Resident code the word at PC belongs to (R59, R317). -/
def State.chanKernel (s : State) : Option (Nat × Kernel) :=
  match s.fetchPlace s.cur with
  | .error _ => none
  | .ok (p, _) =>
    match s.mem.marks.get? (p.loc / 4096) with
    | none => none
    | some m =>
      if !m.portable then none
      else
        match s.kernels.get? m.slot with
        | none => none
        | some k => if k.st = .resident then some (m.slot, k) else none

/-- The number of the virtual core that runs on a strand (R319, R320): the one that its task runs inline, or that its task is. -/
def Strand.vcore (t : Strand) : Option Nat :=
  match t.inline with
  | some v => some v
  | none =>
    match t.task.map (fun (r : TaskRecord) => r.role) with
    | some (.virtual v) => some v
    | _ => none

/-- The number that a channel word of the executing strand takes as its own virtual core's. In a task that is no virtual core the spec states
none: a free value below V (assumption 20). -/
def State.ownVcore (s : State) (slot : Nat) (k : Kernel) : Nat :=
  (s.me.vcore.getD (Config.virtualCore slot (StrandId.tid s.cur) ((s.me.task.map TaskRecord.toNat).getD 0))) % k.vcores

/-- The mailbox of a channel and a virtual core, by its address in the data region (R310, R321). -/
def Kernel.box (k : Kernel) (n v : Nat) : Nat := k.dataPa + k.dataSec + 144 * (n * k.vcores + v)

/-- A mailbox's words, oldest first. -/
def State.box (s : State) (b : Nat) : List Word := Sparse.at [] s.boxes b

/-- Replaces a mailbox's words. -/
def State.setBox (s : State) (b : Nat) (l : List Word) : State := { s with boxes := Sparse.put [] s.boxes b l }

/-- Words that a mailbox holds (R321). -/
def boxSize : Nat := 16

/-- The waiter can be served at a mailbox now. -/
def State.boxReady (s : State) (b : Nat) (w : Waiter) : Bool :=
  match w.wait with
  | .mailbox receive _ l => l == b && (if receive then !(s.box b).isEmpty else decide ((s.box b).length < boxSize))
  | _ => false

/-- A mailbox operation at its home: what it returns, and the state after it. -/
def State.boxServe (s : State) (b : Nat) (receive : Bool) (data : Word) : Word × State :=
  if receive then ((s.box b).headD 0, s.setBox b (s.box b).tail) else (0, s.setBox b (s.box b ++ [data]))

/-- The earliest waiter that a mailbox can serve is served, and the search repeats (R105, R322). -/
def State.boxRound (fuel : Nat) (b : Nat) (s : State) : State :=
  match fuel with
  | 0 => s
  | n + 1 =>
    match takeFirst (s.boxReady b) s.waiters with
    | none => s
    | some (w, rest) =>
      let r := ({ s with waiters := rest }).boxServe b (match w.wait with | .mailbox receive _ _ => receive | _ => false) w.data
      State.boxRound n b (r.2.modStrand w.who (fun t => { t with served := some r.1 }))

/-- A channel word: 0x05 outside translated code, 0xA1 for a channel that the kernel does not use; then its own work. -/
def State.channel (n : BitVec 8) (work : Nat → Kernel → State → Run) (s : State) : Run :=
  match s.chanKernel with
  | none => .error (trapOf 0x05)
  | some (slot, k) => if k.nchan ≤ n.toNat then .error (trapOf 0xA1) else work slot k s

/-- `chsend` and `chrecv` at a mailbox: done now, or a wait. -/
def State.boxWait (receive : Bool) (d : IntReg) (b : Nat) (data : Word) (s : State) : Run :=
  let w : Waiter := { who := s.cur, wait := .mailbox receive d b, data := data, cred := s.cred s.cur }
  if s.boxReady b w then
    let r := s.boxServe b receive data
    let t := r.2.boxRound r.2.waiters.length b
    .ok (if receive then t.setX d r.1 else t).retire
  else ({ s with waiters := s.waiters ++ [w] }).parkOr68 w.wait

/-- R322: `chsend`. -/
def execChsend (d a : IntReg) (n : BitVec 8) (s : State) : Host.Outcome State Fault Refusal :=
  word plain false (State.channel n (fun _ k s =>
    let v := (s.x a).toNat
    if k.vcores ≤ v then .error (trapOf 0xA1) else (s.drain s.cur).boxWait false d (k.box n.toNat v) (s.x d))) s

/-- R322: `chrecv`. -/
def execChrecv (d : IntReg) (n : BitVec 8) (s : State) : Host.Outcome State Fault Refusal :=
  word plain false (State.channel n (fun slot k s => (s.drain s.cur).boxWait true d (k.box n.toNat (s.ownVcore slot k)) 0)) s

/-- R322: `chpoll`. -/
def execChpoll (d : IntReg) (n : BitVec 8) (s : State) : Host.Outcome State Fault Refusal :=
  word plain false (State.channel n (fun slot k s =>
    let s := s.drain s.cur
    .ok ((s.setX d (BitVec.ofNat 64 (s.box (k.box n.toNat (s.ownVcore slot k))).length)).retire))) s

/-- R322: `vcore`. -/
def execVcore (d : IntReg) (s : State) : Host.Outcome State Fault Refusal :=
  word plain false (fun s =>
    match s.chanKernel with
    | none => .error (trapOf 0x05)
    | some (slot, k) => .ok ((s.setX d (BitVec.ofNat 64 (k.vcores * 2 ^ 32 + s.ownVcore slot k))).retire)) s

end Sys2Proof.Machine
end

