-- ==== Sys2Proof/Machine/Command.lean ====
section
/-! DEFINITION. The security engine's mailbox commands: the checks of their operands (R339, R340) and what their execution shares. -/

namespace Sys2Proof.Machine

/-- A whole operand word. -/
def wholeWord : Nat := 2 ^ 64 - 1

/-- The bits of ARG0, ARG1, … that a command uses (R340). -/
def usedBits (op : Nat) : List Nat :=
  match op with
  | 2 => [wholeWord, wholeWord]
  | 4 => [1, wholeWord]
  | 8 => List.replicate 5 wholeWord
  | 11 => List.replicate 4 wholeWord
  | 12 => List.replicate 10 wholeWord
  | 16 => [wholeWord, wholeWord]
  | 17 => [0x1FFFF, wholeWord, wholeWord]
  | 18 => List.replicate 3 wholeWord
  | _ => [wholeWord]

/-- ARG`i` of a command. -/
def cmdArg (args : Sparse Word) (i : Nat) : Nat := (Sparse.at 0 args (i + 1)).toNat

/-- No operand bit that the command does not use is set (R340). -/
def unusedClear (op : Nat) (args : Sparse Word) : Bool :=
  (List.range 14).all (fun i => cmdArg args i &&& (wholeWord - (usedBits op).getD i 0) == 0)

/-- A context holds the ASID. -/
def State.namesContext (s : State) (a : Nat) : Bool := (s.contexts.get? a).isSome

/-- The number is that of a kernel slot (R311). -/
def namesSlot (n : Nat) : Bool := decide (1 ≤ n) && decide (n ≤ 1023)

/-- The operands name what the command needs (R340). -/
def State.namesOk (s : State) (op : Nat) (args : Sparse Word) : Bool :=
  match op with
  | 2 => s.namesContext (cmdArg args 0)
  | 3 => s.tidExists (cmdArg args 0)
  | 4 => if cmdArg args 0 = 0 then s.tidExists (cmdArg args 1) else decide (cmdArg args 1 ≤ 7)
  | 5 => decide (cmdArg args 0 ≤ 7)
  | 6 => s.namesContext (cmdArg args 0)
  | 7 => s.namesContext (cmdArg args 0)
  | 8 => decide (cmdArg args 0 ≤ 255) && s.namesContext (cmdArg args 2) && (s.groups.get? (cmdArg args 3)).isSome
  | 9 => decide (cmdArg args 0 ≤ 255)
  | 10 => decide (cmdArg args 0 ≤ 255)
  | 12 => namesSlot (cmdArg args 0) && s.namesContext (cmdArg args 1)
  | 13 => namesSlot (cmdArg args 0)
  | 14 => namesSlot (cmdArg args 0)
  | 15 => namesSlot (cmdArg args 0)
  | 17 => if bitAt (cmdArg args 0) 16 then decide (cmdArg args 0 % 65536 = 0) else s.namesContext (cmdArg args 0)
  | 18 =>
    match cmdArg args 0 with
    | 2 => s.namesContext (cmdArg args 1) && decide (cmdArg args 2 = 0)
    | 3 => decide (cmdArg args 1 = 0)
    | _ => decide (3 < cmdArg args 0) || decide (cmdArg args 1 = 0 ∧ cmdArg args 2 = 0)
  | _ => true

/-- A command's step, while it is the one that runs: STATUS 0xFE where its operands fail R340, and its own work otherwise. -/
def command (op : Nat) (work : Sparse Word → State → State) (s : State) : Host.Outcome State Fault Refusal :=
  match s.hub.running with
  | none => .next s
  | some (o, args) =>
    if o.toNat ≠ op then .next s
    else if unusedClear op args && s.namesOk op args then .next (work args s)
    else .next (s.answer 0xFE 0 0)

/-- The bytes of a structure that a command reads through a physical address lie in stacked DRAM or host memory. -/
def readable (a n : Nat) : Bool :=
  decide (a + n ≤ Config.dramEnd) || (decide (Config.hostBase ≤ a) && decide (a + n ≤ Config.physEnd))

/-- A refusal of a list that applies first, 0 where none does (R340). -/
def firstRefusal (l : List (Bool × Nat)) : Nat :=
  match l with
  | [] => 0
  | (b, n) :: rest => if b then n else firstRefusal rest

end Sys2Proof.Machine
end

