-- ==== Sys2Proof/Machine/Copy.lean ====
section
/-! DEFINITION. Copies, packets, `publish`, tags and tag waits, tensor handles and range fences: their checks, their issue and their
completion (R161-R172, R201-R225). -/

namespace Sys2Proof.Machine

/-! ## Slots (R166) -/

/-- The slot that a part joins: the lowest that intersects it, else the lowest free one, else the one of least gap. -/
def slotFor (slots : Sparse RangeSlot) (lo hi : Nat) : Nat :=
  let hits : Nat → Bool := fun i => match slots.get? i with | some r => meets r.lo r.hi lo hi | none => false
  let gap : Nat → Nat := fun i => match slots.get? i with | some r => Nat.max (lo - r.hi) (r.lo - hi) | none => 0
  match (List.range 8).find? hits with
  | some i => i
  | none =>
    match (List.range 8).find? (fun i => (slots.get? i).isNone) with
    | some i => i
    | none => (List.range 8).foldl (fun b i => if gap i < gap b then i else b) 0

/-- Join: the slots with a part counted and the slot it joined, or nothing while that slot's count stands at 4,095. -/
def joinSlot (slots : Sparse RangeSlot) (lo hi : Nat) : Option (Nat × Sparse RangeSlot) :=
  let i := slotFor slots lo hi
  let r : RangeSlot := (slots.get? i).getD { lo := lo, hi := hi, count := 0 }
  if r.count = 4095 then none
  else some (i, slots.set i { lo := Nat.min r.lo lo, hi := Nat.max r.hi hi, count := r.count + 1 })

/-- Joins the parts of a list in order; a part without bytes presents nothing. -/
def joinSlots (slots : Sparse RangeSlot) (parts : List (Nat × Nat)) : Option (List Nat × Sparse RangeSlot) :=
  match parts with
  | [] => some ([], slots)
  | (lo, hi) :: rest =>
    if hi ≤ lo then joinSlots slots rest
    else
      match joinSlot slots lo hi with
      | none => none
      | some (i, slots') =>
        match joinSlots slots' rest with
        | none => none
        | some (is, out) => some (i :: is, out)

/-- A slot's count falls by 1; at 0 the slot is free. -/
def leaveSlot (slots : Sparse RangeSlot) (i : Nat) : Sparse RangeSlot :=
  match slots.get? i with
  | none => slots
  | some r => if r.count ≤ 1 then slots.erase i else slots.set i { r with count := r.count - 1 }

/-! ## Class counts (R201, R214) -/

/-- The count of a class. -/
def Strand.count (t : Strand) (c : CopyClass) : Nat :=
  match c with
  | .inn => t.cntIn
  | .out => t.cntOut
  | .send => t.cntSend
  | .pub => t.cntPub

/-- Replaces the count of a class. -/
def Strand.setCount (t : Strand) (c : CopyClass) (n : Nat) : Strand :=
  match c with
  | .inn => { t with cntIn := n }
  | .out => { t with cntOut := n }
  | .send => { t with cntSend := n }
  | .pub => { t with cntPub := n }

/-! ## Control words (R205) -/

/-- The control word has a nonzero reserved bit or a field out of its range. -/
def ctlBad (op : CopyOp) (w : Word) : Bool :=
  match op with
  | .send => decide (bitsAt w.toNat 40 24 ≠ 0)
  | .tsend => decide (bitsAt w.toNat 40 24 ≠ 0) || decide (bitsAt w.toNat 12 20 ≠ 0)
  | .sendh => decide (bitsAt w.toNat 17 15 ≠ 0) || decide (256 < bitsAt w.toNat 8 9)
  | .sendr => decide (bitsAt w.toNat 17 15 ≠ 0) || decide (256 < bitsAt w.toNat 8 9)
  | .publish => false

/-- TAG. -/
def ctlTag (w : Word) : BitVec 6 := BitVec.ofNat 6 (bitsAt w.toNat 32 6)
/-- TAGEN. -/
def ctlTagEn (w : Word) : Bool := bitAt w.toNat 38
/-- REC. -/
def ctlRec (w : Word) : Bool := bitAt w.toNat 39

/-! ## Spans (R202) -/

/-- The register space as virtual addresses (R13). -/
def regSpace : Nat × Nat := (Config.selfWindowBase + 0x80000, Config.selfWindowBase + 0x100000)

/-- The lowest byte of a span in an unpopulated part of a window, or the span's own lowest byte where it crosses a window boundary. -/
def spanHole (lo len : Nat) : Option Nat :=
  let hi := lo + len
  if !meets lo hi Config.selfWindowBase Config.spadWindowEnd then none
  else if lo < Config.selfWindowBase ∨ Config.spadWindowEnd < hi ∨ (lo < Config.selfWindowEnd ∧ Config.selfWindowEnd < hi) then some lo
  else if lo < Config.selfWindowEnd then
    if regSpace.2 ≤ lo then some lo else if regSpace.1 < hi then some regSpace.1 else none
  else
    let off := (lo - Config.spadWindowBase) % Config.spadBlock
    if 768 ≤ (lo - Config.spadWindowBase) / Config.spadBlock % 1024 ∨ Config.spadBytes ≤ off then some lo
    else if Config.spadBytes < off + len then some (lo - off + Config.spadBytes)
    else none

/-- The scratchpad that an address lies in, for a strand of core `home`. -/
def spadOwner (home a : Nat) : Option Nat :=
  match windowOf home a 1 (fun _ => true) (fun _ => true) with
  | .spad g _ => some g
  | _ => none

/-- The address lies in a window. -/
def inWindows (a : Nat) : Bool := decide (Config.selfWindowBase ≤ a) && decide (a < Config.spadWindowEnd)

/-- The span checks of R202, in their order. A span is an address and a length. -/
def State.checkSpans (s : State) (source dest : Nat × Nat) : Except Trap Unit :=
  let both := [source, dest].filter (fun p => decide (p.2 ≠ 0))
  match both.find? (fun p => meets p.1 (p.1 + p.2) regSpace.1 regSpace.2) with
  | some p => .error (trapAt 0x2A (Nat.max p.1 regSpace.1))
  | none =>
    match (both.filterMap (fun p => spanHole p.1 p.2)).head? with
    | some a => .error (trapAt 0x29 a)
    | none =>
      let home := s.cur.core
      let may : Nat → Bool := fun g => if s.myLevel == .machine then s.coreExists g || s.coreLost g else s.coreExists g && s.inGroup home g
      if dest.2 ≠ 0 ∧ (spadOwner home dest.1).any (fun g => !may g) then .error (trapAt 0x28 dest.1)
      else if source.2 ≠ 0 ∧ (spadOwner home source.1).any (fun g => g != home) then .error (trapAt 0x6A source.1)
      else .ok ()

/-! ## Places of a copy's accesses -/

/-- The place of a byte that a party of a copy's reads or writes, in the address space that it was issued in (R212); none in a socket that has
been lost (R336), nor in a scratchpad that `may` does not admit (R14). -/
def State.copyReach (s : State) (c : Copy) (va : Nat) (kind : Access) (hidden : Bool) (may : Nat → Bool) : Except Trap (Place × State) :=
  match windowOf c.issuer.core va 1 s.coreExists may with
  | .bad k => .error (trapAt (if k = 0x28 ∧ s.targetLost va then 0xF5 else k) va)
  | .spad g off => .ok (spadPlace c.cred va g off, s)
  | .regs _ => .error (trapAt 0x2A va)
  | .outside =>
    if c.level = .machine then
      match physPlace c.cred va with
      | .error e => .error e
      | .ok p => .ok (p, s)
    else s.locateIn none c.issuer.core c.asid c.cred (c.level == .user) va kind hidden

/-- The place of a byte that a copy reads or writes; the scratchpads of its spans were checked at its issue (R202). -/
def State.copyPlace (s : State) (c : Copy) (va : Nat) (kind : Access) (hidden : Bool) : Except Trap (Place × State) :=
  s.copyReach c va kind hidden (fun _ => true)

/-- Where a user-level read of a ring entry of a strand is made; nowhere where it would fault (R206, R212). -/
def State.ringPlace (s : State) (sid : StrandId) (addr : Nat) : Option (Place × State) :=
  match s.window sid addr 1 with
  | .spad g off => some (spadPlace (s.cred sid) addr g off, s)
  | .regs _ => none
  | .bad _ => none
  | .outside =>
    match (if s.level sid = .machine then (physPlace (s.cred sid) addr).map (fun p => (p, s))
      else s.locateIn none sid.core (s.asid sid) (s.cred sid) true addr .read false) with
    | .error _ => none
    | .ok r => some r

/-- The STATUS byte of a ring entry, as a user-level read of the strand finds it; none where it cannot be read (R206, R212). -/
def State.ringStatus (s : State) (sid : StrandId) (addr : Nat) : Option Byte :=
  match s.ringPlace sid addr with
  | none => none
  | some (p, _) => if s.mem.poisoned p.cred p.loc 1 then none else some (s.mem.read s.free p.cred p.loc)

/-- The lines that an access at a place takes through their slices (R157, R328). -/
def Place.lines (p : Place) : List Nat := if p.cached then [p.loc / 64] else []

/-- What the read of a STATUS byte leaves: a core asleep at depth 3 whose scratchpad holds it wakes (R43), and its line has been used
(R328). -/
def State.ringRead (s : State) (sid : StrandId) (addr : Nat) : State :=
  match s.ringPlace sid addr with
  | none => s
  | some (p, s') => (s'.wakeSpad p.loc).siltUses p.cred false p.lines

/-! ## Plans and issue (R203, R206) -/

/-- What a copy instruction issues once its checks have passed, with the operands it captures. -/
structure Plan where
  op     : CopyOp
  cls    : CopyClass
  source : Nat × Nat
  dest   : Nat × Nat
  todo   : List Span
  ctl    : Word
  tagCore : Nat
  packet : Option Packet
  deriving DecidableEq, Repr

/-- The address of the ring entry at WIDX. -/
def Strand.ringEntry (t : Strand) : Word := t.crb + BitVec.ofNat 64 (16 * t.widx)

/-- The address of the ring entry at RIDX (R222). -/
def Strand.ringHead (t : Strand) : Word := t.crb + BitVec.ofNat 64 (16 * t.ridx)

/-- The entry at WIDX is free (R212): STATUS reads 0 or cannot be read, and no issued copy of the strand has reserved it. -/
def State.ringFree (s : State) : Bool :=
  let a := s.me.ringEntry
  !s.copies.any (fun c => c.2.uid == s.me.uid && c.2.record.any (fun r => r.1 == a)) &&
    (s.ringStatus s.cur a.toNat).all (fun b => b == 0)

/-- The queue of a plan's network has a free entry. -/
def State.queueFree (s : State) (op : CopyOp) : Bool :=
  let k := s.core s.cur.core
  match op with
  | .send => decide (k.sendBulk.length < 32)
  | .tsend => decide (k.sendBulk.length < 32)
  | .sendh => decide (k.sendReq.length < 32)
  | .sendr => decide (k.sendReply.length < 32)
  | .publish => true

/-- The parts that a plan presents to the slots. -/
def Plan.parts (p : Plan) : List (Nat × Nat) :=
  [(p.source.1, p.source.1 + p.source.2), (p.dest.1, p.dest.1 + p.dest.2)]

/-- The slots that a plan joins, where every hold condition of R206 is clear. -/
def State.clearToIssue (s : State) (p : Plan) : Option (List Nat × Sparse RangeSlot) :=
  if s.queueFree p.op && (!ctlRec p.ctl || s.ringFree) && decide (s.me.count p.cls < 65535) &&
      !p.parts.any (fun r => s.fenced s.cur r.1 r.2) then joinSlots s.me.slots p.parts
  else none

/-- The copy takes an entry of its core's send queue. -/
def CoreState.enqueueCopy (k : CoreState) (op : CopyOp) (id : Nat) : CoreState :=
  match op with
  | .send => { k with sendBulk := k.sendBulk ++ [id] }
  | .tsend => { k with sendBulk := k.sendBulk ++ [id] }
  | .sendh => { k with sendReq := k.sendReq ++ [id] }
  | .sendr => { k with sendReply := k.sendReply ++ [id] }
  | .publish => k

/-- The copy gives up its entry of its core's send queue (R206). -/
def State.dequeueCopy (s : State) (core id : Nat) : State :=
  s.modCore core (fun k =>
    { k with sendBulk := removeNat k.sendBulk id, sendReq := removeNat k.sendReq id, sendReply := removeNat k.sendReply id })

/-- The record's 16 bytes as a number (R212). -/
def Copy.recordWord (c : Copy) (seq : Word) : Nat :=
  let op := match c.op with | .send => 0 | .sendh => 1 | .sendr => 2 | .tsend => 3 | .publish => 0
  let bytes := match c.packet with | some (p, _) => p.plen | none => c.written
  (if c.error.isSome then 2 else 1) + place 8 (c.error.getD 0).toNat + place 16 c.tag.toNat + place 22 (flag c.tagEn) + place 24 op +
    place 32 (bytes % 2 ^ 32) + place 64 seq.toNat

/-- The bytes at a place as an asynchronous read finds them. -/
def State.rawRead (s : State) (p : Place) (n : Nat) : List Byte :=
  if p.ca = 2 ∧ isHub p.loc then s.hubBytes p.loc n else s.mem.readBytes s.free p.cred p.loc n

/-- An asynchronous write at a place. -/
def State.rawWrite (s : State) (p : Place) (bs : List Byte) : State :=
  if p.ca = 2 ∧ isHub p.loc then s.hubStores bs.length p.loc bs
  else if p.cached then s.storeBy p.cred (cellsAt p.loc bs)
  else s.store p.cred (cellsAt p.loc bs)

/-- A copy's record is read and written at user level, but for the physical addresses of machine level (R212). -/
def Copy.atUser (c : Copy) : Copy := { c with level := if c.level = .machine then .machine else .user }

/-- Where the record of a copy is written (R212): in a scratchpad, only in one of the issuing group's cores (R14). -/
def State.recordPlace (s : State) (c : Copy) (addr : Word) : Except Trap (Place × State) :=
  s.copyReach c.atUser addr.toNat .write false (fun g =>
    c.level == .machine || g == c.issuer.core || (c.group.isSome && decide ((s.core g).group = c.group)))

/-- The write of a copy's record is not held up by its walk or its miss (R327). -/
def State.recordReady (s : State) (c : Copy) : Bool :=
  match c.record with
  | none => true
  | some (a, _) => match s.recordPlace c a with | .error e => !e.stall | .ok (p, s') => !s'.placeHeld p true

/-- The owner tag of the context that a copy works for, or 0 (R351). -/
def State.copyTag (s : State) (c : Copy) : Nat :=
  match c.asid.bind (fun a => s.contexts.get? a) with
  | some x => x.tagWord
  | none => 0

/-- A parked wait for the ring's next entry is over once its record is written: another party may free the entry before the strand goes
on (R25, R222). -/
def Strand.latchRing (addr : Word) (t : Strand) : Strand :=
  match t.wait with
  | some (.ring _) => if t.ringHead = addr then t.latch 0 else t
  | _ => t

/-- The record of a completed copy is written as one write of 16 bytes, or discarded with an event where the write faults (R212, R285). -/
def State.writeRecord (s : State) (c : Copy) (addr seq : Word) : State :=
  let drop : State → State := fun s => s.logEvent 0x0002 (c.issuer.core % 1024) 0 (s.copyTag c) addr 0
  match s.recordPlace c addr with
  | .error e => drop (s.afterFault c.issuer.core e)
  | .ok (p, s') =>
    if p.sync then drop s' else (s'.rawWrite p (leBytes 16 (c.recordWord seq))).modUid c.uid (Strand.latchRing addr)

/-- The copy is a packet. -/
def CopyOp.isPacket (o : CopyOp) : Bool := o == .sendh || o == .sendr

/-- The image of a swapped partition that holds a core of a group. -/
def Image.holds (core : Nat) (group : Option Nat) (im : Image) : Bool :=
  group.isSome && (im.cores.get? core).any (fun k => decide (k.group = group))

/-- The tag of a completed `send` or `tsend` is set, in the image where its core is swapped out, and unless its core has passed to a later
group (R213, R228). -/
def State.signalTag (s : State) (c : Copy) : State :=
  let g := (s.core c.tagCore).group
  if !c.tagEn || c.op.isPacket then s
  else if s.images.any (Image.holds c.tagCore c.group) then
    { s with images := s.images.map (fun im => if im.holds c.tagCore c.group then im.setTag c.tagCore c.tag.toNat else im) }
  else if c.group.isNone || g.isNone || decide (g = c.group) then s.setTag c.tagCore c.tag.toNat
  else s

/-- An operation without its copy `id`: a fence no longer waits for it. -/
def Fence.without (id : Nat) (f : Fence) : Fence := { f with waits := removeNat f.waits id }

/-- The issuing strand after a copy of it has completed: joined slots and the class count fall by 1 (R166, R168, R214). -/
def Strand.forgetCopy (id : Nat) (c : Copy) (t : Strand) : Strand :=
  let u := { t with slots := c.slots.foldl leaveSlot t.slots, fences := t.fences.map (Fence.without id) }
  u.setCount c.cls (t.count c.cls - 1)

/-- The completion of a copy (R203, R212-R214): slots and class count fall, fences stop waiting for it, and it signals. -/
def State.completeCopy (s : State) (id : Nat) : State :=
  match s.copies.get? id with
  | none => s
  | some c =>
    let s := ({ s with copies := s.copies.erase id }).dequeueCopy c.issuer.core id
    let s := s.modUid c.uid (Strand.forgetCopy id c)
    let s := s.signalTag c
    let s := match c.record with | some (a, q) => s.writeRecord c a q | none => s
    match c.group with
    | some g => s.groupFree g
    | none => s

/-- A span's first `n` bytes, and the rest. -/
def Span.splitAt (n : Nat) (p : Span) : List Span :=
  if 0 < n ∧ n < p.len then
    [{ p with len := n }, { src := wrap64 (p.src + n), dst := wrap64 (p.dst + n), len := p.len - n }]
  else [p]

/-- A span cut where its addresses wrap at 2^64 (R215). -/
def Span.unwrap (p : Span) : List Span := (p.splitAt (2 ^ 64 - p.src)).flatMap (fun q => q.splitAt (2 ^ 64 - q.dst))

/-- The ring entry at WIDX is reserved (R212). -/
def Strand.reserveEntry (t : Strand) : Strand := { t with widx := (t.widx + 1) % t.crn.toNat, seq := t.seq + 1 }

/-- A plan issues (R203): operands are captured, slots joined, the class count rises, the ring entry is reserved. A copy with nothing to
do completes at issue (R205, R219, R224). -/
def State.issueCopy (s : State) (p : Plan) (slots : List Nat × Sparse RangeSlot) : State :=
  let id := s.fresh
  let rec_ := ctlRec p.ctl && p.op != .publish
  let t := s.me
  let c : Copy :=
    { op := p.op, issuer := s.cur, uid := t.uid, level := s.myLevel, asid := s.asid s.cur, cred := s.cred s.cur, cls := p.cls,
      group := (s.core s.cur.core).group, slots := slots.1,
      todo := if p.op = .publish then p.todo else p.todo.flatMap Span.unwrap, pieces := [], dst := p.dest.1, dstLen := p.dest.2,
      written := 0, tag := ctlTag p.ctl, tagEn := ctlTagEn p.ctl && p.op != .publish, tagCore := p.tagCore,
      record := if rec_ then some (t.ringEntry, t.seq + 1) else none, packet := p.packet.map (fun q => (q, .sendQueue)),
      error := none, wait := none }
  let s := { s with copies := s.copies.set id c, fresh := id + 1 }
  let s := (s.modCore s.cur.core (fun k => k.enqueueCopy p.op id)).modMe (fun t =>
    let t := { (t.setCount p.cls (t.count p.cls + 1)) with slots := slots.2 }
    if rec_ then t.reserveEntry else t)
  if p.todo.isEmpty && p.packet.isNone && s.recordReady c then s.completeCopy id else s

/-- The STATUS byte of the strand's next ring entry is read where the plan wants a record (R206, R212). -/
def State.ringLooked (s : State) (p : Plan) : State :=
  if ctlRec p.ctl && p.op != .publish then s.ringRead s.cur s.me.ringEntry.toNat else s

/-- A copy instruction whose checks have passed issues and retires, or is Held with nothing captured (R203). `s0` is the state before
the checks read anything. -/
def State.issueOrHold (s0 : State) (d a b : IntReg) (p : Plan) (s : State) : Run :=
  match s.clearToIssue p with
  | some slots => .ok ((s.ringLooked p).issueCopy p slots).retire
  | none => .ok ((s0.ringLooked p).modMe (fun t => { t with held := some { op := p.op, d := d, a := a, b := b }, got := [] }))

/-- The first three checks of R204. -/
def State.checkCopy (s : State) (op : CopyOp) (ctl : Word) : Except Trap Unit :=
  if s.cur.num = 4 ∧ op ≠ .sendr then .error (trapOf 0x68)
  else if ctlBad op ctl then .error (trapOf 0x69)
  else if op != .publish && ctlRec ctl && s.me.crb == 0 then .error (trapOf 0x6B)
  else .ok ()

/-- The class of a copy, by its spans (R201). -/
def spanClass (source dest : Nat) : CopyClass := if !inWindows dest then .out else if !inWindows source then .inn else .send

/-! ## `send` (R215) -/

/-- The work of `send`. -/
def State.doSend (d a b : IntReg) (s : State) : Run :=
  let ctl := s.x a
  match s.checkCopy .send ctl with
  | .error e => .error e
  | .ok _ =>
    let len := bitsAt ctl.toNat 0 32
    let src := ((s.x b).toNat, len)
    let dst := ((s.x d).toNat, len)
    match s.checkSpans src dst with
    | .error e => .error e
    | .ok _ =>
      s.issueOrHold d a b
        { op := .send, cls := spanClass src.1 dst.1, source := src, dest := dst,
          todo := if len = 0 then [] else [{ src := src.1, dst := dst.1, len := len }], ctl := ctl,
          tagCore := (spadOwner s.cur.core dst.1).getD s.cur.core, packet := none } s

/-- R215: `send`. -/
def execSend (d a b : IntReg) (s : State) : Host.Outcome State Fault Refusal := word plain false (State.doSend d a b) s

/-! ## Packets (R216) -/

/-- The payload of a packet: bytes 0 to PLEN - 1 of the register pair. -/
def State.payload (s : State) (v : Nat) (plen : Nat) : BitVec 2048 :=
  BitVec.ofNat 2048 (((s.v (BitVec.ofNat 5 v)).toNat + (s.v (BitVec.ofNat 5 (v + 1))).toNat * 2 ^ 1024) % 2 ^ (8 * plen))

/-- The work of `sendh` and `sendr`. -/
def State.doPacket (op : CopyOp) (d a b : IntReg) (s : State) : Run :=
  let ctl := s.x a
  match s.checkCopy op ctl with
  | .error e => .error e
  | .ok _ =>
    let g := (s.x d).toNat
    if !s.coreExists g || !s.inGroup s.cur.core g then .error (trapOf 0xA1)
    else if s.cur.num = 4 ∧ ¬ s.queueFree op then .error (trapOf 0x63)
    else
      let w := ctl.toNat
      let p : Packet := { target := g, lidx := BitVec.ofNat 8 w, plen := bitsAt w 8 9, payload := s.payload b.toNat (bitsAt w 8 9),
                          user := BitVec.ofNat 24 (w / 2 ^ 40), sender := s.cur, reply := op == .sendr }
      s.issueOrHold d a b { op := op, cls := .send, source := (0, 0), dest := (0, 0), todo := [], ctl := ctl, tagCore := g,
                            packet := some p } s

/-- R216: `sendh`. -/
def execSendh (d a : IntReg) (b : VReg) (s : State) : Host.Outcome State Fault Refusal :=
  word plain false (State.doPacket .sendh d a (b.zeroExtend 6)) s

/-- R216: `sendr`. -/
def execSendr (d a : IntReg) (b : VReg) (s : State) : Host.Outcome State Fault Refusal :=
  word plain false (State.doPacket .sendr d a (b.zeroExtend 6)) s

/-! ## Tensor handles (R217-R219) -/

/-- A shape record's fields. -/
def shapeBase (r : Nat) : Nat := bitsAt r 0 64
/-- FMT. -/
def shapeFmt (r : Nat) : Nat := bitsAt r 64 4
/-- RANK. -/
def shapeRank (r : Nat) : Nat := bitsAt r 68 4
/-- SOFF, signed. -/
def shapeSoff (r : Nat) : Int := toSigned 48 (bitsAt r 80 48)
/-- EXTd: 1 for the dimensions RANK and above. -/
def shapeExt (r d : Nat) : Nat := if d < shapeRank r then bitsAt r (128 + 32 * d) 32 else 1
/-- STRd: 0 for the dimensions RANK and above. -/
def shapeStr (r d : Nat) : Nat := if d < shapeRank r then bitsAt r (256 + 64 * d) 64 else 0

/-- The record is not accepted (R217). -/
def shapeBad (r : Nat) : Bool :=
  !bitAt r 72 || decide (shapeRank r = 0) || decide (4 < shapeRank r) || decide (bitsAt r 73 7 ≠ 0) || decide (8 < shapeFmt r)

/-- The address of record `i` of the strand's handle table, or cause 0x6C (R217). -/
def State.shapeAddr (s : State) (i : Nat) : Except Trap Nat :=
  let htb := s.me.htb.toNat
  if htb % 4096 < i then .error (trapOf 0x6C) else .ok (htb / 4096 * 4096 + 64 * i)

/-- The cached copy of a record (R218). -/
def State.shapeCached (s : State) (addr : Nat) : Option Nat :=
  ((s.core s.cur.core).shapes.find? (fun e => e.asid == s.asidName s.cur && e.addr == addr)).map (fun e => e.record.toNat)

/-- A record becomes the most recently used of its core's 64 (R218). -/
def State.shapePut (s : State) (addr r : Nat) : State :=
  let a := s.asidName s.cur
  s.modCore s.cur.core (fun k =>
    { k with shapes := ({ asid := a, addr := addr, record := BitVec.ofNat 512 r } ::
        k.shapes.filter (fun e => !(e.asid == a && e.addr == addr))).take 64 })

/-- The record of a handle: the cached copy, or one synchronous read that fills the cache (R218). -/
def State.shapeRead (s : State) (addr : Nat) : Except Trap (Nat × State) :=
  match s.shapeCached addr with
  | some r => .ok (r, s.shapePut addr r)
  | none =>
    match s.readSpan addr 64 1 with
    | .error e => .error e
    | .ok (bs, s') => .ok (leNat bs, s'.shapePut addr (leNat bs))

/-- A box: origins and sizes (R219). -/
structure Box where
  o : Nat → Nat
  n : Nat → Nat

/-- A box descriptor's fields. -/
def Box.ofNat (w : Nat) : Box := { o := fun d => bitsAt w (32 * d) 32, n := fun d => bitsAt w (128 + 32 * d) 32 }

/-- The box is rejected (R219). -/
def boxBad (r : Nat) (b : Box) : Bool :=
  (List.range 4).any (fun d =>
    if d < shapeRank r then decide (shapeExt r d < b.o d + b.n d) else decide (b.o d ≠ 0) || decide (1 < b.n d)) ||
    (decide (shapeFmt r = 7) && (decide (b.o 0 % 32 ≠ 0) || decide (b.n 0 % 32 ≠ 0)))

/-- The rows of a box: their indices (i1, i2, i3), in order of `row`. -/
def boxRows (b : Box) : List (Nat × Nat × Nat) :=
  (List.range (b.n 1 * b.n 2 * b.n 3)).map (fun k => (k % b.n 1, k / b.n 1 % b.n 2, k / (b.n 1 * b.n 2)))

/-- The byte that a row of a box begins at, without its part of dimension 0. -/
def boxRowBase (r : Nat) (b : Box) (i : Nat × Nat × Nat) : Nat :=
  shapeBase r + (b.o 1 + i.1) * shapeStr r 1 + (b.o 2 + i.2.1) * shapeStr r 2 + (b.o 3 + i.2.2) * shapeStr r 3

/-- The copies that one row of a box is made of (R219); `row` is its number. -/
def boxRow (r : Nat) (b : Box) (dst row : Nat) (i : Nat × Nat × Nat) : List Span :=
  let base := boxRowBase r b i
  if shapeFmt r = 7 then
    let out := dst + (b.n 0 / 2 + b.n 0 / 32) * row
    let l := (b.o 1 + i.1) + shapeExt r 1 * ((b.o 2 + i.2.1) + shapeExt r 2 * (b.o 3 + i.2.2))
    let scale : Int := (shapeBase r : Int) + shapeSoff r + (l * ((shapeExt r 0 + 31) / 32) + b.o 0 / 32 : Nat)
    [{ src := wrap64 (base + b.o 0 / 2), dst := wrap64 out, len := b.n 0 / 2 },
     { src := (scale % (2 ^ 64 : Nat)).toNat, dst := wrap64 (out + b.n 0 / 2), len := b.n 0 / 32 }]
  else
    let w := elemSize (shapeFmt r)
    (List.range (b.n 0)).map (fun i0 =>
      { src := wrap64 (base + (b.o 0 + i0) * shapeStr r 0), dst := wrap64 (dst + w * (i0 + b.n 0 * row)), len := w })

/-- Every element of a box (R219); none where some size is 0. -/
def boxSpans (r : Nat) (b : Box) (dst : Nat) : List Span :=
  if (List.range 4).any (fun d => decide (b.n d = 0)) then []
  else ((boxRows b).zipIdx.map (fun e => boxRow r b dst e.2 e.1)).flatten

/-- The range from the lowest to one past the highest source byte, as an address and a length. -/
def sourceSpan (spans : List Span) : Nat × Nat :=
  match spans with
  | [] => (0, 0)
  | p :: rest =>
    let lo := rest.foldl (fun m q => Nat.min m q.src) p.src
    let hi := rest.foldl (fun m q => Nat.max m (q.src + q.len)) (p.src + p.len)
    (lo, hi - lo)

/-- The work of `tsend` (R204, R219): control word, handle index, descriptor, record, box, spans. -/
def State.doTsend (d a b : IntReg) (s : State) : Run :=
  let ctl := s.x a
  match s.checkCopy .tsend ctl with
  | .error e => .error e
  | .ok _ =>
    match s.shapeAddr (bitsAt ctl.toNat 0 12) with
    | .error e => .error e
    | .ok addr =>
      let desc := (s.x b).toNat
      let reads := (desc, desc + 32) :: (if (s.shapeCached addr).isNone then [(addr, addr + 64)] else [])
      s.unlessHeld reads
        (match s.readSpan desc 32 8 with
         | .error e => .error e
         | .ok (bs, s1) =>
           match s1.shapeRead addr with
           | .error e => .error e
           | .ok (r, s2) =>
             let box := Box.ofNat (leNat bs)
             if shapeBad r then .error (trapOf 0x6D)
             else if boxBad r box then .error (trapOf 0x6E)
             else
               let dst := (s.x d).toNat
               let spans := boxSpans r box dst
               let source := sourceSpan spans
               let dest := (dst, spans.foldl (fun n p => n + p.len) 0)
               match s2.checkSpans source dest with
               | .error e => .error e
               | .ok _ =>
                 s.issueOrHold d a b
                   { op := .tsend, cls := spanClass source.1 dst, source := source, dest := dest, todo := spans, ctl := ctl,
                     tagCore := (spadOwner s.cur.core dst).getD s.cur.core, packet := none } s2)

/-- R219: `tsend`. -/
def execTsend (d a b : IntReg) (s : State) : Host.Outcome State Fault Refusal := word plain false (State.doTsend d a b) s

/-! ## `publish` (R171, R224) -/

/-- The leaf of a page that a `publish` meets: a page that is not shadowed is unaffected and needs no permission, and one that is must permit
writing (R171, R224, R285). -/
def State.flipLeaf (s : State) (c : Copy) (asid va : Nat) : Except TransFault (TlbEntry × State) :=
  let check : TlbEntry × State → Except TransFault (TlbEntry × State) := fun r =>
    if pteShadow r.1.leaf.toNat then checkLeaf r .write (c.level == .user) else .ok r
  let again : TransFault → Except TransFault (TlbEntry × State) := fun f =>
    if f.held then .error f
    else match (s.afterWalk f).freshLeaf none c.issuer.core asid va with | .error f => .error f | .ok r => check r
  if 2 ^ 48 ≤ va then .error { cause := 0x27, level := 0 }
  else
    match s.cachedLeaf c.issuer.core asid va with
    | .error f => again f
    | .ok r => match check r with | .ok r => .ok r | .error f => again f

/-- What a `publish` meets from an address on, within a range: nothing to flip, or the address of a page that it flips or whose
translation fails; and the state after the walks that found it. -/
def State.nextFlip (fuel : Nat) (s : State) (c : Copy) (lo hi : Nat) : Option (Nat × Except Trap TlbEntry) × State :=
  match fuel with
  | 0 => (none, s)
  | k + 1 =>
    if hi ≤ lo ∨ inWindows lo then (none, s)
    else if c.level = .machine then (none, s)
    else
      match c.asid with
      | none => (some (lo, .error (transTrap { cause := 0x20, level := 4 } lo .write)), s)
      | some a =>
        match s.flipLeaf c a lo with
        | .error f =>
          let e := transTrap f lo .write
          (some (lo, .error e), s.afterFault c.issuer.core e)
        | .ok (e, s') => if pteShadow e.leaf.toNat then (some (lo, .ok e), s') else s'.nextFlip k c (e.base + e.size) hi

/-- The pages that a range can touch. -/
def pagesOf (lo hi : Nat) : Nat := (hi - lo) / 4096 + 2

/-- What a `publish` of the executing strand has to flip in a range, from its first shadowed page on, if there is one; and the state after
its walks. -/
def State.flipsFor (s : State) (lo n : Nat) : List Span × State :=
  let probe : Copy :=
    { op := .publish, issuer := s.cur, uid := 0, level := s.myLevel, asid := s.asid s.cur, cred := s.cred s.cur,
      cls := .pub, group := none, slots := [], todo := [], pieces := [], dst := lo, dstLen := n, written := 0, tag := 0,
      tagEn := false, tagCore := 0, record := none, packet := none, error := none, wait := none }
  let r := s.nextFlip (pagesOf lo (lo + n)) probe lo (lo + n)
  (match r.1 with | none => [] | some (va, _) => [{ src := 0, dst := va, len := lo + n - va }], r.2)

/-- The work of `publish`. -/
def State.doPublish (d a : IntReg) (s : State) : Run :=
  match s.checkCopy .publish 0 with
  | .error e => .error e
  | .ok _ =>
    let lo := (s.x d).toNat
    let n := (s.x a).toNat
    match s.checkSpans (0, 0) (lo, n) with
    | .error e => .error e
    | .ok _ =>
      let r := s.flipsFor lo n
      s.issueOrHold d a 0
        { op := .publish, cls := .pub, source := (0, 0), dest := (lo, n), todo := r.1, ctl := 0, tagCore := s.cur.core, packet := none } r.2

/-- R224: `publish`. -/
def execPublish (d a : IntReg) (s : State) : Host.Outcome State Fault Refusal := word plain false (State.doPublish d a) s

/-! ## Tag waits (R220-R222) -/

/-- The tags of the executing strand's core. -/
def State.tags (s : State) : Word := (s.core s.cur.core).tagw

/-- R220: `waita`. -/
def execWaita (d a : IntReg) (s : State) : Host.Outcome State Fault Refusal :=
  word plain false (fun s =>
    let m := s.x a
    if m = 0 then .ok (s.setX d 0).retire
    else if s.tags &&& m ≠ 0 then .ok (s.setX d (s.tags &&& m)).retire
    else s.parkOr68 (.tagAny d m)) s

/-- R220: `waitl`. -/
def execWaitl (d a : IntReg) (s : State) : Host.Outcome State Fault Refusal :=
  word plain false (fun s =>
    let m := s.x a
    if m = 0 then .ok (s.setX d 0).retire
    else if s.tags &&& m = m then .ok (s.setX d m).retire
    else s.parkOr68 (.tagAll d m)) s

/-- R220: `ffr`. -/
def execFfr (d a : IntReg) (s : State) : Host.Outcome State Fault Refusal :=
  word plain false (fun s => .ok (s.setX d (BitVec.ofNat 64 (lowestBit 64 (s.tags &&& s.x a).toNat))).retire) s

/-- R220: `tclr`. -/
def execTclr (a : IntReg) (s : State) : Host.Outcome State Fault Refusal :=
  word plain false (fun s => .ok (s.modCore s.cur.core (fun k => { k with tagw := k.tagw &&& ~~~(s.x a) })).retire) s

/-- Each class count is at or below its limit; 0xFFFF is always met (R221). -/
def Strand.classesMet (t : Strand) (limits : Word) : Bool :=
  [(t.cntIn, 0), (t.cntOut, 16), (t.cntSend, 32), (t.cntPub, 48)].all (fun e =>
    decide (bitsAt limits.toNat e.2 16 = 0xFFFF) || decide (e.1 ≤ bitsAt limits.toNat e.2 16))

/-- R221: `waitc`. -/
def execWaitc (a : IntReg) (s : State) : Host.Outcome State Fault Refusal :=
  word plain false (fun s => if s.me.classesMet (s.x a) then .ok s.retire else s.parkOr68 (.classes (s.x a))) s

/-- `waitr` returns: the entry's address is written and RIDX moves on. -/
def State.ringTake (s : State) (d : IntReg) : State :=
  ((s.setX d s.me.ringHead).modMe (fun t => { t with ridx := (t.ridx + 1) % t.crn.toNat })).retire

/-- R222: `waitr`. -/
def execWaitr (d : IntReg) (s : State) : Host.Outcome State Fault Refusal :=
  word plain false (fun s =>
    if s.me.crb = 0 then .error (trapOf 0x6B)
    else
      let a := s.me.ringHead.toNat
      s.unlessHeld [(a, a + 1)]
        (match s.loadScalar a 1 false {} with
         | .error e => .error e
         | .ok (v, t) => if v ≠ 0 then .ok (t.ringTake d) else s.parkOr68 (.ring d))) s

/-! ## Fences (R165-R169, R223) -/

/-- The operations counted in a slot that intersects one of some items (R168). -/
def State.fenceSet (s : State) (items : List (Nat × Nat)) : List Nat :=
  let t := s.me
  let hit : Nat → Bool := fun i => match t.slots.get? i with
    | some r => items.any (fun e => rangesMeet s.cur.core r.lo r.hi e.1 e.2)
    | none => false
  (s.copies.filter (fun c => c.2.uid == t.uid && c.2.slots.any hit)).map (·.1)

/-- A fence that has been satisfied frees its items: words fetched there from now on are not stale, at whatever address their line was
fetched before (R160). -/
def Strand.freshen (t : Strand) (items : List (Nat × Nat)) : Strand :=
  { t with fetched := t.fetched.map (fun e => (e.1, { e.2 with barred := e.2.barred ++ items })) }

/-- A fence retires (R167, R168): it becomes pending, or is satisfied at once where it waits for nothing. -/
def State.retireFence (s : State) (items : List (Nat × Nat)) : State :=
  let items := items.filter (fun e => decide (e.1 < e.2))
  let w := s.fenceSet items
  (s.modMe (fun t => if w.isEmpty then t.freshen items else { t with fences := t.fences ++ [{ items := items, waits := w }] })).retire

/-- The oldest of the pending fences is one that a further fence waits for. -/
def Strand.blockFence (t : Strand) : Strand :=
  match t.fences with
  | [] => t
  | f :: rest => { t with fences := { f with blocks := true } :: rest }

/-- A fence that finds four pending waits at retirement until the oldest of them is satisfied (R167). -/
def State.unlessFour (s : State) (work : Run) : Run :=
  if 4 ≤ s.me.fences.length then .ok (s.modMe Strand.blockFence)
  else if s.me.fences.any (fun f => f.blocks) then .ok s
  else work

/-- R168, R223: `fence.r`. -/
def execFenceR (d a : IntReg) (s : State) : Host.Outcome State Fault Refusal :=
  word plain false (fun s =>
    let lo := (s.x d).toNat
    s.unlessFour (.ok (s.retireFence [(lo, Nat.min (lo + (s.x a).toNat) (2 ^ 64))]))) s

/-- The span of a shape record (R165), empty where an extent is 0. -/
def shapeSpan (r : Nat) : Nat × Nat :=
  let lo := shapeBase r
  let dims := (List.range 4).filter (fun d => decide (d < shapeRank r))
  let far : Nat → Nat := fun d => (shapeExt r d - 1) * shapeStr r d
  if dims.any (fun d => decide (shapeExt r d = 0)) then (lo, lo)
  else if shapeFmt r = 7 then
    (lo, Nat.min (lo + (dims.filter (fun d => decide (1 ≤ d))).foldl (fun n d => n + far d) 0 + (shapeExt r 0 + 1) / 2) (2 ^ 64))
  else (lo, Nat.min (lo + dims.foldl (fun n d => n + far d) 0 + elemSize (shapeFmt r)) (2 ^ 64))

/-- The smallest range that covers two ranges, an empty one counting for nothing. -/
def hull (a b : Nat × Nat) : Nat × Nat :=
  if a.2 ≤ a.1 then b else if b.2 ≤ b.1 then a else (Nat.min a.1 b.1, Nat.max a.2 b.2)

/-- The handles of a `fence.h` from the `k`-th on (R223): each record is read afresh and replaces the cached copy; the item covers both
copies' spans. The handles are taken one after another, each with its index check, its read and its record check (DESIGN CHOICE,
assumption 114). -/
def State.refresh (s : State) (packed : Word) (k n : Nat) : Except Trap (List (Nat × Nat) × State) :=
  match n with
  | 0 => .ok ([], s)
  | m + 1 =>
    match s.shapeAddr (bitsAt packed.toNat (12 * k) 12) with
    | .error e => .error e
    | .ok addr =>
      match s.readSpan addr 64 1 with
      | .error e => .error e
      | .ok (bs, s1) =>
        let r := leNat bs
        if shapeBad r then .error (trapOf 0x6D)
        else
          let old := match s.shapeCached addr with | some q => shapeSpan q | none => (0, 0)
          match (s1.shapePut addr r).refresh packed (k + 1) m with
          | .error e => .error e
          | .ok (items, s2) => .ok (hull old (shapeSpan r) :: items, s2)

/-- The records that a `fence.h` reads, where their indices are in range. -/
def State.refreshReads (s : State) (packed : Word) (n : Nat) : List (Nat × Nat) :=
  (List.range n).filterMap (fun k =>
    match s.shapeAddr (bitsAt packed.toNat (12 * k) 12) with
    | .error _ => none
    | .ok a => some (a, a + 64))

/-- R223: `fence.h`. -/
def execFenceH (a : IntReg) (n : BitVec 3) (s : State) : Host.Outcome State Fault Refusal :=
  word plain false (fun s =>
    s.unlessFour (s.unlessHeld (s.refreshReads (s.x a) n.toNat)
      (match s.refresh (s.x a) 0 n.toNat with
       | .error e => .error e
       | .ok (items, t) => .ok (t.retireFence items)))) s

/-- R223: `fence.l`. -/
def execFenceL (a : IntReg) (n : BitVec 3) (s : State) : Host.Outcome State Fault Refusal :=
  word plain false (fun s =>
    let p := (s.x a).toNat
    s.unlessFour (s.unlessHeld [(p, p + 16 * n.toNat)]
      (match s.readSpan p (16 * n.toNat) 8 with
       | .error e => .error e
       | .ok (bs, t) =>
         .ok (t.retireFence ((List.range n.toNat).map (fun k =>
           (leNat ((bs.drop (16 * k)).take 8), leNat ((bs.drop (16 * k + 8)).take 8)))))))) s

end Sys2Proof.Machine
end

