-- ==== Sys2Proof/Machine/System.lean ====
section
/-! DEFINITION. Control-register words, software traps, returns, halting, waiting for events, identity, time and urgent requests
(R270-R275), and the events of the standby strand and of interrupts from the host (R261-R264). -/

namespace Sys2Proof.Machine

/-! ## Control registers (R270) -/

/-- A control register's number names one, and the access is permitted (R34, R270). -/
def State.csrCheck (s : State) (n : Nat) (write : Bool) : Except Trap Unit :=
  if 0x11 < n then .error (trapOf 0x02)
  else if csrDenied s.myLevel write n then .error (trapOf 0x06)
  else .ok ()

/-- A form that writes: `new` gives the value written from the old one, nothing where the form writes nothing. -/
def State.csrForm (d : IntReg) (n : BitVec 8) (new : Word → Option Word) (s : State) : Run :=
  match s.csrCheck n.toNat true with
  | .error e => .error e
  | .ok _ =>
    let old := s.csr n.toNat
    match new old with
    | none => .ok (s.setX d old).retire
    | some v =>
      match s.csrWrite n.toNat v with
      | .error e => .error e
      | .ok t => .ok (t.setX d old).retire

/-- R270: `csrr`. -/
def execCsrr (d : IntReg) (n : BitVec 8) (s : State) : Host.Outcome State Fault Refusal :=
  word plain false (fun s =>
    match s.csrCheck n.toNat false with
    | .error e => .error e
    | .ok _ => .ok (s.setX d (s.csr n.toNat)).retire) s

/-- R270: `csrw`. -/
def execCsrw (d a : IntReg) (n : BitVec 8) (s : State) : Host.Outcome State Fault Refusal :=
  word plain false (fun s => s.csrForm d n (fun _ => some (s.x a))) s

/-- R270: `csrs`. On TAGW it clears the bits set in its operand (W1C). -/
def execCsrs (d a : IntReg) (n : BitVec 8) (s : State) : Host.Outcome State Fault Refusal :=
  word plain false (fun s => s.csrForm d n (fun old => some (if n = 0x0C then s.x a else old ||| s.x a))) s

/-- R270: `csrc`. On TAGW it writes nothing. -/
def execCsrc (d a : IntReg) (n : BitVec 8) (s : State) : Host.Outcome State Fault Refusal :=
  word plain false (fun s => s.csrForm d n (fun old => if n = 0x0C then none else some (old &&& ~~~(s.x a)))) s

/-! ## Traps, returns, halts (R271-R273) -/

/-- R271: `trap`. -/
def execTrap (n : BitVec 8) (s : State) : Host.Outcome State Fault Refusal :=
  word plain false (fun _ => .error { cause := 0xE0, eidx := BitVec.ofNat 64 n.toNat, after := true }) s

/-- The standby strand's work ends (R272): a message's resolution, read from `x10`, is applied. -/
def State.standbyDone (s : State) : State :=
  let core := s.cur.core
  let r := (s.x 10).toNat % 4
  match (s.core core).serving with
  | some (.chain m) => (s.endStandby core).resolve m r
  | _ => s.endStandby core

/-- R272: `eret`. -/
def execEret (s : State) : Host.Outcome State Fault Refusal :=
  word plain true (fun s => .ok (if s.myLevel == .machine then s.standbyDone else s.modMe Strand.eret)) s

/-- R273: `halt`. -/
def execHalt (s : State) : Host.Outcome State Fault Refusal :=
  word plain true (fun s => if s.myLevel == .machine then .error (trapOf 0xA5) else .ok (s.haltStrand s.cur)) s

/-! ## Waiting, identity, time (R274, R275) -/

/-- An interrupt is pending for a strand; for a standby strand, a message or an urgent request (R261). -/
def State.somePending (s : State) (sid : StrandId) : Bool :=
  if sid.num = 5 then !(s.core sid.core).chainQ.isEmpty || !(s.core sid.core).urgentQ.isEmpty else (s.strand sid).pending.isSome

/-- The condition that ends a `wfe` (R274). -/
def State.wfeOver (s : State) (sid : StrandId) (deadline : Word) : Bool :=
  (s.strand sid).woke || (deadline != 0 && decide (deadline.toNat ≤ s.time.toNat)) || (s.somePending sid && !s.mayTake sid)

/-- A `wfe` retires and clears WOKE. -/
def State.wfeRetire (s : State) : State := (s.modMe (fun t => { t with woke := false })).retire

/-- R274: `wfe`. -/
def execWfe (a : IntReg) (s : State) : Host.Outcome State Fault Refusal :=
  word plain false (fun s => if s.wfeOver s.cur (s.x a) then .ok s.wfeRetire else s.parkOr68 (.event (s.x a))) s

/-- R275: `tid`. -/
def execTid (d : IntReg) (s : State) : Host.Outcome State Fault Refusal :=
  word plain false (fun s => .ok (s.setX d (BitVec.ofNat 64 (StrandId.tid s.cur))).retire) s

/-- R275: `rdtime`. -/
def execRdtime (d : IntReg) (s : State) : Host.Outcome State Fault Refusal :=
  word plain false (fun s => .ok (s.setX d s.time).retire) s

/-! ## Urgent requests (R275) -/

/-- The core lies in one of the groups of the executing strand's context. -/
def State.contextReaches (s : State) (core : Nat) : Bool :=
  s.coreExists core && (s.asid s.cur).isSome && decide (s.asidOf core = s.asid s.cur)

/-- A request joins those pending at a core; requests of one code merge, and whose operands are kept is a free value
(assumption 19). -/
def State.addUrgent (s : State) (core : Nat) (r : UrgentReq) : State :=
  let q := (s.core core).urgentQ
  if q.any (fun p => p.code == r.code) then
    let keep := Config.urgentKeeps s.free
    ({ s with free := s.free + 1 }).modCore core (fun k =>
      { k with urgentQ := q.map (fun (p : UrgentReq) => if p.code = r.code ∧ ¬ keep then r else p) })
  else s.modCore core (fun k => { k with urgentQ := q ++ [r] })

/-- R275: `urgent`. -/
def execUrgent (d a : IntReg) (k : BitVec 1) (n : BitVec 4) (s : State) : Host.Outcome State Fault Refusal :=
  word plain true (fun s =>
    let core := (s.x a).toNat
    let arg := s.x d
    if !s.contextReaches core then .error (trapOf 0xA1)
    else if k = 1 then
      if 4 ≤ arg.toNat % 8 then .error (trapOf 0xA1)
      else .ok ((s.drain s.cur).postIrq (core * 8 + arg.toNat % 8) 0xE2).retire
    else .ok ((s.drain s.cur).addUrgent core { code := n.toNat, issuer := StrandId.tid s.cur, arg := arg }).retire) s

/-! ## Events -/

/-- The standby strand starts work at an entry, with `x10` to `x13` as given; the core's general strands are paused (R26, R264). PC has
bits [1:0] zero (R44), and SSW.PRIV reads machine level (assumption 3). -/
def State.startStandby (s : State) (core : Nat) (entry : Word) (xs : List (Nat × Word)) (work : Serving) : State :=
  let s := (s.pauseGeneral core true).modCore core (fun k => { k with serving := some work })
  s.modStrand { core := core, num := 5 } (fun t =>
    { (xs.foldl (fun t x => t.putX x.1 x.2) t) with
        pc := BitVec.ofNat 64 (alignDown entry.toNat 4), st := .running, ssw := putBits (putBits (putBits t.ssw 0 2 3) 3 1 0) 13 2 3,
        lastFetch := s.clk.cycles })

/-- R264, R275: the standby strand starts the earliest urgent request, messages having gone first. A code with no entry in the table
starts nothing (assumption 4). -/
def execStandbyUrgentStart (core : Nat) (s : State) : Host.Outcome State Fault Refusal :=
  match (s.core core).urgentQ with
  | [] => .next s
  | r :: rest =>
    if !s.standbyFree core || !(s.core core).chainQ.isEmpty then .next s
    else
      let s := s.modCore core (fun k => { k with urgentQ := rest })
      match s.urgentTable.get? r.code with
      | none => .next s
      | some entry =>
        .next (s.startStandby core entry [(10, BitVec.ofNat 64 r.issuer), (11, BitVec.ofNat 64 r.code), (12, r.arg)] .urgent)

/-- `x11` of a chain handler (R263). -/
def State.chainWord (s : State) (m : ChainMsg) : Word :=
  BitVec.ofNat 64 (m.cause.toNat + m.hops % 256 * 256 + (s.asid m.who).getD 0 % 65536 * 65536)

/-- R263: the standby strand starts the earliest message of its queue at its chain entry. -/
def execChainMessageStart (core : Nat) (s : State) : Host.Outcome State Fault Refusal :=
  match (s.core core).chainQ with
  | [] => .next s
  | m :: rest =>
    if !s.standbyFree core then .next s
    else
      match (s.chainFor m.who)[m.hops]? with
      | none => .next s
      | some (_, entry) =>
        .next ((s.modCore core (fun k => { k with chainQ := rest })).startStandby core entry
          [(10, BitVec.ofNat 64 (StrandId.tid m.who)), (11, s.chainWord m), (12, m.epc), (13, m.eva)] (.chain m))

/-- R53: a priority nudge lapses after 64 core cycles. -/
def execNudgeExpiry (sid : StrandId) (s : State) : Host.Outcome State Fault Refusal :=
  match (s.strand sid).nudge with
  | some (stop, _) => if stop ≤ s.clk.cycles then .next (s.modStrand sid (fun t => { t with nudge := none })) else .next s
  | none => .next s

end Sys2Proof.Machine
end

