-- ==== Sys2Proof/Machine/Task.lean ====
section
/-! DEFINITION. Groups' deques, steal rounds, tasks and join counters (R229-R245). -/

namespace Sys2Proof.Machine

/-! ## Deques (R231). The head of the list is the top, its end the bottom. -/

/-- Records that a deque holds. -/
def dequeSize : Nat := 256

/-- Pushes a record at the bottom. -/
def State.pushBottom (s : State) (core : Nat) (r : TaskRecord) : State := s.modCore core (fun k => { k with deque := k.deque ++ [r], searched := [] })

/-- The virtual core that a record starts. -/
def TaskRecord.virtual (r : TaskRecord) : Option Nat :=
  match r.role with
  | .virtual v => some v
  | _ => none

/-- Where the record at the bottom starts a virtual core, the record of the same launched task that starts the lowest one: virtual cores
start in ascending order (R319; DEDUCED, assumption 126). -/
def lowestVirtual (r : TaskRecord) (deque : List TaskRecord) : TaskRecord :=
  deque.foldl (fun best q =>
    match best.virtual, q.virtual with
    | some b, some v => if q.join = best.join ∧ v < b then q else best
    | _, _ => best) r

/-- Pops a record from the bottom. -/
def State.popBottom (s : State) (core : Nat) : Option (TaskRecord × State) :=
  match (s.core core).deque.getLast? with
  | none => none
  | some r =>
    let q := lowestVirtual r (s.core core).deque
    some (q, s.modCore core (fun k => { k with deque := if q = r then k.deque.dropLast else k.deque.erase q }))

/-- Takes a record from the top. -/
def State.takeTop (s : State) (core : Nat) : Option (TaskRecord × State) :=
  match (s.core core).deque with
  | [] => none
  | r :: rest => some (r, s.modCore core (fun k => { k with deque := rest }))

/-! ## Starting a task (R233) -/

/-- A strand starts a task: PC, `x1`, the arguments, `x13` and TCOORD; every other register keeps its value. -/
def Strand.startTask (t : Strand) (r : TaskRecord) (link : Word) (cycles : Nat) : Strand :=
  let t := ((((t.putX 1 link).putX 10 (BitVec.ofNat 64 r.arg0.toNat)).putX 11 (BitVec.ofNat 64 r.arg1.toNat)).putX 12
    (BitVec.ofNat 64 r.arg2.toNat)).putX 13 r.join
  { t with pc := BitVec.ofNat 64 r.entry.toNat, st := .running, wait := none, served := none, lastFetch := cycles, ahead := 0,
           task := some r, begun := 0, inline := none,
           tcoord := BitVec.ofNat 64 (r.tx.toNat + r.ty.toNat * 2 ^ 16 + r.tz.toNat * 2 ^ 32) }

/-- The lowest-numbered Idle general strand of a core. -/
def State.idleStrand (s : State) (core : Nat) : Option StrandId :=
  ((List.range 4).map (fun n => ({ core := core, num := n } : StrandId))).find? (fun sid =>
    (s.strand sid).st == .idle && !(s.strand sid).paused)

/-- The Idle general strands of a core. -/
def State.idleOnes (s : State) (core : Nat) : List Nat := (List.range 4).filter (fun n => (s.strand { core := core, num := n }).st == .idle)

/-- A record starts on an Idle strand, whose next full steal round is still to come (R41). -/
def State.startIdle (s : State) (sid : StrandId) (r : TaskRecord) : State :=
  (s.modStrand sid (fun t => t.startTask r 0 s.clk.cycles)).modCore sid.core (fun k => { k with searched := removeNat k.searched sid.num })

/-- The executing strand, at a `join`, starts a record of its own core's deque with the `join` as its link; a new chain of words begins
there (R50, R240). -/
def State.startHelped (s : State) (r : TaskRecord) : State := s.modMe (fun t => t.spend.startTask r t.pc s.clk.cycles)

/-! ## Steal rounds (R229, R230) -/

/-- The victim order's next state. -/
def victimNext (v : BitVec 32) : BitVec 32 :=
  let a := v ^^^ (v <<< 13)
  let b := a ^^^ (a >>> 17)
  b ^^^ (b <<< 5)

/-- The victim state at attach. -/
def victimSeed (seed : BitVec 32) (core : Nat) : BitVec 32 :=
  let v := seed ^^^ BitVec.ofNat 32 core
  if v = 0 then 1 else v

/-- The level at which a core stands from another (R229): 0 itself, 1 cluster, 2 die, 3 package, 4 sockets. -/
def stealLevel (home core : Nat) : Nat :=
  if core = home then 0
  else if core / 4 = home / 4 then 1
  else if core / 128 = home / 128 then 2
  else if core / 1024 = home / 1024 then 3
  else 4

/-- The candidates of a level, in the order in which a round tries them. -/
def victims (g : Group) (home level : Nat) (v : BitVec 32) : List Nat :=
  let all := g.cores.filter (fun c => stealLevel home c == level)
  let m := all.length
  (List.range m).map (fun n => all.getD ((v.toNat % m + n) % m) 0)

/-- The first record that a round finds from a level on: the own deque's bottom at level 0, and the top of the others'. All tries of a
round are made in one step, with no push, pop or steal of another core between two of them (DESIGN CHOICE, assumption 116). -/
def State.findRecord (s : State) (g : Group) (home : Nat) (v : BitVec 32) (levels : List Nat) : Option (TaskRecord × State) :=
  let order := (levels.filter (fun l => bitAt g.levels.toNat l)).flatMap (fun l => victims g home l v)
  match order.find? (fun c => !(s.core c).deque.isEmpty) with
  | none => none
  | some c => if c = home then s.popBottom c else s.takeTop c

/-- A round begins: the core's victim state moves on. -/
def State.nextVictim (s : State) (core : Nat) : State := s.modCore core (fun k => { k with victim := victimNext k.victim })

/-! ## Task instructions (R237-R244) -/

/-- A task instruction on a landing or standby strand traps 0xA5 (R237). -/
def State.taskStrand (s : State) (work : Run) : Run := if isGeneral s.cur then work else .error (trapOf 0xA5)

/-- Adds to a counter at its home, indivisibly. -/
def State.addAt (s : State) (p : Place) (d : Word) : State :=
  let old := BitVec.ofNat 64 (s.mem.readNat s.free p.cred p.loc 8)
  let t := s.store p.cred (cellsAt p.loc (leBytes 8 (old + d).toNat))
  { t with free := t.free + 1 }

/-- The virtual core that the executing launched task starts next (R320): rank r, then every S-th from there, below V. -/
def Strand.nextVirtual (t : Strand) : Option Nat :=
  match t.task.map (fun (r : TaskRecord) => r.role) with
  | some (.launched r n v) => if r + t.begun * n < v then some (r + t.begun * n) else none
  | _ => none

/-- The record's role: the virtual core that its parent starts with it, if any. -/
def TaskRecord.startedBy (r : TaskRecord) (t : Strand) : TaskRecord :=
  match t.nextVirtual with
  | some v => { r with role := .virtual v }
  | none => r

/-- The record is pushed, its parent's older stores having entered T, or nothing where the deque is full (R238, R245). -/
def State.spawnRecord (s : State) (d : IntReg) (r : TaskRecord) (counter : Option Place) : State :=
  let core := s.cur.core
  if dequeSize ≤ (s.core core).deque.length then
    ((s.setX d 0).retire).modMe (fun t => { t with begun := t.begun + 1, inline := t.nextVirtual })
  else
    let s := s.drain s.cur
    let s := match counter with | none => s | some p => s.addAt p 1
    (((s.pushBottom core (r.startedBy s.me)).setX d 1).retire).modMe (fun t => { t with begun := t.begun + 1 })

/-- The bytes of the join counter that a record names. -/
def TaskRecord.counterBytes (r : TaskRecord) : List (Nat × Nat) := if r.join = 0 then [] else [(r.join.toNat, r.join.toNat + 8)]

/-- R238: `spawn`. A fence that names the record or its counter holds it whole. -/
def execSpawn (d a : IntReg) (s : State) : Host.Outcome State Fault Refusal :=
  word plain false (fun s => s.taskStrand (
    let ea := (s.x a).toNat
    s.unlessHeld [(ea, ea + 32)]
      (match s.readSpan ea 32 32 with
       | .error e => .error e
       | .ok (bs, s1) =>
         let w := leNat bs
         let r := TaskRecord.ofNat w
         if taskRejected w then .error (trapOf 0xA4)
         else s.unlessHeld r.counterBytes
           (if r.join = 0 then .ok (s1.spawnRecord d r none)
            else
              match s1.reachHome r.join.toNat 8 with
              | .error e => .error e
              | .ok (p, s2) => .ok (s2.spawnRecord d r (some p)))))) s

/-- A task ends (R239): the strand goes Idle, or returns to its caller. -/
def State.endTask (s : State) (target : Word) : State :=
  if target = 0 then s.modMe (fun t => { t.spend with st := .idle, task := none, begun := 0, inline := none, evictReq := false })
  else (s.retireTo target).modMe (fun t => { t with inline := none })

/-- R239: `exit`. The strand's older stores have entered T before the counter is found to be 0. -/
def execExit (a : IntReg) (s : State) : Host.Outcome State Fault Refusal :=
  word plain false (fun s => s.taskStrand (
    let ea := s.x a
    let target := s.x 1
    if ea = 0 then
      if target.toNat % 4 ≠ 0 then .error (trapOf 0x0B) else .ok (s.endTask target)
    else
      s.unlessHeld [(ea.toNat, ea.toNat + 8)]
        (match s.reachHome ea.toNat 8 with
         | .error e => .error e
         | .ok (p, s1) =>
           if target.toNat % 4 ≠ 0 then .error (trapOf 0x0B)
           else if s1.mem.readNat s1.free p.cred p.loc 8 = 0 then .error { trapOf 0xA3 with drains := true }
           else .ok ((s1.addAt p (-1)).endTask target)))) s

/-- R240: `join`. It waits at its counter's home for the counter to be 0, and at its own core for a record. -/
def execJoin (a : IntReg) (s : State) : Host.Outcome State Fault Refusal :=
  word plain false (fun s => s.taskStrand (
    let ea := s.x a
    if ea = 0 then .ok s.retire
    else
      s.unlessHeld [(ea.toNat, ea.toNat + 8)]
        (match s.reachHome ea.toNat 8 with
         | .error e => .error e
         | .ok (p, s1) =>
           let v := s1.mem.readNat s1.free p.cred p.loc 8
           let s2 := { s1 with free := s1.free + 1 }
           if v = 0 then .ok s2.retire
           else
             match s2.popBottom s2.cur.core with
             | some (r, s3) => .ok (s3.startHelped r)
             | none =>
               let q : Waiter := { who := s2.cur, wait := .counter p.loc p.cred, data := 0, cred := p.cred, pair := p.pair }
               ({ s2 with waiters := s2.waiters ++ [q] }).parkOr68 q.wait))) s

/-- R241: `steal`. -/
def execSteal (d : IntReg) (s : State) : Host.Outcome State Fault Refusal :=
  word plain false (fun s => s.taskStrand (
    let core := s.cur.core
    let s := s.nextVictim core
    if dequeSize ≤ (s.core core).deque.length then .ok (s.setX d 0).retire
    else
      match s.groupOf core with
      | none => .ok (s.setX d 0).retire
      | some g =>
        match s.findRecord g core (s.core core).victim [1, 2, 3, 4] with
        | none => .ok (s.setX d 0).retire
        | some (r, s1) => .ok ((s1.pushBottom core r).setX d 1).retire)) s

/-- R242: `yield`. The other strands that are to be fetched first are those that are Running or Trapped as it retires: one that becomes so
later is not waited for (DESIGN CHOICE, assumption 115). -/
def execYield (s : State) : Host.Outcome State Fault Refusal :=
  word plain false (fun s => s.taskStrand (
    let others := (List.range 4).filter (fun n =>
      let st := (s.strand { core := s.cur.core, num := n }).st
      n != s.cur.num && (st == .running || st == .trapped))
    .ok (s.retire.modMe (fun t => { t with yielding := some (s.clk.cycles, others) })))) s

/-- R243: `tcoord`. -/
def execTcoord (d : IntReg) (n : BitVec 2) (s : State) : Host.Outcome State Fault Refusal :=
  word plain false (fun s =>
    let w := s.me.tcoord.toNat
    .ok (s.setX d (BitVec.ofNat 64 (if n = 3 then bitsAt w 0 48 else bitsAt w (16 * n.toNat) 16))).retire) s

/-- The word of `grank`: RANK in [31:0] and S in [63:32]. -/
def rankWord (g : Group) (core : Nat) : Word := BitVec.ofNat 64 (g.rank core + g.size * 2 ^ 32)

/-- R243: `grank`. On a core that is in no group the spec states no rank: a free value (assumption 18). -/
def execGrank (d a : IntReg) (g : BitVec 1) (s : State) : Host.Outcome State Fault Refusal :=
  word plain false (fun s =>
    let core := if g = 1 then (s.x a).toNat else s.cur.core
    match s.groupOf s.cur.core with
    | none =>
      if core = s.cur.core then .ok (({ s with free := s.free + 1 }).setX d (Config.noGroupRank s.free)).retire
      else .error (trapOf 0xA1)
    | some q =>
      if q.cores.contains core then .ok (s.setX d (rankWord q core)).retire else .error (trapOf 0xA1)) s

/-- Every core has accepted the flood of the group's latest SPREAD (R235, R244). -/
def Group.accepted (g : Group) : Bool := !g.floods.any (fun f => f.gen == g.gen)

/-- The value that `spreadwait` writes, once its condition is true. -/
def State.spreadGen (s : State) : Option Word :=
  match s.groupOf s.cur.core with
  | none => some 0
  | some g => if !g.spread then some 0 else if g.accepted then some (BitVec.ofNat 64 g.gen.toNat) else none

/-- R244: `spreadwait`. -/
def execSpreadwait (d : IntReg) (s : State) : Host.Outcome State Fault Refusal :=
  word plain false (fun s => s.taskStrand (
    match s.spreadGen with
    | some v => .ok (s.setX d v).retire
    | none => .ok (s.park (.flood d)))) s

/-! ## Events -/

/-- R230: a core runs a steal round for its Idle general strands, in retention too, which a round that finds a record ends. -/
def execStealRound (core : Nat) (s : State) : Host.Outcome State Fault Refusal :=
  match s.idleStrand core, s.groupOf core with
  | some sid, some g =>
    if g.st != .active || decide (s.clk.cycles < (s.core core).stealAt) then .next s
    else
      let s := s.nextVictim core
      match s.findRecord g core (s.core core).victim [0, 1, 2, 3, 4] with
      | some (r, s1) => .next ((s1.wakeCore core).startIdle sid r)
      | none => .next (s.modCore core (fun k => { k with searched := s.idleOnes core, stealAt := s.clk.cycles + 256 }))
  | _, _ => .next s

/-- The flood of a generation no longer waits for a core. -/
def Flood.accept (gen : BitVec 32) (core : Nat) (f : Flood) : Flood :=
  if f.gen = gen then { f with pending := removeNat f.pending core } else f

/-- The flood's core has accepted it; a flood that every core has accepted is done. -/
def Group.accept (g : Group) (gen : BitVec 32) (core : Nat) : Group :=
  { g with floods := (g.floods.map (Flood.accept gen core)).filter (fun f => !f.pending.isEmpty) }

/-- A parked wait for a flood is served once every core has accepted it: another may begin before the strand goes on (R25, R244). -/
def Strand.latchFlood (gen : BitVec 32) (t : Strand) : Strand :=
  match t.wait with
  | some (.flood _) => t.latch (BitVec.ofNat 64 gen.toNat)
  | _ => t

/-- The flood waits of a group's strands are served where its latest flood has been accepted everywhere. -/
def State.latchFlood (s : State) (group : Nat) : State :=
  match s.groups.get? group with
  | none => s
  | some g =>
    if !g.accepted then s
    else { s with strands := s.strands.map (fun e => if (s.core (e.1 / 8)).group = some group then (e.1, e.2.latchFlood g.gen) else e) }

/-- A launched task knows the rank of the core that its launch reached (R320). -/
def TaskRecord.atRank (r : TaskRecord) (rank : Nat) : TaskRecord :=
  match r.role with
  | .launched _ n v => { r with role := .launched rank n v }
  | _ => r

/-- R235: a core accepts a spread wake message: the record starts on its lowest Idle general strand, or is pushed; while the deque is
full the flood holds there. -/
def execSpreadFloodAccept (group core : Nat) (s : State) : Host.Outcome State Fault Refusal :=
  match s.groups.get? group with
  | none => .next s
  | some g =>
    match (if g.st == .active && !(s.core core).attaching then g.floods.find? (fun f => f.pending.contains core) else none) with
    | none => .next s
    | some f =>
      let t := (({ s with groups := s.groups.set group (g.accept f.gen core) }).latchFlood group).wakeCore core
      let r := f.record.atRank (g.rank core)
      match t.idleStrand core with
      | some sid => .next (t.startIdle sid r)
      | none => if (t.core core).deque.length < dequeSize then .next (t.pushBottom core r) else .next s

/-- R242: a yielding strand becomes eligible again after 16 core cycles. -/
def execYieldTimeout (sid : StrandId) (s : State) : Host.Outcome State Fault Refusal :=
  match (s.strand sid).yielding with
  | some (since, _) =>
    if since + 16 ≤ s.clk.cycles then .next (s.modStrand sid (fun t => { t with yielding := none })) else .next s
  | none => .next s

end Sys2Proof.Machine
end

