-- ==== Sys2Proof/Machine/EvStrand.lean ====
section
/-! DEFINITION. Events of strands and cores: a wake condition becomes true (R25), retention (R41-R43), the store buffer (R154), leases (R158)
and starvation tokens (R20). -/

namespace Sys2Proof.Machine

/-! ## Wake conditions (R25, R27) -/

/-- A wait that was served at its home retires with its value. -/
def State.wakeServed (s : State) (d : Option IntReg) (served : Option Word) : Option State :=
  match served with
  | none => none
  | some v => some (match d with | some r => (s.setX r v).retire | none => s.retire)

/-- An instruction that is executed again completes, unless it still waits or would trap. -/
def State.wakeAgain (s : State) (out : Host.Outcome State Fault Refusal) : Option State :=
  match out with
  | .next t => if t.me.st == .running && t.me.pc != s.me.pc then some t else none
  | _ => none

/-- A parked `join` whose counter was found at zero retires; or it finds a record in its core's deque, and its wait at the counter ends
(R240). -/
def State.wakeJoin (s : State) (served : Option Word) : Option State :=
  match served with
  | some _ => some s.retire
  | none =>
    match s.popBottom s.cur.core with
    | some (r, t) => some ((t.withdraw s.cur).startHelped r)
    | none => none

/-- The value of a wait that was latched, or its present one. -/
def latched (served : Option Word) (now : Option Word) : Option Word :=
  match served with
  | some v => some v
  | none => now

/-- A parked wait for tags retires, whose condition is true or has been: `waita` gives the tags as they are at its retirement, and `waitl` its
mask (R220). -/
def State.wakeTags (s : State) (d : IntReg) (m : Word) (all : Bool) (served : Option Word) : Option State :=
  if served.isSome || (if all then s.tags &&& m == m else s.tags &&& m != 0) then some ((s.setX d (if all then m else s.tags &&& m)).retire)
  else none

/-- The executing strand's wait is over where its condition is true: the instruction completes (R25). -/
def State.wakeMe (s : State) (w : Wait) (served : Option Word) (late : Bool) : Option State :=
  match w with
  | .word op d _ => s.wakeServed (if op = .stp then none else some d) served
  | .barrier _ d _ _ => s.wakeServed (some d) served
  | .mailbox receive d _ => s.wakeServed (if receive then some d else none) served
  | .tagAny d m => s.wakeTags d m false served
  | .tagAll d m => s.wakeTags d m true served
  | .classes limits => if s.me.classesMet limits then some s.retire else none
  | .ring d => if served.isSome then some (s.ringTake d) else s.wakeAgain (execWaitr d s)
  | .counter .. => s.wakeJoin served
  | .flood d => s.wakeServed (some d) (latched served s.spreadGen)
  | .event _ => if late then some s.wfeRetire else none
  | .pager .. => none

/-- The `wfe` of a strand is over (R274). -/
def State.eventOver (s : State) (sid : StrandId) (w : Wait) : Bool :=
  match w with
  | .event d => s.wfeOver sid d
  | _ => false

/-- The state after a parked strand's wake, where its wake condition is true (R25). -/
def State.woken (s : State) (sid : StrandId) : Option State :=
  let t := s.strand sid
  match t.wait with
  | none => none
  | some w =>
    if t.st != .parked || t.paused || t.chained then none
    else
      let s1 := s.setStrand sid { t.awake with lastFetch := s.clk.cycles }
      let s2 : State := { s1.ahead with cur := sid }
      (s2.wakeMe w t.served (s.eventOver sid w)).map (fun (r : State) => ({ r with cur := s.cur } : State))

/-- R25: the wake condition of a parked strand is true, and its blocking instruction completes. An interrupt that the strand may take, a
swap and a pause go first (R27); a core in retention wakes first (R43). -/
def execStrandWake (sid : StrandId) (s : State) : Host.Outcome State Fault Refusal :=
  if (s.core sid.core).retained ≠ 0 ∨ s.interruptFirst sid ∨ s.stopPending sid ∨ (s.woken sid).isNone then .next s
  else
    match (s.toRetire sid.core).woken sid with
    | some t => .next t
    | none => .next s

/-- R274: the time unit reaches the deadline of a parked `wfe`, and the strand retires it as by its wake condition (R25, R27). -/
def execWfeDeadline (sid : StrandId) (s : State) : Host.Outcome State Fault Refusal :=
  match (s.strand sid).wait with
  | some (.event d) => if d != 0 && decide (d.toNat ≤ s.time.toNat) then execStrandWake sid s else .next s
  | _ => .next s

/-! ## Retention (R41-R43) -/

/-- The strand lets its core enter retention (R41). -/
def State.inactive (s : State) (sid : StrandId) : Bool :=
  let t := s.strand sid
  let idle := t.st == .idle && (!isGeneral sid || (s.core sid.core).searched.contains sid.num || (s.core sid.core).group.isNone)
  (t.st == .parked || t.st == .halted || idle) && !t.paused && !t.chained && decide (t.lastFetch + 64 ≤ s.clk.cycles)

/-- The six strands of a core. -/
def coreStrands (core : Nat) : List StrandId := (List.range 6).map (fun n => { core := core, num := n })

/-- R41: a core whose strands have all been inactive for 64 core cycles enters retention, its stores having entered T. -/
def execRetentionEntry (core : Nat) (s : State) : Host.Outcome State Fault Refusal :=
  let depth := bitsAt (s.core core).rfsleep.toNat 0 2
  if (coreStrands core).all s.inactive && decide (depth ≠ 0) && decide ((s.core core).retained = 0) then
    .next ((s.drainCore core).modCore core (fun k => { k with retained := depth, retainedAt := s.clk.cycles }))
  else .next s

/-- Something wakes the core (R43): a landing packet, an urgent interrupt, a message, or a wake condition. A record that a launch pushes,
and at depth 3 an access to the scratchpad, wake it as they happen. -/
def State.wakesCore (s : State) (core : Nat) : Bool :=
  let k := s.core core
  !k.landReq.isEmpty || !k.landReply.isEmpty || !k.urgentQ.isEmpty || !k.chainQ.isEmpty ||
    (coreStrands core).any (fun sid => s.runnable sid || (s.woken sid).isSome || s.interruptFirst sid)

/-- R43: a wake event brings a core out of retention. -/
def execRetentionWake (core : Nat) (s : State) : Host.Outcome State Fault Refusal :=
  if (s.core core).retained ≠ 0 && (s.cluster (clusterOf core)).curc == 0 && s.wakesCore core then .next (s.wakeCore core) else .next s

/-! ## Buffer, leases, tokens -/

/-- R154: the oldest buffered store of a strand enters T. -/
def execStoreBufferDrain (sid : StrandId) (s : State) : Host.Outcome State Fault Refusal := .next (s.drainOne sid.core sid.num)

/-- R158: a read lease ends. -/
def execLeaseExpiry (cluster line : Nat) (s : State) : Host.Outcome State Fault Refusal :=
  .next { s with caches := { s.caches with leases := s.caches.leases.filter (fun e => e != (cluster, line)) } }

/-- R20: a starvation token forces one slot of the mesh; the order of packets is free in this model, so nothing else changes. -/
def execStarvationToken (_router _waited : Nat) (s : State) : Host.Outcome State Fault Refusal := .next s

end Sys2Proof.Machine
end

