-- ==== Sys2Proof/Machine/Page.lean ====
section
/-! DEFINITION. Translation words of major 0x31: range invalidation, `probe`, and the resolution of fault-queue entries
(R288-R297). -/

namespace Sys2Proof.Machine

/-! ## Range invalidation (R288, R289, R294) -/

/-- The invalidation's ASID set has the ASID. -/
def Inval.inSet (v : Inval) (asid : Nat) : Bool := match v.asid with | none => true | some a => a == asid

/-- A region meets the invalidation's range. -/
def Inval.inRange (v : Inval) (lo hi : Nat) : Bool := meets lo hi v.lo v.hi

/-- The invalidation drops a TLB entry (R294). -/
def Inval.dropsLeaf (v : Inval) (e : TlbEntry) : Bool :=
  v.inSet e.asid && (v.glob || !e.glob) && v.inRange e.base (e.base + e.size)

/-- The invalidation drops a pointer entry of the walk cache (R288, R294). -/
def Inval.dropsPointer (v : Inval) (w : WalkEntry) : Bool :=
  v.inSet w.asid && v.inRange w.base (w.base + levelRegion w.level)

/-- The invalidation discards a walk in flight (R288). -/
def Inval.dropsWalk (v : Inval) (w : Walk) : Bool := v.inSet w.asid && v.inRange (w.page * 4096) (w.page * 4096 + 4096)

/-- The invalidation drops a cached shape record (R218, R288). -/
def Inval.dropsShape (v : Inval) (e : ShapeEntry) : Bool := v.inSet e.asid && v.inRange e.addr (e.addr + 64)

/-- The bytes of `[a, a + n)` that lie in the invalidation's range. -/
def Inval.bytesIn (v : Inval) (a n : Nat) : Nat := Nat.min (a + n) v.hi - Nat.max a v.lo

/-- What a copy has still to read, write or flip under translations of the invalidation's range (R288). -/
def Inval.workLeft (v : Inval) (c : Copy) : Nat :=
  if c.level != .machine && c.asid.any v.inSet then
    (c.todo.map (fun p => v.bytesIn p.src p.len + v.bytesIn p.dst p.len)).sum +
      (c.pieces.map (fun p => v.bytesIn p.dst p.bytes.length)).sum
  else 0

/-- The cores of this package. -/
def State.packageCores (s : State) : List Nat := (List.range 768).map (fun i => s.hub.sockid.toNat * 1024 + i)

/-- An invalidation starts on its way to every core (R288). -/
def State.invalidate (s : State) (issuer asid : Option Nat) (glob : Bool) (lo hi : Nat) : State :=
  let v : Inval := { issuer := issuer, asid := asid, glob := glob, lo := lo, hi := hi, pending := s.packageCores, draining := [] }
  { s with invals := s.invals.set s.fresh v, fresh := s.fresh + 1 }

/-- Invalidations that a strand issued and that are not acknowledged everywhere. -/
def State.outstanding (s : State) (uid : Nat) : Nat := (s.invals.filter (fun e => e.2.issuer == some uid)).length

/-- `inv.r` and `inv.a` (R294): the ASID operand's checks, and the invalidation, after every older store of the strand. A ninth waits. -/
def invRun (o : Word) (lo hi : Nat) (s : State) : Run :=
  let asid := bitsAt o.toNat 0 16
  let glob := bitAt o.toNat 16
  let all := bitAt o.toNat 17
  if bitsAt o.toNat 18 46 ≠ 0 then .error (trapOf 0x0A)
  else if s.myLevel != .machine && (s.asid s.cur != some asid || glob || all) then .error (trapOf 0x06)
  else if 8 ≤ s.outstanding s.me.uid then .ok s
  else .ok (((s.drain s.cur).invalidate (some s.me.uid) (if all then none else some asid) glob lo hi).retire)

/-- R294: `inv.r`. -/
def execInvR (d a n : IntReg) (s : State) : Host.Outcome State Fault Refusal :=
  word plain true (fun s =>
    let lo := (s.x a).toNat
    invRun (s.x d) lo (Nat.min (lo + (s.x n).toNat) (2 ^ 48)) s) s

/-- R294: `inv.a`. -/
def execInvA (d : IntReg) (s : State) : Host.Outcome State Fault Refusal :=
  word plain true (fun s => invRun (s.x d) 0 (2 ^ 48) s) s

/-- R295: `invack`. -/
def execInvack (s : State) : Host.Outcome State Fault Refusal :=
  word plain true (fun s => if s.outstanding s.me.uid = 0 then .ok s.retire else .ok s) s

/-! ## `probe` (R296) -/

/-- The leaf of an address as a read finds it, whatever it permits: a cached leaf that permits reading, else that of a fresh walk (R285,
R296). -/
def State.leafFor (s : State) (who : Option StrandId) (core asid va : Nat) : Except TransFault (TlbEntry × State) :=
  match s.cachedLeaf core asid va with
  | .error f => if f.held then .error f else s.freshLeaf who core asid va
  | .ok r => if (leafFault r.1.leaf.toNat .read false).isNone then .ok r else s.freshLeaf who core asid va

/-- SIZE of the result. -/
def sizeCode (size : Nat) : Nat := if size = 0x1000 then 0 else if size = 0x10000 then 1 else if size = 0x200000 then 2 else 3

/-- The result word for a leaf (R296). -/
def State.probeWord (s : State) (e : TlbEntry) (va : Nat) : Word :=
  let w := e.leaf.toNat
  let b := leafFrame e.size w + e.size
  BitVec.ofNat 64 (1 + place 1 (bitsAt w 1 3) + place 4 (flag (pteU w)) + place 5 (flag (pteG w)) + place 6 (sizeCode e.size) +
    place 8 (pteCa w) + place 10 (flag (pteDisc w)) + place 11 (flag (pteShadow w && s.mem.selects.contains b)) +
    place 12 (((s.mem.frame e false + (va - e.base)) / 4096) % 2 ^ 40) + place 52 (flag (pteShadow w)) + place 53 (flag (pteSync w)) +
    place 54 (flag (pteSkey w)))

/-- The result word for a failed translation (R296). -/
def probeFailed (f : TransFault) : Word := BitVec.ofNat 64 (place 1 f.level + place 56 f.cause.toNat)

/-- The result of a `probe` in the context `n`, and the state after it; it waits where its walk is held (R296, R327). -/
def State.probeIn (s : State) (n va : Nat) : Except Trap (Word × State) :=
  if 2 ^ 48 ≤ va then .ok (probeFailed { cause := 0x27, level := 0 }, s)
  else
    match s.leafFor (some s.cur) s.cur.core n va with
    | .ok (e, t) => .ok (t.probeWord e va, t)
    | .error f => if f.held then .error Trap.wait else .ok (probeFailed f, ((s.drain s.cur).afterWalk f).dropTlb s.cur.core va)

/-- R296: `probe`. An address in a window answers WIN, with no current context too (DESIGN CHOICE, assumption 122). -/
def execProbe (d a : IntReg) (s : State) : Host.Outcome State Fault Refusal :=
  word plain true (fun s =>
    let va := (s.x a).toNat
    let out : Except Trap (Word × State) :=
      if s.window s.cur va 1 != .outside then .ok (BitVec.ofNat 64 (place 55 1), s)
      else
        match s.asid s.cur with
        | none => .ok (probeFailed { cause := 0x20, level := 0 }, s)
        | some n => s.probeIn n va
    out.map (fun r => (r.2.setX d r.1).retire)) s

/-! ## The fault queue (R292, R297) -/

/-- A copy that waited for a fault-queue entry tries again (R297). -/
def Copy.retry (c : Copy) : Copy := { c with wait := none }

/-- A strand that waited for a fault-queue entry executes its instruction again, wherever it is (R297). -/
def Strand.retry (t : Strand) : Strand :=
  match t.wait with
  | some (.pager ..) => { t.awake with st := if t.st = .parked then .running else t.st }
  | _ => t

/-- A strand that waited for a fault-queue entry takes the cause as a synchronous trap (R297). -/
def Strand.deliver (k : Cause) (hentry : Word) (t : Strand) : Strand :=
  match t.wait with
  | some (.pager f _) => t.enter t.start (trapAt k f.va) hentry
  | _ => t

/-- A copy completes in error (R163, R212): it makes no more writes. -/
def Copy.fail (k : Cause) (c : Copy) : Copy := { c with error := some k, wait := none, todo := [], pieces := [] }

/-- Nothing that a core's TLBs and its cluster's walk cache hold of an address is used again (R297). -/
def State.dropAddress (s : State) (core va : Nat) : State :=
  (s.dropTlb core va).modCluster (clusterOf core) (fun k =>
    { k with walkCache := k.walkCache.filter (fun w => !(decide (w.base ≤ va) && decide (va < w.base + levelRegion w.level))) })

/-- The cores on which a requester, by name, stands: its copy's, or its strand's. -/
def State.requesterCores (s : State) (name : Nat) : List Nat :=
  match s.copies.get? name with
  | some c => [c.issuer.core]
  | none => (s.strands.filter (fun e => e.2.uid == name)).map (fun e => e.1 / 8)

/-- A requester of a resolved entry, by name, retries, translating afresh, or receives a cause (R297). -/
def State.release (s : State) (va : Nat) (fail : Option Cause) (hentry : Word) (name : Nat) : State :=
  let s := if fail.isNone then (s.requesterCores name).foldl (fun s core => s.dropAddress core va) s else s
  match s.copies.get? name, fail with
  | some c, none => { s with copies := s.copies.set name c.retry }
  | some c, some k =>
    ({ s with copies := s.copies.set name (c.fail k) }).modCore c.issuer.core (fun q => { q with sendBulk := removeNat q.sendBulk name })
  | none, none => s.modUid name Strand.retry
  | none, some k => s.modUid name (Strand.deliver k hentry)

/-- An entry leaves the merge set of its context, and its requesters are released in order (R297). -/
def State.resolveEntry (s : State) (asid i : Nat) (c : Context) (fail : Option Cause) : State :=
  let mine := c.posted.filter (fun p => p.index == i)
  let s := { s with contexts := s.contexts.set asid { c with posted := c.posted.filter (fun p => p.index != i) } }
  mine.foldl (fun s p => p.who.foldl (fun s n => s.release (p.page * 4096) fail c.hentry n) s) s

/-- The causes that `fq.fail` delivers (R297). -/
def failCauses : List Nat := [0x20, 0x23, 0x24, 0x25, 0x26, 0x27, 0x2B]

/-- `fq.replay` and `fq.fail` of entry `i`, after every older store of the strand (R297). -/
def fqRun (i : Nat) (fail : Option Word) (s : State) : Run :=
  match s.asid s.cur with
  | none => .error (trapOf 0x0A)
  | some asid =>
    match s.contexts.get? asid with
    | none => .error (trapOf 0x0A)
    | some c =>
      let t := s.drain s.cur
      let status := t.mem.readNat t.free c.cred (c.fqEntry i + 18) 1
      if !c.pageable || decide (c.fqSize ≤ i) || decide (status ≠ 1) then .error (trapOf 0x0A)
      else
        match fail with
        | some k =>
          if failCauses.contains k.toNat then
            .ok ((((t.resolveEntry asid i c (some (BitVec.ofNat 8 k.toNat))).deviceBy c.cred (cellsAt (c.fqEntry i + 18) [3])).retire))
          else .error (trapOf 0x0A)
        | none => .ok ((t.resolveEntry asid i c none).deviceBy c.cred (cellsAt (c.fqEntry i + 18) [2])).retire

/-- R297: `fq.replay`. -/
def execFqReplay (a : IntReg) (s : State) : Host.Outcome State Fault Refusal :=
  word plain true (fun s => fqRun (s.x a).toNat none s) s

/-- R297: `fq.fail`. -/
def execFqFail (a c : IntReg) (s : State) : Host.Outcome State Fault Refusal :=
  word plain true (fun s => fqRun (s.x a).toNat (some (s.x c)) s) s

end Sys2Proof.Machine
end

