-- ==== Sys2Proof/Machine/Context.lean ====
section
/-! DEFINITION. Context commands and their events: BUILD, ATTACH, EVICT, RESTORE, SWAP, HALT and DESTROY (R226-R228, R256-R259, R265-R268,
R290). -/

namespace Sys2Proof.Machine

/-! ## BUILD (R256-R259, R292) -/

/-- A context descriptor is refused: a reserved bit, a misaligned field, a fault-queue base that R292 refuses. -/
def descriptorBad (d : Nat) : Bool :=
  decide (bitsAt d 17 47 ≠ 0) || decide (bitsAt d 64 2 ≠ 0) || decide (bitsAt d 128 12 ≠ 0) || decide (bitsAt d 192 16 ≠ 0) ||
    decide (11 < bitsAt d 256 4) || decide (bitsAt d 260 8 ≠ 0) || decide (bitsAt d 308 12 ≠ 0) || decide (bitsAt d 320 192 ≠ 0)

/-- A key slot that has never been filled. -/
def KeySlot.never : KeySlot := { epoch := 0, filled := 0, inUse := false }

/-- A key slot. -/
def State.keySlot (s : State) (n : Nat) : KeySlot := Sparse.at KeySlot.never s.keySlots n

/-- The slot that BUILD fills (R257): of the free ones the one filled least recently, the lowest among equals. -/
def State.freeSlot (s : State) : Option Nat :=
  ((List.range 1024).filter (fun n => n != Config.sharedSlot && !(s.keySlot n).inUse)).foldl (fun best n =>
    match best with
    | none => some n
    | some b => if (s.keySlot n).filled < (s.keySlot b).filled then some n else some b) none

/-- The context that a descriptor describes, in a key slot (R256). -/
def contextFrom (d slot epoch : Nat) : Context :=
  { st := .built, pageable := bitAt d 16, hentry := BitVec.ofNat 64 (bitsAt d 64 64), root := BitVec.ofNat 64 (bitsAt d 128 64),
    saveBase := BitVec.ofNat 64 (bitsAt d 192 64), fqBase := BitVec.ofNat 64 (bitsAt d 256 64), slot := slot, epoch := epoch,
    attached := 0, posted := [], dropLog := none }

/-- A context is built in a slot: the slot takes a fresh key and its next epoch (R257). -/
def State.buildIn (s : State) (d slot : Nat) : State :=
  let k := s.keySlot slot
  let epoch := (k.epoch + 1) % 2 ^ 22
  let c := contextFrom d slot epoch
  let s := { s with keySlots := s.keySlots.set slot { epoch := epoch, filled := s.fresh, inUse := true }, fresh := s.fresh + 1,
                    contexts := s.contexts.set (d % 65536) c }
  (s.modHub (fun h => { h with built := true })).answer 0 c.tagWord 0

/-- R259, R349: BUILD. In debug mode 3 it is refused. -/
def execBuild (s : State) : Host.Outcome State Fault Refusal :=
  command 1 (fun args s =>
    let a := cmdArg args 0
    let d := s.mem.readNat s.free Cred.shared a 64
    if !readable a 64 || descriptorBad d || s.namesContext (d % 65536) then s.answer 3 0 0
    else
      match (if s.hub.mode = 3 then none else s.freeSlot) with
      | none => s.answer 1 0 0
      | some slot => s.buildIn d slot) s

/-! ## ATTACH (R226-R228, R265, R267) -/

/-- The used extents of a group descriptor. -/
def extentsOf (d : Nat) : List (Nat × Nat) :=
  ((List.range 8).map (fun i => (bitsAt d (64 + 32 * i) 16, bitsAt d (80 + 32 * i) 16))).filter (fun e => decide (e.2 ≠ 0))

/-- The cores lie inside one partition (R267). -/
def State.onePartition (s : State) (cores : List Nat) : Bool :=
  (List.range 8).any (fun p => cores.all (fun c => (s.partition p).contains (clusterOf c)))

/-- The save records of `n` more cores of a context would reach beyond the stacked DRAM (R265). -/
def Context.saveBeyond (c : Context) (n : Nat) : Bool :=
  decide (Config.dramEnd < c.saveBase.toNat + 0x10000 * (4 * (c.attached + n)))

/-- A group descriptor is refused (R226, R265, R267). -/
def State.groupRefused (s : State) (c : Context) (d : Nat) : Bool :=
  let es := extentsOf d
  let cores := extentCores es
  decide (bitsAt d 5 27 ≠ 0) || decide (bitsAt d 320 192 ≠ 0) || !bitAt d 0 || cores.isEmpty ||
    decide ((es.map (·.2)).sum ≠ cores.length) || cores.any (fun g => !s.coreExists g || (s.core g).group.isSome) ||
    c.saveBeyond cores.length || !s.onePartition cores

/-- The number that an accepted ATTACH returns: one that is bound to no group, where the search for it begins being free (assumption 21). -/
def State.newGroup (s : State) : Nat :=
  let start := Config.groupNumber s.free % 65535
  (((List.range 65535).map (fun i => (start + i) % 65535 + 1)).find? (fun n => (s.groups.get? n).isNone)).getD 0

/-- A group is attached: its cores wait to be cleared (R227, R228). -/
def State.attachGroup (s : State) (asid : Nat) (c : Context) (d : Nat) : State :=
  let n := s.newGroup
  let es := extentsOf d
  let cores := extentCores es
  let g : Group :=
    { asid := asid, st := .attached, extents := es, levels := BitVec.ofNat 5 d, seed := BitVec.ofNat 32 (d / 2 ^ 32),
      base := 4 * c.attached, gen := 0, spread := false, floods := [] }
  let c' : Context := { c with st := if c.st = .built then .ready else c.st, attached := c.attached + cores.length }
  let s := { s with free := s.free + 1, groups := s.groups.set n g, contexts := s.contexts.set asid c' }
  let s := cores.foldl (fun s k => s.modCore k (fun q => { q with group := some n, attaching := true })) s
  s.answer 0 n 0

/-- R226, R259: ATTACH. -/
def execAttach (s : State) : Host.Outcome State Fault Refusal :=
  command 2 (fun args s =>
    match s.contexts.get? (cmdArg args 0) with
    | none => s.answer 0xFE 0 0
    | some c =>
      let d := s.mem.readNat s.free Cred.shared (cmdArg args 1) 64
      if c.st = .halted ∨ c.st = .swapped then s.answer 2 0 0
      else if !readable (cmdArg args 1) 64 || s.groupRefused c d then s.answer 0xA0 0 0
      else s.attachGroup (cmdArg args 0) c d) s

/-- The landing strand as an attach leaves it (R228). -/
def Strand.landed (uid cycles : Nat) : Strand := { Strand.fresh .idle uid with lastFetch := cycles }

/-- The core-scope state of a core that a group attaches is cleared (R228). -/
def State.clearCore (s : State) (core : Nat) (seed : BitVec 32) : State :=
  let s := ((s.drainCore core).discardQueued core).discardTile { core := core, num := 4 }
  let s := { (s.setStrand { core := core, num := 4 } (Strand.landed s.fresh s.clk.cycles)) with fresh := s.fresh + 1 }
  s.modCore core (fun k => { k with s := [], tagw := 0, htab := 0, deque := [], victim := victimSeed seed core, stealAt := 0,
                                    searched := [], attaching := false })

/-- R228: once the landing strands of the group's cores are Idle, a core's core-scope state is cleared. -/
def execAttachCoreReset (core : Nat) (s : State) : Host.Outcome State Fault Refusal :=
  match s.groupOf core with
  | none => .next s
  | some g =>
    if (s.core core).attaching && g.cores.all (fun c => (s.strand { core := c, num := 4 }).st == .idle) then .next (s.clearCore core g.seed)
    else .next s

/-! ## Waits of strands that are saved (R25, R107, R254, R322) -/

/-- A saved wait is evaluated at once, and arrives afresh where its condition does not hold (R25, R107, R254). -/
def State.rearrive (s : State) (sid : StrandId) (w : Waiter) : State :=
  let q : Waiter := { w with who := sid }
  let s1 := { s with waiters := s.waiters ++ [q] }
  match w.wait with
  | .word _ _ loc => s1.roundsAt [loc]
  | .counter loc _ => s1.roundsAt [loc]
  | .mailbox _ _ b => s1.boxRound s1.waiters.length b
  | .barrier _ _ loc g =>
    let now := BitVec.ofNat 32 (s.mem.readNat s.free w.cred loc 8 / 2 ^ 32)
    if now = g then s1 else s.modStrand sid (fun t => { t with served := some (BitVec.ofNat 64 now.toNat) })
  | _ => s

/-- The waits of a strand at homes. -/
def State.waitsOf (s : State) (sid : StrandId) : List Waiter := s.waiters.filter (fun w => w.who == sid)

/-! ## EVICT and RESTORE of a strand (R265, R266) -/

/-- What stands in a region of memory. -/
def Mem.region (m : Mem) (lo n : Nat) : Region :=
  { bytes := m.bytes.filter (fun e => decide (lo ≤ e.1) && decide (e.1 < lo + n)),
    keys := m.keys.filter (fun e => decide (lo ≤ e.1 * 64) && decide (e.1 * 64 < lo + n)),
    poison := m.poison.filter (fun l => decide (lo ≤ l * 64) && decide (l * 64 < lo + n)) }

/-- A partner's name in a strand's gang changes. -/
def Strand.renamePartner (old new : StrandId) (t : Strand) : Strand :=
  { t with tile := t.tile.map (fun c => { c with gang := c.gang.map (fun l => l.map (fun x => if x = old then new else x)) }) }

/-- A partner's name changes in every gang. -/
def State.renamePartner (s : State) (old new : StrandId) : State :=
  { s with strands := s.strands.map (fun e => (e.1, e.2.renamePartner old new)),
           saved := s.saved.map (fun x => { x with strand := x.strand.renamePartner old new }) }

/-- The physical address of a strand's save record (R265). -/
def Context.recordPlace (c : Context) (g : Group) (sid : StrandId) : Nat :=
  c.saveBase.toNat + 0x10000 * (g.base + g.rank sid.core * 4 + sid.num)

/-- Bytes of a save record (R265). -/
def recordBytes : Nat := 0x10000

/-- A save record is written under its context's key; its layout is the device's own (R265, assumption 55). -/
def State.writeSave (s : State) (c : Context) (place : Nat) : State :=
  ({ s with free := s.free + 1 }).deviceBy c.cred (cellsAt place ((List.range recordBytes).map (Config.recordByte s.free)))

/-- A parked strand is saved with its wake condition, and its hardware strand holds nothing (R265, R266). -/
def State.saveStrand (s : State) (sid : StrandId) : State :=
  match s.groupOf sid.core, s.contextOf sid.core with
  | some g, some c =>
    let place := c.recordPlace g sid
    let s := (s.drain sid).writeSave c place
    let t := s.strand sid
    let x : SavedStrand := { tid := StrandId.tid sid, asid := g.asid, strand := { t with evictReq := false }, waits := s.waitsOf sid,
                             place := place, kept := s.mem.region place recordBytes }
    let s := (s.withdraw sid).setStrand sid { Strand.fresh .evicted s.fresh with lastFetch := s.clk.cycles }
    ({ s with saved := s.saved ++ [x], fresh := s.fresh + 1 }).renamePartner sid (absentee t.uid)
  | _, _ => s

/-- The strand can be saved now: it is Parked, and its wake condition is not true (R27, R266). -/
def State.canSave (s : State) (sid : StrandId) : Bool :=
  let t := s.strand sid
  t.st == .parked && !t.paused && t.wait.isSome && (s.woken sid).isNone

/-- An eviction request is set or dropped. -/
def State.setEvict (s : State) (sid : StrandId) (on : Bool) : State := s.modStrand sid (fun t => { t with evictReq := on })

/-- R266: EVICT. -/
def execEvict (s : State) : Host.Outcome State Fault Refusal :=
  command 3 (fun args s =>
    let sid := ofTid (cmdArg args 0)
    let t := s.strand sid
    if !isGeneral sid || !(s.contextOf sid.core).any (fun c => c.st == .active) then s.answer 2 0 0
    else if s.canSave sid then (s.saveStrand sid).answer 0 0 0
    else if t.paused || t.st == .running || t.st == .trapped then (s.setEvict sid true).answer 0 0 0
    else s.answer 0 0 0) s

/-- A strand with a pending eviction request that has parked is saved; the request is dropped where its wake condition is true, or where
it has gone Idle or Halted (R266). -/
def State.evictSettle (s : State) (sid : StrandId) : State :=
  let t := s.strand sid
  if !t.evictReq || t.paused then s
  else if s.canSave sid then s.saveStrand sid
  else if t.st == .parked || t.st == .idle || t.st == .halted then s.setEvict sid false
  else s

/-- R266: a strand with a pending eviction request parks and is saved. -/
def execEvictSave (sid : StrandId) (s : State) : Host.Outcome State Fault Refusal := .next (s.evictSettle sid)

/-- The hardware strand holds nothing, and no message of it is outstanding (R262, R266). -/
def State.restoreFree (s : State) (core n : Nat) : Bool :=
  let t := s.strand { core := core, num := n }
  (t.st == .halted || t.st == .evicted) && !t.chained

/-- A core's and its cluster's translations of an ASID are not used again: a strand whose fault was replayed while it was saved translates
afresh (R297). -/
def State.dropAsid (s : State) (core asid : Nat) : State :=
  (s.modCore core (fun k => { k with tlb := k.tlb.filter (fun e => e.asid != asid) })).modCluster (clusterOf core)
    (fun k => { k with tlb := k.tlb.filter (fun e => e.asid != asid), walkCache := k.walkCache.filter (fun w => w.asid != asid) })

/-- The hardware strand on which a saved strand is placed: its own where it is free, else the lowest free one of its core. -/
def State.restorePlace (s : State) (tid : Nat) : Option StrandId :=
  let core := tid / 8
  (((tid % 8) :: List.range 4).find? (s.restoreFree core)).map (fun n => { core := core, num := n })

/-- The standby strand of a core has its general strands paused (R26). -/
def State.standbyBusy (s : State) (core : Nat) : Bool := (s.core core).serving.isSome

/-- A saved strand is placed on a hardware strand, and its wake condition is evaluated (R25, R266). -/
def State.placeStrand (s : State) (x : SavedStrand) (sid : StrandId) : State :=
  let s := ({ s with saved := s.saved.filter (fun y => y != x) }).dropAsid sid.core x.asid
  let s := s.setStrand sid { x.strand with paused := s.standbyBusy sid.core, lastFetch := s.clk.cycles }
  x.waits.foldl (fun s w => s.rearrive sid w) (s.renamePartner (absentee x.strand.uid) sid)

/-- The integrity check of a save record fails (R265): a machine check goes to the chain of the restoring core. It names the hardware
strand that the saved one was to be placed on and the saved PC, and the command returns status 0 (DESIGN CHOICE, assumption 120). -/
def State.restoreFailed (s : State) (sid : StrandId) (x : SavedStrand) : State :=
  let s := (s.noteCheck sid 0xF4 (BitVec.ofNat 64 x.place)).modStrand sid (fun t => { t with chained := true })
  s.sendChain { who := sid, cause := 0xF4, hops := 0, epc := x.strand.pc, eva := BitVec.ofNat 64 x.place }

/-- RESTORE of a strand (R266). -/
def State.restoreStrand (s : State) (tid : Nat) : State :=
  match s.saved.find? (fun x => x.tid == tid) with
  | none => s.answer 2 0 0
  | some x =>
    if !(s.contexts.get? x.asid).any (fun c => c.st == .active || c.st == .ready) then s.answer 2 0 0
    else
      match s.restorePlace tid with
      | none => s.answer 5 0 0
      | some sid =>
        if s.mem.region x.place recordBytes = x.kept then (s.placeStrand x sid).answer 0 0 0 else (s.restoreFailed sid x).answer 0 0 0

/-! ## SWAP and RESTORE of a partition (R267, R268) -/

/-- The cores of a list of clusters of this package. -/
def State.clusterCoresOf (s : State) (clusters : List Nat) : List Nat :=
  clusters.flatMap (fun k => (List.range 4).map (fun i => s.hub.sockid.toNat * 1024 + k * 4 + i))

/-- The groups with a core among some. -/
def State.groupsAmong (s : State) (cores : List Nat) : List Nat :=
  ((s.groups.filter (fun g => g.2.st != .saved && cores.any (fun c => decide ((s.core c).group = some g.1))))).map (·.1)

/-- Cluster images that shadow storage holds (R268). -/
def shadowRoom (shways : BitVec 2) : Nat := [0, 12, 24, 48].getD shways.toNat 0

/-- SWAP of a partition is in a wrong state: an image of it is held, or it holds no group, or one that is not Active or whose context is
not Running or Parked. -/
def State.swapWrong (s : State) (p : Nat) : Bool :=
  let groups := s.groupsAmong (s.clusterCoresOf (s.partition p))
  s.images.any (fun im => im.partition == p) || groups.isEmpty ||
    groups.any (fun n => !(s.groups.get? n).any (fun g => g.st == .active && (s.contexts.get? g.asid).any (fun c => c.st == .active)))

/-- The images do not fit (R268). -/
def State.shadowFull (s : State) (p : Nat) : Bool :=
  decide (shadowRoom s.hub.shways < (s.images.map (fun im => im.clusters.length)).sum + (s.partition p).length)

/-- R267: SWAP. Accepted, it stops the general strands of the partition. -/
def execSwap (s : State) : Host.Outcome State Fault Refusal :=
  command 5 (fun args s =>
    let p := cmdArg args 0
    if s.hub.swapping.isSome then s
    else if s.swapWrong p then s.answer 2 0 0
    else if s.shadowFull p then s.answer 4 0 0
    else s.modHub (fun h => { h with swapping := some p })) s

/-- The copy writes into a scratchpad of one of the cores. -/
def Copy.intoCores (cores : List Nat) (c : Copy) : Bool :=
  match c.packet with
  | some (p, _) => cores.contains p.target
  | none =>
    c.op != .publish && cores.any (fun k =>
      (aliases c.issuer.core c.dst (c.dst + c.dstLen)).any (fun r =>
        meets r.1 r.2 (Config.spadWindowBase + k * Config.spadBlock) (Config.spadWindowBase + (k + 1) * Config.spadBlock)))

/-- The general and landing strands of a core stand between two instructions. -/
def State.betweenWords (s : State) (core : Nat) : Bool := (List.range 5).all (fun n => (s.strand { core := core, num := n }).got.isEmpty)

/-- The core belongs to a context of which another core is among some. -/
def State.sharesContext (s : State) (cores : List Nat) (core : Nat) : Bool :=
  (s.asidOf core).isSome && cores.any (fun c => decide (s.asidOf c = s.asidOf core))

/-- General strands stand at precise points, those that the context has elsewhere too, standby strands are Parked with nothing to do, and
no issued copy writes into the scratchpads (R258, R267 steps 1 and 2). -/
def State.quiesced (s : State) (cores : List Nat) : Bool :=
  cores.all (fun c => (s.core c).serving.isNone && (s.core c).chainQ.isEmpty && (s.core c).urgentQ.isEmpty && s.betweenWords c) &&
    (s.listedCores.filter (s.sharesContext cores)).all s.betweenWords && !s.copies.any (fun c => c.2.intoCores cores)

/-- The location lies in a scratchpad of one of the cores. -/
def inSpads (cores : List Nat) (loc : Nat) : Bool := isSpad loc && cores.contains (spadCore loc)

/-- A strand as an image holds it: at a precise point, in front of an instruction that a hold or a gang barrier keeps from retiring (R51,
R197, R203). -/
def Strand.swapped (t : Strand) : Strand := { t.rewind with held := none, gangWait := none }

/-- The image of a partition (R267 step 4). -/
def State.imageOf (s : State) (p : Nat) (cores : List Nat) : Image :=
  let here : Nat → Bool := fun tid => cores.contains (tid / 8) && decide (tid % 8 < 5)
  { partition := p, clusters := s.partition p, strands := (s.strands.filter (fun e => here e.1)).map (fun e => (e.1, e.2.swapped)),
    waits := s.waiters.filter (fun w => here (StrandId.tid w.who)),
    cores := s.cores.filter (fun e => cores.contains e.1),
    bytes := s.mem.bytes.filter (fun e => inSpads cores e.1), empty := s.mem.empty.filter (fun w => inSpads cores (w * 8)),
    owners := s.mem.owners.filter (fun e => inSpads cores (e.1 * 4096)) }

/-- A core whose partition has been swapped out: cached records of the contexts are dropped, and lines are written back (R218, R267). -/
def CoreState.swappedOut (asids : List Nat) (k : CoreState) : CoreState :=
  { k with group := none, deque := [], tlb := k.tlb.filter (fun e => !asids.contains e.asid),
           shapes := k.shapes.filter (fun e => !asids.contains e.asid), l1 := [], l1i := [] }

/-- The hardware strands of a core after a swap hold nothing (R25). -/
def State.emptyCore (asids : List Nat) (s : State) (core : Nat) : State :=
  let s := (List.range 4).foldl (fun (s : State) n =>
    let sid : StrandId := { core := core, num := n }
    let s := s.withdraw sid
    { (s.setStrand sid { Strand.fresh .evicted s.fresh with lastFetch := s.clk.cycles }) with fresh := s.fresh + 1 }) s
  let s := s.withdraw { core := core, num := 4 }
  let s := { (s.setStrand { core := core, num := 4 } (Strand.landed s.fresh s.clk.cycles)) with fresh := s.fresh + 1 }
  s.modCore core (CoreState.swappedOut asids)

/-- The ASIDs of some groups. -/
def State.asidsOf (s : State) (groups : List Nat) : List Nat := groups.filterMap (fun n => (s.groups.get? n).map (·.asid))

/-- Contexts of some groups take a state. -/
def State.setContexts (s : State) (groups : List Nat) (f : Context → Context) : State :=
  let asids := s.asidsOf groups
  { s with contexts := s.contexts.map (fun e => if asids.contains e.1 then (e.1, f e.2) else e) }

/-- Some groups take a state. -/
def State.setGroups (s : State) (groups : List Nat) (st : GroupState) : State :=
  { s with groups := s.groups.map (fun e => if groups.contains e.1 then (e.1, { e.2 with st := st }) else e) }

/-- The partition is written back and saved (R267 steps 3 and 4). Strands that its contexts have elsewhere leave their engines, and stand
still with their context (R258). -/
def State.swapOut (s : State) (p : Nat) : State :=
  let cores := s.clusterCoresOf (s.partition p)
  let listed := cores.filter (fun c => s.listedCores.contains c)
  let groups := s.groupsAmong cores
  let away := s.listedCores.filter (s.sharesContext cores)
  let s := (dedup (listed ++ away)).foldl (fun (s : State) c =>
    (List.range 5).foldl (fun (s : State) n => s.leaveEngine { core := c, num := n }) (s.drainCore c)) s
  let im := s.imageOf p cores
  let s := { s with images := s.images ++ [im],
                    mem := { s.mem with bytes := s.mem.bytes.filter (fun e => !inSpads cores e.1),
                                        empty := s.mem.empty.filter (fun w => !inSpads cores (w * 8)),
                                        owners := s.mem.owners.filter (fun e => !inSpads cores (e.1 * 4096)) },
                    caches := { s.caches with leases := s.caches.leases.filter (fun l => !(s.partition p).contains l.1) },
                    clusters := s.clusters.map (fun e => if (s.partition p).contains e.1 then (e.1, { e.2 with lines := [] }) else e) }
  let s := listed.foldl (State.emptyCore (s.asidsOf groups)) s
  (s.setContexts groups (fun c => { c with st := .swapped })).setGroups groups .saved

/-- R267: the partition has quiesced, and it is saved. -/
def execSwapSave (partition : Nat) (s : State) : Host.Outcome State Fault Refusal :=
  let cores := s.clusterCoresOf (s.partition partition)
  if s.hub.swapping = some partition ∧ s.quiesced (cores.filter (fun c => s.listedCores.contains c)) then
    .next (((s.swapOut partition).modHub (fun h => { h with swapping := none })).answer 0 0 0)
  else .next s

/-- A core of an image comes back: what is the context's returns, and what is the core's own stays (R227, R267). -/
def State.coreBack (s : State) (e : Nat × CoreState) : State :=
  s.modCore e.1 (fun k =>
    { k with s := e.2.s, tagw := e.2.tagw, htab := e.2.htab, group := e.2.group, attaching := e.2.attaching, deque := e.2.deque,
             victim := e.2.victim, lastGeneral := e.2.lastGeneral, stealAt := e.2.stealAt, searched := e.2.searched })

/-- Everything that an image holds comes back (R227, R267). -/
def State.swapIn (s : State) (im : Image) : State :=
  let cores := s.clusterCoresOf im.clusters
  let m := s.mem
  let s := { s with images := s.images.filter (fun x => x != im),
                    mem := { m with bytes := im.bytes.foldl (fun t e => Sparse.put 0 t e.1 e.2) (m.bytes.filter (fun e => !inSpads cores e.1)),
                                    empty := im.empty.foldl insertNat (m.empty.filter (fun w => !inSpads cores (w * 8))),
                                    owners := im.owners.foldl (fun t e => t.set e.1 e.2)
                                      (m.owners.filter (fun e => !inSpads cores (e.1 * 4096))) } }
  let s := im.cores.foldl State.coreBack s
  let s := im.cores.foldl (fun s e => match s.asidOf e.1 with | some a => s.dropAsid e.1 a | none => s) s
  let s := im.strands.foldl (fun s e => s.setStrand (ofTid e.1) { e.2 with lastFetch := s.clk.cycles }) s
  let groups := dedup (im.cores.filterMap (fun e => e.2.group))
  let s := (s.setGroups groups .active).setContexts groups (fun c => if c.st = .swapped then { c with st := .ready } else c)
  im.waits.foldl (fun s w => s.rearrive w.who w) s

/-- RESTORE of a partition (R267). While one of its cores is in a group, or a standby strand of it is at work, the state is wrong for it:
status 2 (R259; DESIGN CHOICE, assumption 121). -/
def State.restorePartition (s : State) (p : Nat) : State :=
  match s.images.find? (fun im => im.partition == p) with
  | none => s.answer 2 0 0
  | some im =>
    let cores := s.clusterCoresOf im.clusters
    if (s.listedCores.filter cores.contains).any (fun c => (s.core c).group.isSome || (s.core c).serving.isSome) then s.answer 2 0 0
    else (s.swapIn im).answer 0 0 0

/-- R266, R267: RESTORE. -/
def execRestore (s : State) : Host.Outcome State Fault Refusal :=
  command 4 (fun args s => if cmdArg args 0 = 0 then s.restoreStrand (cmdArg args 1) else s.restorePartition (cmdArg args 1)) s

/-! ## HALT and DESTROY (R258, R290) -/

/-- R258: HALT. -/
def execHaltCommand (s : State) : Host.Outcome State Fault Refusal :=
  command 6 (fun args s =>
    if (s.contexts.get? (cmdArg args 0)).any (fun c => c.st == .halted) then s.answer 2 0 0
    else (s.haltContext (cmdArg args 0)).answer 0 0 0) s

/-- Nothing that a core has cached of an ASID is left. -/
def CoreState.forget (asid : Nat) (k : CoreState) : CoreState :=
  { k with tlb := k.tlb.filter (fun e => e.asid != asid), shapes := k.shapes.filter (fun e => e.asid != asid) }

/-- Nothing that a cluster has cached of an ASID is left, and walks in it fill nothing. -/
def ClusterState.forget (asid : Nat) (k : ClusterState) : ClusterState :=
  { k with tlb := k.tlb.filter (fun e => e.asid != asid), walkCache := k.walkCache.filter (fun w => w.asid != asid),
           walks := k.walks.map (fun w => if w.asid = asid then { w with discarded := true } else w) }

/-- No translation and no cached record of an ASID is left anywhere (R290). -/
def State.forgetAsid (s : State) (asid : Nat) : State :=
  { s with cores := s.cores.map (fun e => (e.1, e.2.forget asid)), clusters := s.clusters.map (fun e => (e.1, e.2.forget asid)) }

/-- The context becomes Free: its key is erased, which is logged, its slot and its ASID are free, and nothing is cached of the ASID, of
copies that went on after the HALT neither (R258, R290, R351). -/
def State.freeContext (s : State) (asid : Nat) (c : Context) : State :=
  ({ s with contexts := s.contexts.erase asid, keySlots := s.keySlots.set c.slot { s.keySlot c.slot with inUse := false } }.forgetAsid
    asid).logEvent 0x0009 0x3FF 0 c.tagWord 0 0

/-- R290: DESTROY. It drops the translations of the ASID everywhere, and completes when every core has acknowledged. -/
def execDestroy (s : State) : Host.Outcome State Fault Refusal :=
  command 7 (fun args s =>
    let asid := cmdArg args 0
    match s.contexts.get? asid with
    | none => s.answer 0xFE 0 0
    | some c =>
      if s.hub.destroying = some asid then
        if s.invals.any (fun e => e.2.issuer.isNone) then s
        else ((s.freeContext asid c).modHub (fun h => { h with destroying := none })).answer 0 0 0
      else if c.st ≠ .halted then s.answer 2 0 0
      else (s.invalidate none (some asid) true 0 (2 ^ 64)).modHub (fun h => { h with destroying := some asid })) s

end Sys2Proof.Machine
end

