-- ==== Sys2Proof/Machine/Control.lean ====
section
/-! DEFINITION. Branches, jumps and calls (R108-R111, R316). -/

namespace Sys2Proof.Machine

/-- The target of a branch or jump: PC + 4 x offset (R108, R109). -/
def Strand.target (t : Strand) (n : Nat) (off : Nat) : Word := t.pc + 4 * sext n off

/-- A conditional branch (R108). -/
def State.branch (taken : Word → Word → Bool) (a b : IntReg) (o : BitVec 14) (s : State) : Run :=
  .ok (s.retireTo (if taken (s.x a) (s.x b) then s.me.target 14 o.toNat else s.me.pc + 4))

/-- R108: `beq`. -/
def execBeq (a b : IntReg) (o : BitVec 14) (s : State) : Host.Outcome State Fault Refusal :=
  word plain false (State.branch (fun a b => a == b) a b o) s

/-- R108: `bne`. -/
def execBne (a b : IntReg) (o : BitVec 14) (s : State) : Host.Outcome State Fault Refusal :=
  word plain false (State.branch (fun a b => a != b) a b o) s

/-- R108: `blt`. -/
def execBlt (a b : IntReg) (o : BitVec 14) (s : State) : Host.Outcome State Fault Refusal :=
  word plain false (State.branch (fun a b => a.slt b) a b o) s

/-- R108: `bge`. -/
def execBge (a b : IntReg) (o : BitVec 14) (s : State) : Host.Outcome State Fault Refusal :=
  word plain false (State.branch (fun a b => !a.slt b) a b o) s

/-- R108: `bltu`. -/
def execBltu (a b : IntReg) (o : BitVec 14) (s : State) : Host.Outcome State Fault Refusal :=
  word plain false (State.branch (fun a b => a.ult b) a b o) s

/-- R108: `bgeu`. -/
def execBgeu (a b : IntReg) (o : BitVec 14) (s : State) : Host.Outcome State Fault Refusal :=
  word plain false (State.branch (fun a b => !a.ult b) a b o) s

/-- R109: `j`. -/
def execJ (o : BitVec 26) (s : State) : Host.Outcome State Fault Refusal :=
  word plain false (fun s => .ok (s.retireTo (s.me.target 26 o.toNat))) s

/-- R109: `call`. -/
def execCall (o : BitVec 26) (s : State) : Host.Outcome State Fault Refusal :=
  word plain false (fun s => .ok ((s.setX 1 (s.me.pc + 4)).retireTo (s.me.target 26 o.toNat))) s

/-- The kernel whose translation the word at PC belongs to (R316, R317). -/
def State.translatedHere (s : State) : Option Kernel :=
  match s.ahead.fetchPlace s.cur with
  | .error _ => none
  | .ok (p, _) =>
    match s.mem.marks.get? (p.loc / 4096) with
    | none => none
    | some k => (s.kernels.get? k.slot).filter (fun q => !q.code.isEmpty)

/-- A register jump (R110): a misaligned target traps 0x0B. -/
def State.jump (s : State) (link : Bool) (target : Word) : Run :=
  if target.toNat % 4 ≠ 0 then .error (trapOf 0x0B)
  else .ok ((if link then s.setX 1 (s.me.pc + 4) else s).retireTo target)

/-- A `jr` or `callr` of translated code must land on the start of a Gethen instruction (R316). -/
def State.jumpStart (s : State) (link : Bool) (target : Word) : Run :=
  match s.translatedHere with
  | none => s.jump link target
  | some k => if k.starts.contains (target - k.codeVa).toNat then s.jump link target else .error (trapOf 0x0B)

/-- R110: `jr`. -/
def execJr (a : IntReg) (s : State) : Host.Outcome State Fault Refusal :=
  word plain false (fun s => s.jumpStart false (s.x a)) s

/-- R110: `callr`. -/
def execCallr (a : IntReg) (s : State) : Host.Outcome State Fault Refusal :=
  word plain false (fun s => s.jumpStart true (s.x a)) s

/-- R110: `ret`. -/
def execRet (s : State) : Host.Outcome State Fault Refusal :=
  word plain false (fun s => s.jump false (s.x 1)) s

end Sys2Proof.Machine
end

