-- ==== Sys2Proof/Machine/Elastic.lean ====
section
/-! DEFINITION. Elastic arithmetic, comparisons, conversions and precision control (R113-R124). -/

namespace Sys2Proof.Machine

/-- Reads elastic registers in order (R113 step 3). -/
def Strand.readFs (t : Strand) (rs : List FReg) : Except Trap (List Val) :=
  match rs with
  | [] => .ok []
  | r :: rest =>
    match t.readF r.toNat with
    | .error e => .error e
    | .ok v =>
      match t.readFs rest with
      | .error e => .error e
      | .ok vs => .ok (v :: vs)

/-- The existence and form checks of an elastic form: its destinations exist, and its sources exist and are well formed
(R113 steps 2 and 3). -/
def Strand.sources (t : Strand) (dests srcs : List FReg) : Except Trap (List Val) :=
  match t.existF ((dests ++ srcs).map (·.toNat)) with
  | .error e => .error e
  | .ok _ => t.readFs srcs

/-- Writes one elastic result, unless it traps (R114, R81). -/
def State.result (s : State) (d : FReg) (r : Arith Val) : Run :=
  match r.check s.me.nte 0 0 with
  | .error e => .error e
  | .ok _ => .ok (s.putF d r).retire

/-- An elastic form with one result that `f` computes from its sources. -/
def State.elastic (d : FReg) (srcs : List FReg) (f : Strand → List Val → Arith Val) (s : State) : Run :=
  match s.me.sources [d] srcs with
  | .error e => .error e
  | .ok vs => s.result d (f s.me vs)

/-- The `i`-th source. -/
def arg (vs : List Val) (i : Nat) : Val := vs.getD i (.zero false)

/-- A rounding form of R115. -/
def State.rounded (op : ElOp) (d : FReg) (srcs : List FReg) (s : State) : Run :=
  s.elastic d srcs (fun t vs => op.run t.p t.rm (arg vs 0) (arg vs 1) (arg vs 2))

/-- R115: `fadd`. -/
def execFadd (d a b : FReg) (s : State) : Host.Outcome State Fault Refusal :=
  word plain false (State.rounded .add d [a, b]) s

/-- R115: `fsub`. -/
def execFsub (d a b : FReg) (s : State) : Host.Outcome State Fault Refusal :=
  word plain false (State.rounded .sub d [a, b]) s

/-- R115: `fmul`. -/
def execFmul (d a b : FReg) (s : State) : Host.Outcome State Fault Refusal :=
  word plain false (State.rounded .mul d [a, b]) s

/-- R115: `fdiv`. -/
def execFdiv (d a b : FReg) (s : State) : Host.Outcome State Fault Refusal :=
  word plain false (State.rounded .div d [a, b]) s

/-- R115: `fsqrt`. -/
def execFsqrt (d a : FReg) (s : State) : Host.Outcome State Fault Refusal :=
  word plain false (State.rounded .sqrt d [a]) s

/-- R115: `fma`. -/
def execFma (d a b c : FReg) (s : State) : Host.Outcome State Fault Refusal :=
  word plain false (State.rounded .fma d [a, b, c]) s

/-- R115: `fms`. -/
def execFms (d a b c : FReg) (s : State) : Host.Outcome State Fault Refusal :=
  word plain false (State.rounded .fms d [a, b, c]) s

/-- R115: `fnma`. -/
def execFnma (d a b c : FReg) (s : State) : Host.Outcome State Fault Refusal :=
  word plain false (State.rounded .fnma d [a, b, c]) s

/-- R119: `fmin`. -/
def execFmin (d a b : FReg) (s : State) : Host.Outcome State Fault Refusal :=
  word plain false (State.elastic d [a, b] (fun _ vs =>
    { val := minMax false (arg vs 0) (arg vs 1) (arg vs 0) (arg vs 1) })) s

/-- R119: `fmax`. -/
def execFmax (d a b : FReg) (s : State) : Host.Outcome State Fault Refusal :=
  word plain false (State.elastic d [a, b] (fun _ vs =>
    { val := minMax true (arg vs 0) (arg vs 1) (arg vs 0) (arg vs 1) })) s

/-- The rounded result of `ftwosum` or `ftwoprod` and its exact error (R117). -/
def twoResult (mul : Bool) (p : Nat) (a b : Val) : Arith Val × Arith Val :=
  let special : Val → Bool := fun v => v.isNan || v.isInf
  let op : ElOp := if mul then .mul else .add
  let r := op.run p 0 a b (.zero false)
  if special a || special b || r.val.isInf then (r, { val := .zero false })
  else
    match op.pre p 0 a b (.zero false), r.val with
    | .fin n m e, .fin n' m' e' => let d := addFin n m e (!n') m' e'; (r, (Pre.ofInt 0 d.1 d.2).elastic p 0)
    | .fin n m e, _ => (r, (Pre.fin n m e).elastic p 0)
    | _, _ => (r, { val := .zero false })

/-- `ftwosum` and `ftwoprod`: FD takes the result, and then FC the error (R117). -/
def State.twoForm (mul : Bool) (d e a b : FReg) (s : State) : Run :=
  match s.me.sources [d, e] [a, b] with
  | .error x => .error x
  | .ok vs =>
    let r := twoResult mul s.me.p (arg vs 0) (arg vs 1)
    match r.1.check s.me.nte 0 0 with
    | .error x => .error x
    | .ok _ => .ok ((s.putF d r.1).putF e r.2).retire

/-- R117: `ftwosum`. -/
def execFtwosum (d a b e : FReg) (s : State) : Host.Outcome State Fault Refusal :=
  word plain false (State.twoForm false d e a b) s

/-- R117: `ftwoprod`. -/
def execFtwoprod (d a b e : FReg) (s : State) : Host.Outcome State Fault Refusal :=
  word plain false (State.twoForm true d e a b) s

/-- A value rounded to an integral one (R118). -/
def integral (p mode : Nat) (v : Val) : Arith Val :=
  match v with
  | .fin n m e =>
    if (p : Int) - 1 ≤ topBit m e then { val := v }
    else
      let r := roundAt mode n m e 0
      { val := if r.1 = 0 then .zero n else if r.2 then .fin n r.1 0 else v, fl := { nx := r.2 }, rx := mode == 5 && r.2 }
  | _ => { val := v }

/-- R118: `fround`. -/
def execFround (d a : FReg) (s : State) : Host.Outcome State Fault Refusal :=
  word plain false (State.elastic d [a] (fun t vs => integral t.p t.rm (arg vs 0))) s

/-- A value times a power of two (R118). -/
def scaled (p mode : Nat) (v : Val) (k : Int) : Arith Val :=
  match v with
  | .fin n m e => elFinish p mode n m (e + k)
  | _ => { val := v }

/-- R118: `fscale`. -/
def execFscale (d a : FReg) (b : XReg) (s : State) : Host.Outcome State Fault Refusal :=
  word plain false (fun s => s.elastic d [a] (fun t vs => scaled t.p t.rm (arg vs 0) (s.xr b).toInt)) s

/-- R119: `fmov`. -/
def execFmov (d a : FReg) (s : State) : Host.Outcome State Fault Refusal :=
  word plain false (State.elastic d [a] (fun _ vs => { val := arg vs 0 })) s

/-- R119: `fneg`. -/
def execFneg (d a : FReg) (s : State) : Host.Outcome State Fault Refusal :=
  word plain false (State.elastic d [a] (fun _ vs => { val := (arg vs 0).negate })) s

/-- R119: `fabs`. -/
def execFabs (d a : FReg) (s : State) : Host.Outcome State Fault Refusal :=
  word plain false (State.elastic d [a] (fun _ vs => { val := (arg vs 0).withSign false })) s

/-! ## Comparisons and classification (R120, R121) -/

/-- A form that writes an integer register and may accrue flags. -/
def State.toX (d : XReg) (srcs : List FReg) (f : Strand → List Val → Arith Word) (s : State) : Run :=
  match s.me.sources [] srcs with
  | .error e => .error e
  | .ok vs =>
    let r := f s.me vs
    match r.check s.me.nte 0 0 with
    | .error e => .error e
    | .ok _ => .ok ((s.setXr d r.val).accrue r.fl).retire

/-- Some operand is a NaN. -/
def unordered (vs : List Val) : Bool := vs.any Val.isNan

/-- R120: `fcmp.eq`. -/
def execFcmpEq (d : XReg) (a b : FReg) (s : State) : Host.Outcome State Fault Refusal :=
  word plain false (State.toX d [a, b] (fun _ vs => { val := flagWord ((arg vs 0).eqv (arg vs 1)) })) s

/-- R120: `fcmp.lt`. -/
def execFcmpLt (d : XReg) (a b : FReg) (s : State) : Host.Outcome State Fault Refusal :=
  word plain false (State.toX d [a, b] (fun _ vs =>
    { val := flagWord (!unordered vs && (arg vs 0).lt (arg vs 1)), fl := { nv := unordered vs } })) s

/-- R120: `fcmp.le`. -/
def execFcmpLe (d : XReg) (a b : FReg) (s : State) : Host.Outcome State Fault Refusal :=
  word plain false (State.toX d [a, b] (fun _ vs =>
    { val := flagWord (!unordered vs && !(arg vs 1).lt (arg vs 0)), fl := { nv := unordered vs } })) s

/-- R120: `fcmp.un`. -/
def execFcmpUn (d : XReg) (a b : FReg) (s : State) : Host.Outcome State Fault Refusal :=
  word plain false (State.toX d [a, b] (fun _ vs => { val := flagWord (unordered vs) })) s

/-- R121: `fclass`. -/
def execFclass (d : XReg) (a : FReg) (s : State) : Host.Outcome State Fault Refusal :=
  word plain false (State.toX d [a] (fun _ vs => { val := BitVec.ofNat 64 (classWord (arg vs 0)) })) s

/-! ## Conversions (R122) -/

/-- A conversion into an elastic register. -/
def State.fromX (d : FReg) (f : Strand → Arith Val) (s : State) : Run := s.elastic d [] (fun t _ => f t)

/-- R122: `fcvt.el.d`. -/
def execFcvtElD (d : FReg) (a : XReg) (s : State) : Host.Outcome State Fault Refusal :=
  word { fmt := true } false (fun s => s.fromX d (fun t => elRound t.p t.mode (Val.ofInt (s.xr a).toInt))) s

/-- R122: `fcvt.el.du`. -/
def execFcvtElDu (d : FReg) (a : XReg) (s : State) : Host.Outcome State Fault Refusal :=
  word { fmt := true } false (fun s => s.fromX d (fun t => elRound t.p t.mode (Val.ofInt (s.xr a).toNat))) s

/-- An integer result as a register value. -/
def intResult (r : Arith Int) : Arith Word := { val := BitVec.ofInt 64 r.val, fl := r.fl, rx := r.rx }

/-- R122: `fcvt.d.el`. -/
def execFcvtDEl (d : XReg) (a : FReg) (s : State) : Host.Outcome State Fault Refusal :=
  word { fmt := true } false (State.toX d [a] (fun t vs => intResult (toInt t.mode (-(2 ^ 63)) (2 ^ 63 - 1) (arg vs 0)))) s

/-- R122: `fcvt.du.el`. -/
def execFcvtDuEl (d : XReg) (a : FReg) (s : State) : Host.Outcome State Fault Refusal :=
  word { fmt := true } false (State.toX d [a] (fun t vs => intResult (toInt t.mode 0 (2 ^ 64 - 1) (arg vs 0)))) s

/-- R122: `fcvt.el.df`. -/
def execFcvtElDf (d : FReg) (a : XReg) (s : State) : Host.Outcome State Fault Refusal :=
  word { fmt := true } false (fun s => s.fromX d (fun t => ieeeToEl (fmtOf 8) t.p t.mode (s.xr a).toNat)) s

/-- A bit pattern as a register value. -/
def bitsResult (r : Arith Nat) : Arith Word := { val := BitVec.ofNat 64 r.val, fl := r.fl, rx := r.rx, made := r.made }

/-- R122: `fcvt.df.el`. -/
def execFcvtDfEl (d : XReg) (a : FReg) (s : State) : Host.Outcome State Fault Refusal :=
  word { fmt := true } false (State.toX d [a] (fun t vs => bitsResult (elToIeee (fmtOf 8) t.mode false (arg vs 0)))) s

/-- R122: `fcvt.el.sf`. -/
def execFcvtElSf (d : FReg) (a : XReg) (s : State) : Host.Outcome State Fault Refusal :=
  word { fmt := true } false (fun s => s.fromX d (fun t => ieeeToEl (fmtOf 6) t.p t.mode ((s.xr a).toNat % 2 ^ 32))) s

/-- R122: `fcvt.sf.el`. -/
def execFcvtSfEl (d : XReg) (a : FReg) (s : State) : Host.Outcome State Fault Refusal :=
  word { fmt := true } false (State.toX d [a] (fun t vs => bitsResult (elToIeee (fmtOf 6) t.mode false (arg vs 0)))) s

/-! ## Precision and rounding control (R123, R124) -/

/-- R123: `setprec`. -/
def execSetprec (a : XReg) (s : State) : Host.Outcome State Fault Refusal :=
  word plain false (fun s =>
    match s.me.setPrec (s.xr a).toNat with
    | .error e => .error e
    | .ok t => .ok (s.setStrand s.cur t).retire) s

/-- R124: `getprec`. -/
def execGetprec (d : XReg) (s : State) : Host.Outcome State Fault Refusal :=
  word plain false (fun s => .ok (s.setXr d (BitVec.ofNat 64 s.me.p)).retire) s

/-- R124: `setrnd`. -/
def execSetrnd (a : XReg) (s : State) : Host.Outcome State Fault Refusal :=
  word plain false (fun s =>
    if 5 < (s.xr a).toNat then .error (trapOf 0x0A)
    else .ok (s.modMe (fun t => { t with ssw := putBits t.ssw 4 3 (s.xr a).toNat })).retire) s

end Sys2Proof.Machine
end

