-- ==== Sys2Proof/Machine/ElasticMem.lean ====
section
/-! DEFINITION. Elastic record loads and stores (R125-R127). -/

namespace Sys2Proof.Machine

/-- The checks of a record's first `n` bytes, and the bytes (R126 steps 3 to 7). -/
def State.recordBytes (s : State) (ea n : Nat) (nofwd : Bool) : Except Trap (List Byte × State) :=
  match s.reachAll ea n .read false with
  | .error e => .error e
  | .ok (.reg off, s') => (s'.regRead ea off n).map (fun bs => (bs, s'))
  | .ok (.mem parts, s') =>
    match s'.admitsAll (piecesOf parts) .read with
    | .error e => .error e
    | .ok _ => (s'.pin (parts.map (·.1))).loadAll (piecesOf parts) nofwd {}

/-- A record's header as the accesses that follow find it: bytes that they have read already, and the others as they stand. -/
def State.headerBytes (s : State) (live : List Byte) : List Byte :=
  (s.replay.flatten ++ live.drop s.replay.flatten.length).take 4

/-- A record at an address: its header, its checks and its value (R126). A fence that names any of its bytes holds it whole. -/
def State.record (s : State) (ea : Nat) (nofwd : Bool) (k : Nat → State → Run) : Run :=
  s.unlessHeld [(ea, ea + 4)]
    (match s.ahead.recordBytes ea 4 nofwd with
     | .error e => .error e
     | .ok (hd, _) =>
       let n := elN (leNat (s.headerBytes hd))
       if n = 0 ∨ 28 < n then .error (trapAt 0x42 ea)
       else s.unlessHeld [(ea, ea + 4 + n)]
         (match s.recordBytes ea (4 + n) nofwd with
          | .error e => .error e
          | .ok (bs, s') => k (leNat bs) s'))

/-- `fld` and `fld.s` at an address (R126). -/
def State.loadRecord (d : FReg) (ea : Word) (s : State) : Run :=
  match s.me.existF [d.toNat] with
  | .error e => .error e
  | .ok _ =>
    s.record ea.toNat (s.me.hmod == some true) (fun w s' =>
      if elBad w then .error (trapAt 0x42 ea.toNat) else s'.result d (elRound s.me.p s.me.rm (elDecode w)))

/-- Stores bytes at an address: the checks of a store over its footprint, and the writes (R126, R127). -/
def State.storeBytes (s : State) (ea : Nat) (bs : List Byte) : Run :=
  match s.reachAll ea bs.length .write false with
  | .error e => .error e
  | .ok (.reg off, s') => s'.regWrite ea off bs
  | .ok (.mem parts, s') =>
    match s'.admitsAll parts .write with
    | .error e => .error e
    | .ok _ => (s'.pin (parts.map (·.1))).storeAll (piecesOf parts) bs {}

/-- `fst` and `fst.s` at an address (R126): the register's value at its own length. -/
def State.storeRecord (d : FReg) (ea : Word) (s : State) : Run :=
  match s.me.sources [] [d] with
  | .error e => .error e
  | .ok vs =>
    let bs := leBytes (4 + s.me.p / 8) (elEncode s.me.p (arg vs 0))
    s.unlessHeld [(ea.toNat, ea.toNat + bs.length)] ((s.storeBytes ea.toNat bs).map State.retire)

/-- R126: `fld`. -/
def execFld (d : FReg) (b : IntReg) (p : BitVec 12) (s : State) : Host.Outcome State Fault Refusal :=
  word { himm := 1, nofwd := true } false (fun s => s.loadRecord d (s.x b + s.me.disp12 p)) s

/-- R126: `fst`. -/
def execFst (d : FReg) (b : IntReg) (p : BitVec 12) (s : State) : Host.Outcome State Fault Refusal :=
  word { himm := 1 } false (fun s => s.storeRecord d (s.x b + s.me.disp12 p)) s

/-- R126: `fld.s`. -/
def execFldS (d : FReg) (b i : IntReg) (s : State) : Host.Outcome State Fault Refusal :=
  word { nofwd := true } false (fun s => s.loadRecord d (s.x b + s.x i)) s

/-- R126: `fst.s`. -/
def execFstS (d : FReg) (b i : IntReg) (s : State) : Host.Outcome State Fault Refusal :=
  word plain false (fun s => s.storeRecord d (s.x b + s.x i)) s

end Sys2Proof.Machine
end

