-- ==== Sys2Proof/Machine/EvCopy.lean ====
section
/-! DEFINITION. Events of asynchronous operations: issue of a held copy, the Runnel engine's reads and writes, faults, completion, flips,
packets and landing handlers with `lret`, and fences (R161-R172, R203-R212). -/

namespace Sys2Proof.Machine

/-- R203, R206: a held copy is checked again, and issues once its hold conditions are clear. -/
def execCopyIssue (sid : StrandId) (s : State) : Host.Outcome State Fault Refusal :=
  let t := s.strand sid
  match t.held with
  | none => .next s
  | some h =>
    let u := s.setStrand sid { t with held := none }
    if !u.runnable sid then .next s
    else
      let work : State → Run :=
        match h.op with
        | .send => State.doSend h.d h.a h.b
        | .sendh => State.doPacket .sendh h.d h.a h.b
        | .sendr => State.doPacket .sendr h.d h.a h.b
        | .tsend => State.doTsend h.d h.a h.b
        | .publish => State.doPublish h.d h.a
      match word plain false work { (u.toRetire sid.core) with cur := sid, cut := none, replay := t.got } with
      | .next s2 => if (s2.strand sid).held.isSome then .next s else .next { s2 with cur := s.cur }
      | o => o

/-! ## The Runnel engine (R161, R162, R207) -/

/-- No store of the issuing strand older than the operation is still in its core's buffer (R161, R209). -/
def State.storesPast (s : State) (c : Copy) (id : Nat) : Bool :=
  !(s.core c.issuer.core).buffer.any (fun b => b.num == c.issuer.num && decide (b.id < id))

/-- The copy has reads or writes still to make at its core's Runnel engine, and does not wait for the fault queue: while it waits, other
copies proceed (R212, R291). -/
def Copy.unfinished (c : Copy) : Bool :=
  (c.op == .send || c.op == .tsend) && c.error.isNone && c.wait.isNone && (!c.todo.isEmpty || !c.pieces.isEmpty)

/-- The copy is one of the eight in progress at its core, the eight issued first of those with reads or writes still to make (R207). -/
def State.inProgress (s : State) (c : Copy) (id : Nat) : Bool :=
  (((s.copies.filter (fun e => e.2.unfinished && e.2.issuer.core == c.issuer.core)).map (·.1)).take 8).contains id

/-- Bytes that were read become pieces to write, each within one aligned 8-byte word (R162). -/
def piecesFor (dst : Nat) (bs : List Byte) : List Piece :=
  (cutAt bs.length 8 dst bs.length).map (fun e => { dst := wrap64 e.1, bytes := (bs.drop (e.1 - dst)).take e.2 })

/-- A list with the element at an index replaced by a list. -/
def spliceAt {α : Type} (l : List α) (i : Nat) (new : List α) : List α := l.take i ++ new ++ l.drop (i + 1)

/-- The source address of the `k`-th byte that is left to read. -/
def todoByte (todo : List Span) (k : Nat) : Option Nat :=
  match todo with
  | [] => none
  | p :: rest => if k < p.len then some (p.src + k) else todoByte rest (k - p.len)

/-- The part of a span whose source lies in `[lo, hi)`, if there is one. -/
def Span.inside (lo hi : Nat) (p : Span) : Option Span :=
  let a := Nat.max p.src lo
  let b := Nat.min (p.src + p.len) hi
  if a < b then some { src := a, dst := p.dst + (a - p.src), len := b - a } else none

/-- The parts of a span whose source lies outside `[lo, hi)`. -/
def Span.outside (lo hi : Nat) (p : Span) : List Span :=
  match p.inside lo hi with
  | none => [p]
  | some q =>
    let after := q.src + q.len
    [{ p with len := q.src - p.src }, { src := after, dst := q.dst + q.len, len := p.src + p.len - after }].filter
      (fun r => decide (r.len ≠ 0))

/-- Whether a copy's read of `n` bytes of a line succeeds, and where (R212, R331, R353). -/
def State.spanRead (s : State) (c : Copy) (va n : Nat) : Except Trap (Place × State) :=
  match s.copyPlace c va .read false with
  | .error e => .error e
  | .ok (q, s') => if s'.mem.poisoned q.cred q.loc n then .error (trapAt (poisonCause q.loc) va) else .ok (q, s')

/-- Whether a copy's write of a piece succeeds, and where (R212). -/
def State.pieceWrite (s : State) (c : Copy) (dst : Nat) : Except Trap (Place × State) :=
  match s.copyPlace c dst .write true with
  | .error e => .error e
  | .ok (q, s') => if q.sync then .error (trapAt 0x80 dst) else .ok (q, s')

/-- A page that the copy writes at or below an address, and that it has not left behind, is a sync page (R212). -/
def State.syncBelow (s : State) (c : Copy) (va : Nat) : Bool :=
  let from_ := (c.todo.map (·.dst) ++ c.pieces.map (·.dst)).foldl Nat.min va
  (List.range (va / 4096 - from_ / 4096 + 1)).any (fun i =>
    match s.copyPlace c (Nat.max from_ ((from_ / 4096 + i) * 4096)) .write true with
    | .ok (q, _) => q.sync
    | .error _ => false)

/-- The bytes of a place's line, or of its aligned 8-byte word, at some addresses of it, given as parts of spans; `va` is the place's own
address. -/
def State.partRead (s : State) (q : Place) (va : Nat) (p : Span) : List Byte :=
  s.rawRead { q with loc := q.loc + p.src - va, va := p.src } p.len

/-- R161, R206, R207: the Runnel engine reads a line, on uncached and device pages an aligned 8-byte word, that holds a byte left to
read: every byte of it that is left is read at once. -/
def execCopyRead (copy offset : Nat) (s : State) : Host.Outcome State Fault Refusal :=
  match s.copies.get? copy with
  | none => .next s
  | some c =>
    if c.error.isSome || c.wait.isSome || c.op == .publish || !s.inProgress c copy || !s.storesPast c copy then .next s
    else
      match todoByte c.todo offset with
      | none => .next s
      | some va =>
        match s.spanRead c va 1 with
        | .error _ => .next s
        | .ok (q, s1) =>
          let unit := if q.ca = 0 then 64 else 8
          let lo := alignDown va unit
          let parts := c.todo.filterMap (Span.inside lo (lo + unit))
          if s1.placeHeld q false || parts.any (fun p => s1.mem.poisoned q.cred (q.loc + p.src - va) p.len) then .next s
          else
            let new := parts.flatMap (fun p => piecesFor p.dst (s1.partRead q va p))
            let todo := c.todo.flatMap (Span.outside lo (lo + unit))
            let c1 := { c with todo := todo, pieces := c.pieces ++ new }
            let s0 := (s1.wakeSpad q.loc).siltUses q.cred false q.lines
            let s2 := { s0 with free := s1.free + 1, copies := s1.copies.set copy c1 }
            .next (if todo.isEmpty then s2.dequeueCopy c.issuer.core copy else s2)

/-- The bytes of a word that pieces hold, by address. -/
def pieceBytes (pieces : List Piece) (word : Nat) : List (Nat × Byte) :=
  (List.range 8).filterMap (fun i =>
    let a := word * 8 + i
    (pieces.find? (fun p => decide (p.dst ≤ a) && decide (a < p.dst + p.bytes.length))).map (fun p => (a, p.bytes.getD (a - p.dst) 0)))

/-- R162, R170: a copy writes one aligned 8-byte word, or the part of it that it copies, once all of that has been read; on a shadowed page
into the hidden frame. A copy that is not among those in progress waits (R207). -/
def execCopyWrite (copy index : Nat) (s : State) : Host.Outcome State Fault Refusal :=
  match s.copies.get? copy with
  | none => .next s
  | some c =>
    if c.error.isSome || c.wait.isSome || !s.inProgress c copy then .next s
    else
      match c.pieces[index]? with
      | none => .next s
      | some p =>
        let word := p.dst / 8
        let bytes := pieceBytes c.pieces word
        let dst := (bytes.map (·.1)).headD p.dst
        if c.todo.any (fun r => meets r.dst (r.dst + r.len) (word * 8) (word * 8 + 8)) then .next s
        else
          match s.pieceWrite c dst with
          | .error _ => .next s
          | .ok (q, s1) =>
            if s.syncBelow c dst || s1.placeHeld q true then .next s
            else
              let s2 := s1.rawWrite q (bytes.map (·.2))
              let done : Copy := { c with pieces := c.pieces.filter (fun r => r.dst / 8 != word), written := c.written + bytes.length }
              .next { s2 with copies := s2.copies.set copy done }

/-- The page of a `publish` that it would flip next, or the fault it meets, and the state after the walks that found it. -/
def State.flipNext (s : State) (c : Copy) : Option (Nat × Except Trap TlbEntry) × State :=
  match c.todo with
  | [] => (none, s)
  | p :: _ => s.nextFlip (pagesOf p.dst (p.dst + p.len)) c p.dst (p.dst + p.len)

/-- The fault of an attempt, a wait for a quiesced stack being none. -/
def failure {α : Type} (r : Except Trap α) : Option Trap :=
  match r with
  | .error e => if e.stall then none else some e
  | .ok _ => none

/-- The parts of a span's source, one for each line that it touches. -/
def Span.lineParts (p : Span) : List (Nat × Nat) := cutAt p.len 64 p.src p.len

/-- The first fault that a running copy meets: at a write, at a read, or at a flip. In which order a copy comes to the bytes that fail is
left open; the model takes writes before reads, and of either the one that its lists hold first (DESIGN CHOICE, assumption 107). -/
def State.copyTrap (s : State) (c : Copy) (id : Nat) : Option Trap :=
  if c.op = .publish then (s.flipNext c).1.bind (fun f => failure f.2)
  else
    match (c.pieces.filterMap (fun p => failure (s.pieceWrite c p.dst))).head? with
    | some e => some e
    | none =>
      if s.storesPast c id then ((c.todo.flatMap Span.lineParts).filterMap (fun r => failure (s.spanRead c r.1 r.2))).head? else none

/-- A copy ends in error: it makes no more writes (R163, R212). -/
def State.failCopy (s : State) (id : Nat) (cause : Cause) : State :=
  match s.copies.get? id with
  | none => s
  | some c =>
    ({ s with copies := s.copies.set id { c with error := some cause, wait := none, todo := [], pieces := [] } }).dequeueCopy
      c.issuer.core id

/-- R212: a running copy meets a fault. In a pageable context a translation fault of user-level work goes to the fault queue, and the
copy waits; any other ends it in error. -/
def execCopyFault (copy : Nat) (s : State) : Host.Outcome State Fault Refusal :=
  match s.copies.get? copy with
  | none => .next s
  | some c =>
    if c.error.isSome || c.wait.isSome || c.op.isPacket || (c.op != .publish && !s.inProgress c copy) then .next s
    else
      match s.copyTrap c copy with
      | none => .next s
      | some e =>
        let s := s.afterFault c.issuer.core e
        let pageable := c.level == .user && (c.asid.bind (fun a => s.contexts.get? a)).any (fun x => x.pageable)
        match (if pageable then e.fault else none) with
        | some f => .next { s with copies := s.copies.set copy { c with wait := some f } }
        | none => .next (s.failCopy copy e.cause)

/-- R203, R212: a copy whose last write has entered T, or that has ended in error, completes. -/
def execCopyComplete (copy : Nat) (s : State) : Host.Outcome State Fault Refusal :=
  match s.copies.get? copy with
  | none => .next s
  | some c =>
    if (c.error.isSome || (!c.op.isPacket && c.todo.isEmpty && c.pieces.isEmpty)) && s.recordReady c then .next (s.completeCopy copy)
    else .next s

/-! ## Flips (R171) -/

/-- The select bit of a frame pair is inverted. -/
def Mem.flip (m : Mem) (b : Nat) : Mem :=
  { m with selects := if m.selects.contains b then removeNat m.selects b else insertNat m.selects b }

/-- An older asynchronous operation of the same strand still has writes to make to a page (R171). -/
def State.olderWrites (s : State) (c : Copy) (id lo hi : Nat) : Bool :=
  s.copies.any (fun e => decide (e.1 < id) && e.2.uid == c.uid && e.2.op != .publish && meets e.2.dst (e.2.dst + e.2.dstLen) lo hi &&
    (!e.2.todo.isEmpty || !e.2.pieces.isEmpty))

/-- R171: the next shadowed page of a `publish` is flipped, after every older write of its strand to the hidden frame; waiters at its
words stand at the other frame's from then on (R170). -/
def execPublishFlip (copy : Nat) (s : State) : Host.Outcome State Fault Refusal :=
  match s.copies.get? copy with
  | none => .next s
  | some c =>
    if c.op != .publish || c.error.isSome || c.wait.isSome then .next s
    else
      match s.flipNext c with
      | (none, t) => .next { t with copies := t.copies.set copy { c with todo := [] } }
      | (some (_, .error _), _) => .next s
      | (some (_, .ok e), t) =>
        if s.olderWrites c copy e.base (e.base + e.size) then .next s
        else
          let hi := c.dst + c.dstLen
          let s1 := ({ t with mem := t.mem.flip (leafFrame e.size e.leaf.toNat + e.size) }).roundsAt []
          let lo := e.base + e.size
          let r := s1.nextFlip (pagesOf lo hi) c lo hi
          let todo : List Span := match r.1 with
            | none => []
            | some (va, _) => [{ src := 0, dst := va, len := hi - va }]
          .next { r.2 with copies := r.2.copies.set copy { c with todo := todo } }

/-! ## Packets and landing handlers (R208-R211, R216) -/

/-- R209, R216: the packet at the head of a send queue enters the mesh after its sender's older stores have entered T. -/
def execPacketInject (core : Nat) (reply : Bool) (s : State) : Host.Outcome State Fault Refusal :=
  match (if reply then (s.core core).sendReply else (s.core core).sendReq).head? with
  | none => .next s
  | some id =>
    match s.copies.get? id with
    | none => .next s
    | some c =>
      match c.packet with
      | none => .next s
      | some (p, _) =>
        if s.storesPast c id then
          .next (({ s with copies := s.copies.set id { c with packet := some (p, .mesh) } }).dequeueCopy core id)
        else .next s

/-- The packet's target core is still in the group that it was sent in (R236). -/
def State.packetWelcome (s : State) (c : Copy) (target : Nat) : Bool :=
  decide ((s.core target).group = c.group) && !(s.groupOf target).any (fun g => g.st == .releasing)

/-- R208, R236: a packet arrives at its landing queue, waits in the network while that is full, or is discarded where the core is no
longer in the group. -/
def execLandingPacketArrival (copy : Nat) (s : State) : Host.Outcome State Fault Refusal :=
  match s.copies.get? copy with
  | none => .next s
  | some c =>
    match c.packet with
    | some (p, .mesh) =>
      if c.error.isSome then .next s
      else if !s.packetWelcome c p.target then .next (s.discardPacket copy 0xA2)
      else
        let k := s.core p.target
        if 16 ≤ (if p.reply then k.landReply else k.landReq).length then .next s
        else
          .next (({ s with copies := s.copies.set copy { c with packet := some (p, .landingQueue) } }).modCore p.target (fun k =>
            if p.reply then { k with landReply := k.landReply ++ [copy] } else { k with landReq := k.landReq ++ [copy] }))
    | _ => .next s

/-- The packet that the landing strand takes next: the earliest reply, else the earliest request (R208). -/
def CoreState.nextPacket (k : CoreState) : Option Nat :=
  match k.landReply with
  | id :: _ => some id
  | [] => k.landReq.head?

/-- `x11` of a handler (R209). -/
def packetWord (p : Packet) : Word :=
  BitVec.ofNat 64 (p.sender.num + place 8 p.lidx.toNat + place 16 p.plen + place 25 (flag p.reply))

/-- The landing strand with a handler's registers, at its entry (R26, R209). -/
def Strand.startHandler (t : Strand) (p : Packet) (entry : Nat) (started cycles : Nat) (signal : BitVec 6 × Bool) : Strand :=
  let t := (((t.putX 10 (BitVec.ofNat 64 p.sender.core)).putX 11 (packetWord p)).putX 12 (BitVec.ofNat 64 p.user.toNat)).putX 13
    (BitVec.ofNat 64 started)
  { t with v := Sparse.put 0 (Sparse.put 0 t.v 0 (BitVec.ofNat 1024 p.payload.toNat)) 1 (BitVec.ofNat 1024 (p.payload.toNat / 2 ^ 1024)),
           pc := BitVec.ofNat 64 (entry / 4 * 4), st := .running, ssw := putBits (putBits t.ssw 3 1 0) 0 2 0, sched := false, himm := [],
           hmod := none, handler := some signal, lastFetch := cycles }

/-- The entry of the landing-handler table for a packet, none where its read faults; nothing where the read has to wait (R209, R327). -/
def State.landingEntry (s : State) (sid : StrandId) (a : Nat) : Except Unit (Option Nat × State) :=
  let here := { s.ahead with cur := sid }
  match here.reach a 8 .read false with
  | .error e => if e.stall then .error () else .ok (none, s.beforeTrap sid e)
  | .ok (.reg _, _) => .ok (none, s)
  | .ok (.mem q, s1) =>
    if s1.mem.poisoned q.cred q.loc 8 then .ok (none, { s1 with cur := s.cur, cut := s.cut, replay := s.replay })
    else
      match s1.loadMem q 8 false {} with
      | .error _ => .error ()
      | .ok r => .ok (some (leNat r.1), { r.2 with cur := s.cur, cut := s.cut, replay := s.replay })

/-- The next packet of a core leaves its landing queue and starts its handler, or is discarded for an invalid entry (R209). Nothing happens
while a fence holds the read of the entry (R169), or while the write of the packet's record has to wait. -/
def State.takePacket (s : State) (core : Nat) : State :=
  match (s.core core).nextPacket with
  | none => s
  | some id =>
    match s.copies.get? id with
    | none => s
    | some c =>
      match c.packet with
      | none => s
      | some (p, _) =>
        let sid : StrandId := { core := core, num := 4 }
        let a := wrap64 ((s.core core).htab.toNat + 8 * p.lidx.toNat)
        if s.fenced sid a (a + 8) || !s.recordReady c then s
        else
          match s.landingEntry sid a with
          | .error _ => s
          | .ok (e, s1) =>
            let s2 := s1.modCore core (fun k => { k with landReply := removeNat k.landReply id, landReq := removeNat k.landReq id })
            match e with
            | none => s2.discardPacket id 0x6F
            | some entry =>
              if entry % 4 ≠ 1 then s2.discardPacket id 0x6F
              else
                let s3 := s2.modCore core (fun k => { k with started := k.started + 1 })
                (s3.modStrand sid (fun t => t.startHandler p entry (s3.core core).started s3.clk.cycles (c.tag, c.tagEn))).completeCopy id

/-- R208, R209: the Idle landing strand takes its next packet. -/
def execLandingHandlerStart (core : Nat) (s : State) : Host.Outcome State Fault Refusal :=
  if (s.strand { core := core, num := 4 }).st == .idle && !(s.core core).attaching && decide ((s.core core).retained = 0) then
    .next (s.takePacket core)
  else .next s

/-- R211: `lret`. -/
def execLret (s : State) : Host.Outcome State Fault Refusal :=
  word plain false (fun s =>
    match (if s.cur.num = 4 then s.me.handler else none) with
    | none => .error (trapOf 0x68)
    | some (tag, tagEn) =>
      let s := s.drain s.cur
      let s := if tagEn then s.setTag s.cur.core tag.toNat else s
      let s := s.modMe (fun t => { t.spend with st := .idle, handler := none })
      .ok (if (s.core s.cur.core).attaching then s else s.takePacket s.cur.core)) s

/-! ## Fences (R168) -/

/-- R168: a pending fence whose operations have all completed is satisfied, and the accesses it held are released. -/
def execFenceSatisfied (sid : StrandId) (index : Nat) (s : State) : Host.Outcome State Fault Refusal :=
  match (s.strand sid).fences[index]? with
  | none => .next s
  | some f =>
    if f.waits.isEmpty then .next (s.modStrand sid (fun t => { (t.freshen f.items) with fences := spliceAt t.fences index [] }))
    else .next s

end Sys2Proof.Machine
end

