-- ==== Sys2Proof/Machine/Tile.lean ====
section
/-! DEFINITION. Tiles and matrix engines: the tile context, binding, tile and accumulator memory, tile arithmetic, the macro
instruction with its k-blocks, and gangs (R173-R200). -/

namespace Sys2Proof.Machine

/-! ## The tile context (R173) -/

/-- Tile register `i`. -/
def TileCtx.tile (t : TileCtx) (i : Nat) : Tile := Sparse.at Tile.zero t.tiles i

/-- Writes a tile register. -/
def TileCtx.putTile (t : TileCtx) (i : Nat) (v : Tile) : TileCtx := { t with tiles := Sparse.put Tile.zero t.tiles i v }

/-- Cell (r, c) of the accumulator space. -/
def TileCtx.cell (t : TileCtx) (r c : Nat) : Cell96 := Sparse.at cellZero t.acc (64 * r + c)

/-- Writes cells, each named by 64 r + c. -/
def TileCtx.putCells (t : TileCtx) (cells : List (Nat × Cell96)) : TileCtx :=
  { t with acc := cells.foldl (fun a c => Sparse.put cellZero a c.1 c.2) t.acc }

/-- The cells (i, j) of accumulator tile a[16x, 16y] in row-major order, each with its name. -/
def accCells (x y : Nat) : List (Nat × Nat × Nat) :=
  (List.range 256).map (fun k => (64 * (16 * x + k / 16) + 16 * y + k % 16, k / 16, k % 16))

/-- Writes the executing strand's tile context. -/
def State.setTile (s : State) (t : TileCtx) : State := s.modMe (fun q => { q with tile := some t })

/-- q, the length of the sums and conversions of an instruction that issues now (R82, R183). -/
def Strand.q (t : Strand) : Nat := Nat.max 16 (Nat.min t.p 64)

/-! ## Rows in memory (R181, R182) -/

/-- ea[i]. -/
def rowAddr (base stride : Word) (i : Nat) : Nat := (base + BitVec.ofNat 64 i * stride).toNat

/-- Bytes of a row of a tile in memory. -/
def tileFoot (f : Nat) : Nat := if f = 7 then 68 else 64

/-- Bytes of a row of an accumulator tile in memory. -/
def accFoot (f : Nat) : Nat := 16 * elemSize f

/-- Alignment of a row. -/
def rowAlign (f : Nat) : Nat := if f = 15 then 4 else elemSize f

/-- The row's first byte on the window part that fails (R182): the row itself where it begins there. -/
def badPart (ea n : Nat) : Nat :=
  let block := if Config.spadWindowBase ≤ ea ∧ (ea - Config.spadWindowBase) / Config.spadBlock % 1024 < 768 then
    [alignDown ea Config.spadBlock + Config.spadBytes] else []
  let edges := [Config.selfWindowBase, Config.selfWindowBase + Config.spadBytes] ++ block
  (edges.find? (fun e => decide (ea < e) && decide (e < ea + n))).getD ea

/-- The trap of a row in the register space (R39, R182): EVA is its first byte that names no register, where one does not. -/
def State.rowTrap (s : State) (ea off n : Nat) : Trap :=
  match (List.range n).find? (fun i => (regNamed s.me.p (off + i) 1).isNone) with
  | some i => trapAt 0x29 (ea + i)
  | none => trapAt 0x2A ea

/-- The checks of one row (R97, R182): the places of its footprint. -/
def State.checkRow (s : State) (ea n al : Nat) (kind : Access) : Except Trap (List (Place × Nat) × State) :=
  if ea % al ≠ 0 then .error (trapAt 0x21 ea)
  else
    match s.reachAll ea n kind (kind == .write) with
    | .error e => .error (if e.cause = 0x29 then { e with eva := BitVec.ofNat 64 (badPart ea n) } else e)
    | .ok (.reg off, _) => .error (s.rowTrap ea off n)
    | .ok (.mem ps, s') =>
      match s'.admitsAll (piecesOf ps) kind with
      | .error e => .error e
      | .ok _ => .ok (ps, s')

/-- The checks of `n` rows from row `i` on, each with its number and footprint; the lowest failing row decides, and EIDX.INDEX
names it. -/
def State.checkRows (s : State) (base stride : Word) (foot al : Nat) (kind : Access) (i n : Nat) :
    Except Trap (List (List (Place × Nat)) × State) :=
  match n with
  | 0 => .ok ([], s)
  | k + 1 =>
    match s.checkRow (rowAddr base stride i) foot al kind with
    | .error e => .error { e with eidx := BitVec.ofNat 64 i }
    | .ok (ps, s1) =>
      match s1.checkRows base stride foot al kind (i + 1) k with
      | .error e => .error e
      | .ok (rest, s2) => .ok (ps :: rest, s2)

/-- Hints of an engine's accesses: they fill no L1 data cache. -/
def engineHints : Hints := { l1 := false }

/-- Reads rows in ascending order, one access for each line (R183). -/
def State.loadRows (s : State) (rows : List (List (Place × Nat))) : Except Trap (List (List Byte) × State) :=
  match rows with
  | [] => .ok ([], s)
  | r :: rest =>
    match s.loadAll (piecesOf r) true engineHints with
    | .error e => .error e
    | .ok a =>
      match a.2.loadRows rest with
      | .error e => .error e
      | .ok b => .ok (a.1 :: b.1, b.2)

/-- The rows of a load are read, under the leaves that they were checked under (R182, R183). -/
def State.readRows (s : State) (rows : List (List (Place × Nat))) : Except Trap (List (List Byte) × State) :=
  (s.pin (rows.flatten.map (·.1))).loadRows rows

/-- One write of an engine: it enters T at once, past the store buffer and after the strand's older stores (R184). It waits while its
miss is held (R327). -/
def State.engineStore (s : State) (p : Place) (bs : List Byte) : Run :=
  (s.access (fun s =>
    if s.placeHeld p true then .error Trap.wait
    else
      let s := s.drain s.cur
      .ok ([], if p.ca = 2 ∧ isHub p.loc then s.hubStores bs.length p.loc bs
        else (s.touch s.cur.core p { engineHints with wr := true }).store p.cred (cellsAt p.loc bs)))).map (·.2)

/-- Writes a row, one access for each line (R184). -/
def State.writeRow (s : State) (parts : List (Place × Nat)) (bs : List Byte) : Run :=
  match parts with
  | [] => .ok s
  | (p, n) :: rest =>
    match s.engineStore p (bs.take n) with
    | .error e => .error e
    | .ok s' => s'.writeRow rest (bs.drop n)

/-- Writes rows in ascending order. -/
def State.writeRows (s : State) (rows : List (List (Place × Nat))) (data : List (List Byte)) : Run :=
  match rows, data with
  | r :: rest, d :: more =>
    match s.writeRow (piecesOf r) d with
    | .error e => .error e
    | .ok s' => s'.writeRows rest more
  | _, _ => .ok s

/-- The rows of a store are written, under the leaves that they were checked under (R182, R184). -/
def State.putRows (s : State) (rows : List (List (Place × Nat))) (data : List (List Byte)) : Run :=
  (s.pin (rows.flatten.map (·.1))).writeRows rows data

/-! ## Conversions to and from cells (R183, R184) -/

/-- Bytes [o, o + n) of a byte string, as a number. -/
def bytesAt (bs : List Byte) (o n : Nat) : Nat := leNat ((bs.drop o).take n)

/-- A stored cell is malformed: N is 0 or above 8, or R73 fails. -/
def cellBad (w : Nat) : Bool := elBad w || decide (8 < elN w)

/-- A cell read from memory with its bytes beyond N zero (R84). -/
def cellKept (w : Nat) : Cell96 := BitVec.ofNat 96 (w % 2 ^ (32 + 8 * elN w))

/-- An element of format `f` as a cell of length `q` (R79, R183). -/
def cellFrom (f q mode w : Nat) : Arith Val :=
  if f < 2 then elRound q mode (elemVal f w) else ieeeToEl (fmtOf f) q mode w

/-- A cell as an element of format `f` (R79, R184). -/
def cellTo (f mode : Nat) (ovf : Bool) (v : Val) : Arith Nat :=
  if f = 0 then let r := toInt mode (-128) 127 v; { val := (r.val % 256).toNat, fl := r.fl, rx := r.rx, made := r.made }
  else if f = 1 then let r := toInt mode 0 255 v; { val := (r.val % 256).toNat, fl := r.fl, rx := r.rx, made := r.made }
  else elToIeee (fmtOf f) mode ovf v

/-! ## Products and sums (R82, R186-R188) -/

/-- K of a format pair, where the pair is accepted (R186). -/
def pairK (fa fb : Nat) : Option Nat :=
  if fa ≤ 1 ∧ fb ≤ 1 then some 64
  else if (fa = 2 ∨ fa = 3) ∧ (fb = 2 ∨ fb = 3) then some 64
  else if (fa = 4 ∨ fa = 5) ∧ (fb = 4 ∨ fb = 5) then some 32
  else if fa = 6 ∧ fb = 6 then some 16
  else if fa = 7 ∧ fb = 7 then some 128
  else none

/-- The pair and OFMT are accepted: K, or cause 0x61 (R186). -/
def checkPair (fa fb fo : Nat) : Except Trap Nat :=
  match pairK fa fb with
  | none => .error (trapOf 0x61)
  | some k => if fo = 0 ∨ fo = 15 then .ok k else .error (trapOf 0x61)

/-- The values of the `k` elements of row `i` of a tile (R66, R67, R69, R70). -/
def rowVals (t : Tile) (i f k : Nat) : List Val :=
  let row := t.bytes.toNat / 2 ^ (512 * i)
  let scales := t.side.toNat / 2 ^ (32 * i)
  (List.range k).map (fun j =>
    if f = 7 then blkVal (bitsAt scales (8 * (j / 32)) 8) (bitsAt row (4 * j) 4)
    else elemVal f (bitsAt row (8 * elemSize f * j) (8 * elemSize f)))

/-- One product term (R82). The product of two integers is an integer, whose zero is +0. -/
def productOf (ints : Bool) (x y : Val) : Arith Val :=
  if x.isNan || y.isNan then { val := elNan 7, fl := { nv := x.isSnan || y.isSnan }, made := x.isSnan || y.isSnan }
  else
    match mulVal x y with
    | none => { val := elNan 2, fl := { nv := true }, made := true }
    | some (.zero n) => { val := .zero (n && !ints) }
    | some v => { val := v }

/-- The products of two rows, in order of k. -/
def productsOf (ints : Bool) (xs ys : List Val) : List (Arith Val) :=
  match xs, ys with
  | x :: xs, y :: ys => productOf ints x y :: productsOf ints xs ys
  | _, _ => []

/-- One cell's sum (R187), and the lowest k whose product is a NaN with NV, 0xFFFF where none is (R188). -/
def cellSum (ints : Bool) (q mode : Nat) (xs ys : List Val) (old : Val) : Arith Val × Nat :=
  let ps := productsOf ints xs ys
  let r := windowSum q mode (ps.map (·.val) ++ [old])
  ({ val := r.val, fl := ps.foldl (fun f p => f.or p.fl) r.fl, rx := r.rx, made := r.made || ps.any (·.made) },
   match ps.findIdx? (·.made) with | some k => k | none => 0xFFFF)

/-- The operands of a multiply: formats, length, mode, K, and how far along the row it begins. -/
structure MulParams where
  fa   : Nat
  fb   : Nat
  q    : Nat
  rm   : Nat
  off  : Nat
  deriving DecidableEq, Repr

/-- A block of cells from (r0, c0) on, `n` by `n`: each cell's name with its sum, in row-major order. -/
def mulBlock (p : MulParams) (t : TileCtx) (n r0 c0 : Nat) (as bs : List (List Val)) : List (Nat × Arith Val × Nat) :=
  (List.range (n * n)).map (fun k =>
    let r := r0 + k / n
    let c := c0 + k % n
    (64 * r + c, cellSum (decide (p.fa ≤ 1)) p.q p.rm (as.getD (k / n) []) (bs.getD (k % n) []) (cellVal (t.cell r c))))

/-- The trap of a block of cells (R188): the earliest cause in the order of R81, at the lowest cell that raises it. A count along the row
that exceeds EIDX.K keeps its low 16 bits (DESIGN CHOICE, assumption 108). -/
def mulTrap (p : MulParams) (nte : Bool) (tcoord : Word) (rs : List (Nat × Arith Val × Nat)) : Option Trap :=
  match firstCause nte (rs.map (fun r => (r.1, r.2.1))) with
  | none => none
  | some (c, name) =>
    let k := if c = 0x50 then ((rs.find? (fun r => r.1 == name)).map (·.2.2)).getD 0xFFFF else 0xFFFF
    some { cause := c, etile := tcoord, efmt := efmtOf p.fa p.fb 15,
           eidx := BitVec.ofNat 64 (name / 64 * 2 ^ 16 + name % 64 * 2 ^ 32 +
             (if k = 0xFFFF then k else (p.off + k) % 2 ^ 16) * 2 ^ 48) }

/-- Cells with their sums written (R187). -/
def TileCtx.putSums (t : TileCtx) (q : Nat) (rs : List (Nat × Arith Val × Nat)) : TileCtx :=
  t.putCells (rs.map (fun r => (r.1, cellOf q r.2.1.val)))

/-- The flags of a block of cells. -/
def sumFlags (rs : List (Nat × Arith Val × Nat)) : Flags := unionFlags (rs.map (fun r => (r.1, r.2.1)))

/-! ## Instructions of one turn -/

/-- A tile made of rows: 64 bytes each, and for BLK4 four scale bytes after them (R183). -/
def tileOfRows (f : Nat) (rows : List (List Byte)) : Tile :=
  { bytes := BitVec.ofNat 8192 (leNat ((rows.map (·.take 64)).flatten)), tag := BitVec.ofNat 4 f,
    side := if f = 7 then BitVec.ofNat 512 (leNat ((rows.map (fun r => (r.drop 64).take 4)).flatten)) else 0 }

/-- R183: `tld`. -/
def State.doTld (s : State) (c : TileCtx) (t : TReg) (base stride : Word) (rows f : Nat) : Run :=
  match s.checkRows base stride (tileFoot f) (rowAlign f) .read 0 rows with
  | .error e => .error e
  | .ok (ps, s1) => (s1.readRows ps).map (fun r => r.2.setTile (c.putTile t.toNat (tileOfRows f r.1)))

/-- The bytes of a row of a tile in memory (R184). -/
def tileRow (t : Tile) (f i : Nat) : List Byte :=
  leBytes 64 (t.bytes.toNat / 2 ^ (512 * i)) ++ if f = 7 then leBytes 4 (t.side.toNat / 2 ^ (32 * i)) else []

/-- R184: `tst`. -/
def State.doTst (s : State) (c : TileCtx) (t : TReg) (base stride : Word) (rows f : Nat) : Run :=
  match s.checkRows base stride (tileFoot f) (rowAlign f) .write 0 rows with
  | .error e => .error e
  | .ok (ps, s1) => s1.putRows ps ((List.range rows).map (tileRow (c.tile t.toNat) f))

/-- The cells of the accumulator tile that rows of memory make (R183): those of the rows read, and +0 in the others. -/
def State.takeCells (s : State) (c : TileCtx) (x y : Nat) (base stride : Word) (rows f q mode : Nat) (data : List (List Byte)) : Run :=
  let w := elemSize f
  let raw : Nat → Nat → Nat := fun i j => bytesAt (data.getD i []) (w * j) w
  let stored := (accCells x y).filter (fun k => decide (k.2.1 < rows))
  let clear := (accCells x y).filterMap (fun k => if k.2.1 < rows then none else some (k.1, cellZero))
  if f = 15 then
    match stored.find? (fun k => cellBad (raw k.2.1 k.2.2)) with
    | some k => .error { cause := 0x42, eidx := BitVec.ofNat 64 k.2.1,
                         eva := BitVec.ofNat 64 (rowAddr base stride k.2.1 + 12 * k.2.2) }
    | none => .ok (s.setTile (c.putCells (stored.map (fun k => (k.1, cellKept (raw k.2.1 k.2.2))) ++ clear)))
  else
    let rs := stored.map (fun k => (k.1, cellFrom f q mode (raw k.2.1 k.2.2)))
    match firstCause s.me.nte rs with
    | some (cause, _) => .error (trapOf cause)
    | none => .ok ((s.setTile (c.putCells (rs.map (fun k => (k.1, cellOf q k.2.val)) ++ clear))).accrue (unionFlags rs))

/-- R183: `acld`. -/
def State.doAcld (s : State) (c : TileCtx) (x y : Nat) (base stride : Word) (rows f q mode : Nat) : Run :=
  match s.checkRows base stride (accFoot f) (rowAlign f) .read 0 rows with
  | .error e => .error e
  | .ok (ps, s1) =>
    match s1.readRows ps with
    | .error e => .error e
    | .ok r => r.2.takeCells c x y base stride rows f q mode r.1

/-- R184: `acst`. -/
def State.doAcst (s : State) (c : TileCtx) (x y : Nat) (base stride : Word) (rows f mode : Nat) (ovf : Bool) : Run :=
  match s.checkRows base stride (accFoot f) (rowAlign f) .write 0 rows with
  | .error e => .error e
  | .ok (ps, s1) =>
    let cellAt : Nat → Nat → Cell96 := fun i j => c.cell (16 * x + i) (16 * y + j)
    if f = 15 then
      s1.putRows ps ((List.range rows).map (fun i => ((List.range 16).map (fun j => leBytes 12 (cellAt i j).toNat)).flatten))
    else
      let conv : Nat → Nat → Arith Nat := fun i j => cellTo f mode ovf (cellVal (cellAt i j))
      let rs := (List.range (16 * rows)).map (fun k => (k, conv (k / 16) (k % 16)))
      match firstCause s.me.nte rs with
      | some (cause, _) => .error (trapOf cause)
      | none =>
        (s1.putRows ps ((List.range rows).map (fun i =>
          ((List.range 16).map (fun j => leBytes (elemSize f) (conv i j).val)).flatten))).map (fun s => s.accrue (unionFlags rs))

/-- R187, R188: `tmma`. -/
def State.doTmma (s : State) (c : TileCtx) (a b : TReg) (x y fa fb q mode : Nat) : Run :=
  let p : MulParams := { fa := fa, fb := fb, q := q, rm := mode, off := 0 }
  let k := (pairK fa fb).getD 0
  let rows : TReg → Nat → List (List Val) := fun t f => (List.range 16).map (fun i => rowVals (c.tile t.toNat) i f k)
  let rs := mulBlock p c 16 (16 * x) (16 * y) (rows a fa) (rows b fb)
  match mulTrap p s.me.nte s.me.tcoord rs with
  | some e => .error e
  | none => .ok ((s.setTile (c.putSums q rs)).accrue (sumFlags rs))

/-- R185: `acmov`. -/
def TileCtx.acmov (c : TileCtx) (r k x y : Nat) : TileCtx :=
  c.putCells ((accCells r k).map (fun n => (n.1, c.cell (16 * x + n.2.1) (16 * y + n.2.2))))

/-! ## The macro instruction (R189-R191) -/

/-- The end of the scratchpad part that holds an address, where the scratchpad is that of an admitted core (R189). -/
def spadEnd (home : Nat) (ok : Nat → Bool) (a : Nat) : Option Nat :=
  match windowOf home a 1 ok (fun _ => true) with
  | .spad _ off => some (a - off + Config.spadBytes)
  | _ => none

/-- The lowest byte of a row that lies outside the admitted scratchpads. -/
def outsideOf (home : Nat) (ok : Nat → Bool) (a n : Nat) : Option Nat :=
  match spadEnd home ok a with
  | none => some a
  | some e => if a + n ≤ e then none else some e

/-- The lowest number of a list. -/
def lowest (l : List Nat) : Option Nat := l.foldl (fun m k => match m with | none => some k | some j => some (Nat.min j k)) none

/-- Addresses of the 64 rows of an operand. -/
def macroRows (base : Word) (stride : Nat) : List Nat := (List.range 64).map (rowAddr base (BitVec.ofNat 64 stride))

/-- The row stride of A (R189). -/
def strideA (ctl : Word) : Nat := bitsAt ctl.toNat 32 16

/-- The row stride of B transposed (R189). -/
def strideB (ctl : Word) : Nat := bitsAt ctl.toNat 48 16

/-- Bytes of a row in a k-block. -/
def blockFoot (fa : Nat) : Nat := if fa = 7 then 68 else 64

/-- nb, the number of k-blocks (R189). -/
def blocksOf (ctl : Word) (fa fb : Nat) : Nat := bitsAt ctl.toNat 0 32 / (pairK fa fb).getD 1

/-- The checks of R190, and for `tgemm.g` of R198, after CheckPair. -/
def macroChecks (home : Nat) (gang : Bool) (ctl a b : Word) (fa fb : Nat) : Except Trap Unit :=
  let k := bitsAt ctl.toNat 0 32
  let kb := (pairK fa fb).getD 1
  if k = 0 ∨ k % kb ≠ 0 then .error (trapOf 0x64)
  else
    let n := blocksOf ctl fa fb * blockFoot fa
    let cluster : Nat → Bool := fun g => decide (g / 4 = home / 4)
    let own : Nat → Bool := fun g => if gang then decide (g = home) else cluster g
    let ra := macroRows a (strideA ctl)
    let rb := macroRows b (strideB ctl)
    match lowest (ra.filterMap (fun r => outsideOf home cluster r n) ++ rb.filterMap (fun r => outsideOf home own r n)) with
    | some e => .error (trapAt 0x62 e)
    | none =>
      match lowest (ra.filter (fun r => decide (r % elemSize fa ≠ 0)) ++ rb.filter (fun r => decide (r % elemSize fb ≠ 0))) with
      | some e => .error (trapAt 0x21 e)
      | none => .ok ()

/-- The bytes of a row in one k-block, from the scratchpad that holds them: one access for each line (R152, R190). -/
def State.macroBytes (s : State) (a n : Nat) : Except Trap (List Byte × State) :=
  match windowOf s.cur.core a n (fun _ => true) (fun _ => true) with
  | .spad g off =>
    let ps := piecesOf [(spadPlace (s.cred s.cur) a g off, n)]
    match s.admitsAll ps .read with
    | .error e => .error e
    | .ok _ => s.loadAll ps true engineHints
  | _ => .ok ([], s)

/-- The bytes of an operand's rows in one k-block, in ascending order. -/
def State.macroRead (s : State) (rows : List Nat) (n : Nat) : Except Trap (List (List Byte) × State) :=
  match rows with
  | [] => .ok ([], s)
  | r :: rest =>
    match s.macroBytes r n with
    | .error e => .error e
    | .ok a =>
      match a.2.macroRead rest n with
      | .error e => .error e
      | .ok b => .ok (a.1 :: b.1, b.2)

/-- The operands of a multiply of many k-blocks (R189). -/
structure MacroParams where
  ctl : Word
  a   : Word
  b   : Word
  fa  : Nat
  fb  : Nat
  q   : Nat
  rm  : Nat
  deriving DecidableEq, Repr

/-- The rows of A and of B in the k-block that TSTEP names, in that order (R190). -/
def State.kread (s : State) (m : MacroParams) : Except Trap (List (List Byte) × State) :=
  let foot := blockFoot m.fa
  let at_ : Nat → Nat := fun r => r + foot * s.me.tstep.toNat
  s.macroRead ((macroRows m.a (strideA m.ctl) ++ macroRows m.b (strideB m.ctl)).map at_) foot

/-- The eight tiles of a k-block: `t0` to `t3` of A's rows, `t4` to `t7` of B's (R190). -/
def MacroParams.tiles (m : MacroParams) (rows : List (List Byte)) : List Tile :=
  (List.range 8).map (fun i => tileOfRows (if i < 4 then m.fa else m.fb) ((rows.drop (16 * i)).take 16))

/-- The sums of a k-block: all cells of the accumulator space, with the products of its tiles (R187, R190). Its sixteen multiplies report one
trap, as one block of cells (`mulTrap`): the earliest cause in the order of R81, at the lowest cell of the whole space that raises it
(DESIGN CHOICE, assumption 113). -/
def MacroParams.sums (m : MacroParams) (c : TileCtx) (step : Nat) (ts : List Tile) : List (Nat × Arith Val × Nat) :=
  let kb := (pairK m.fa m.fb).getD 1
  let vals : List Tile → Nat → List (List Val) := fun ts f =>
    (ts.map (fun t => (List.range 16).map (fun i => rowVals t i f kb))).flatten
  mulBlock { fa := m.fa, fb := m.fb, q := m.q, rm := m.rm, off := step * kb } c 64 0 0 (vals (ts.take 4) m.fa) (vals (ts.drop 4) m.fb)

/-- The trap that a k-block raises in a strand (R191). -/
def State.kfails (s : State) (m : MacroParams) (rs : List (Nat × Arith Val × Nat)) : Option Trap :=
  mulTrap { fa := m.fa, fb := m.fb, q := m.q, rm := m.rm, off := s.me.tstep.toNat * (pairK m.fa m.fb).getD 1 } s.me.nte s.me.tcoord rs

/-- A k-block's results become architectural: its tiles, its sums and its flags, and TSTEP counts it (R190). -/
def State.kcommit (s : State) (c : TileCtx) (m : MacroParams) (ts : List Tile) (rs : List (Nat × Arith Val × Nat)) : State :=
  let c := (List.range 8).foldl (fun c i => c.putTile i (ts.getD i Tile.zero)) c
  ((s.setTile (c.putSums m.q rs)).accrue (sumFlags rs)).modMe (fun t =>
    { t with tstep := BitVec.ofNat 64 ((t.tstep.toNat + 1) % 2 ^ 32), got := [] })

/-- One k-block of the executing strand (R190): the tiles are loaded, the sixteen multiplies added, the flags accrued, and TSTEP
counts the block. An arithmetic trap leaves everything as it was (R191). -/
def State.kblock (s : State) (c : TileCtx) (m : MacroParams) : Run :=
  match s.kread m with
  | .error e => .error e
  | .ok r =>
    let ts := m.tiles r.1
    let rs := m.sums c s.me.tstep.toNat ts
    match s.kfails m rs with
    | some e => .error e
    | none => .ok (r.2.kcommit c m ts rs)

/-- The completed k-blocks are all there are. -/
def Strand.macroDone (t : Strand) (ctl : Word) (fa fb : Nat) : Bool := decide (blocksOf ctl fa fb ≤ t.tstep.toNat)

/-! ## The engine queue (R192-R194) -/

/-- The work of an instruction that takes one turn, for the executing strand. -/
def State.tileDo (s : State) (c : TileCtx) (op : TileOp) : Run :=
  let run : Run :=
    match op with
    | .tld t base stride rows f => s.doTld c t base stride rows f
    | .tst t base stride rows f => s.doTst c t base stride rows f
    | .acld x y base stride rows f q rm => s.doAcld c x.toNat y.toNat base stride rows f q rm
    | .acst x y base stride rows f rm ovf => s.doAcst c x.toNat y.toNat base stride rows f rm ovf
    | .tmma a b x y fa fb q rm => s.doTmma c a b x.toNat y.toNat fa fb q rm
    | .tzero t => .ok (s.setTile (c.putTile t.toNat { c.tile t.toNat with bytes := 0, side := 0 }))
    | .aczero x y => .ok (s.setTile (c.putCells ((accCells x.toNat y.toNat).map (fun k => (k.1, cellZero)))))
    | .acmov r k x y => .ok (s.setTile (c.acmov r.toNat k.toNat x.toNat y.toNat))
    | .tgemm _ ctl a b fa fb q rm => s.kblock c { ctl := ctl, a := a, b := b, fa := fa, fb := fb, q := q, rm := rm }
  match run with
  | .error e => .error (e.onEngine c.engine)
  | .ok s => .ok s

/-- The engine has neither a turn nor a waiting entry. -/
def Engine.idle (e : Engine) : Bool := e.running.isNone && e.queue.isEmpty

/-- Occupancy of the queue (R177). -/
def Engine.occupancy (e : Engine) : Nat := e.queue.length + e.running.toList.length

/-- A turn of a strand begins at an engine. -/
def State.beganTurn (s : State) (engine : Nat) (sid : StrandId) : State :=
  s.modEngine engine (fun e => { e with last := StrandId.tid sid })

/-- The entry of the executing strand's next instruction (R193). -/
def State.entryNow (s : State) : EngineEntry :=
  { who := s.cur, prio := s.me.epri, base := s.me.epri, since := s.clk.cycles }

/-- The executing strand's instruction enters its engine's queue, or waits to issue while that is full (R192). -/
def State.enqueue (s : State) (c : TileCtx) (op : TileOp) : State :=
  if 32 ≤ (s.engine c.engine).occupancy then s
  else (s.modEngine c.engine (fun e => { e with queue := e.queue ++ [s.entryNow] })).setTile { c with op := some op }

/-- The executing strand's turn begins at a free engine, which its instruction holds from then on (R192, R193); `ran`: it has run a
k-block already. -/
def State.takeEngine (s : State) (engine : Nat) (op : TileOp) (ran : Bool) : State :=
  ((s.modEngine engine (fun e => { e with running := some { s.entryNow with ran := ran } })).beganTurn engine s.cur).modMe (fun q =>
    { q with tile := q.tile.map (fun c => { c with op := some op }) })

/-- A tile instruction of one turn issues: it runs when the engine is free, and else enters the queue (R180, R192). Its accesses wait
for the fences that hold their bytes. Where they may be made in several steps, it takes the engine, and its turn makes them. -/
def State.submit (s : State) (ranges : List (Nat × Nat)) (c : TileCtx) (op : TileOp) : Run :=
  s.unlessHeld ranges
    (if !(s.engine c.engine).idle then .ok (s.enqueue c op)
    else if s.cut.isSome then .ok (s.takeEngine c.engine op false)
    else
      match s.tileDo c op with
      | .error e => .error e
      | .ok t => .ok (t.beganTurn c.engine t.cur).retire)

/-- The checks in front of a tile instruction, in the order of R200, and the context it works on: cause 0x60 precedes 0x09 (R175). -/
def State.checkTile (s : State) (a : Accepts) : Except Trap TileCtx :=
  if !s.me.chainOk a then .error (trapOf 0x07)
  else
    match s.me.tile with
    | none => .error (trapOf 0x60)
    | some c => if s.me.pp && fmtBad s.me.fmtp.toNat then .error (trapOf 0x09) else .ok c

/-- A word of a tile instruction executes (R175, R200). -/
def tileWord (a : Accepts) (work : State → TileCtx → Run) (s : State) : Host.Outcome State Fault Refusal :=
  finish s (match s.checkTile a with | .error e => .error e | .ok c => work s c)

/-- The address ranges of rows. -/
def rowRanges (base stride : Word) (rows foot : Nat) : List (Nat × Nat) :=
  (List.range rows).map (fun i => (rowAddr base stride i, rowAddr base stride i + foot))

/-! ## Meanings -/

/-- R181-R183: `tld`. -/
def execTld (t : TReg) (b st : IntReg) (n : BitVec 4) (s : State) : Host.Outcome State Fault Refusal :=
  tileWord { fmt := true } (fun s c =>
    let f := s.me.afmt 0
    let rows := n.toNat + 1
    if f = 9 then .error (trapOf 0x61)
    else s.submit (rowRanges (s.x b) (s.x st) rows (tileFoot f)) c (.tld t (s.x b) (s.x st) rows f)) s

/-- R181, R182, R184: `tst`. -/
def execTst (t : TReg) (b st : IntReg) (n : BitVec 4) (s : State) : Host.Outcome State Fault Refusal :=
  tileWord { fmt := true } (fun s c =>
    let f := s.me.afmt (c.tile t.toNat).tag.toNat
    let rows := n.toNat + 1
    if f = 9 then .error (trapOf 0x61)
    else s.submit (rowRanges (s.x b) (s.x st) rows (tileFoot f)) c (.tst t (s.x b) (s.x st) rows f)) s

/-- R181-R183: `acld`. -/
def execAcld (x y : BitVec 3) (b st : IntReg) (n : BitVec 4) (s : State) : Host.Outcome State Fault Refusal :=
  tileWord { fmt := true } (fun s c =>
    let f := s.me.ofmt 15
    let rows := n.toNat + 1
    if f = 7 ∨ f = 9 then .error (trapOf 0x61)
    else s.submit (rowRanges (s.x b) (s.x st) rows (accFoot f)) c (.acld x y (s.x b) (s.x st) rows f s.me.q s.me.mode)) s

/-- R181, R182, R184: `acst`. -/
def execAcst (x y : BitVec 3) (b st : IntReg) (n : BitVec 4) (s : State) : Host.Outcome State Fault Refusal :=
  tileWord { fmt := true } (fun s c =>
    let f := s.me.ofmt 15
    let rows := n.toNat + 1
    if f = 7 ∨ f = 9 then .error (trapOf 0x61)
    else s.submit (rowRanges (s.x b) (s.x st) rows (accFoot f)) c (.acst x y (s.x b) (s.x st) rows f s.me.mode s.me.ovf)) s

/-- R186-R188: `tmma`. -/
def execTmma (a b : TReg) (x y : BitVec 3) (s : State) : Host.Outcome State Fault Refusal :=
  tileWord { fmt := true } (fun s c =>
    let fa := s.me.afmt (c.tile a.toNat).tag.toNat
    let fb := s.me.bfmt (c.tile b.toNat).tag.toNat
    match checkPair fa fb (s.me.ofmt 15) with
    | .error e => .error e
    | .ok _ => s.submit [] c (.tmma a b x y fa fb s.me.q s.me.mode)) s

/-- R185: `tzero`. -/
def execTzero (t : TReg) (s : State) : Host.Outcome State Fault Refusal :=
  tileWord plain (fun s c => s.submit [] c (.tzero t)) s

/-- R185: `aczero`. -/
def execAczero (x y : BitVec 3) (s : State) : Host.Outcome State Fault Refusal :=
  tileWord plain (fun s c => s.submit [] c (.aczero x y)) s

/-- R185: `acmov`. -/
def execAcmov (r c x y : BitVec 3) (s : State) : Host.Outcome State Fault Refusal :=
  tileWord plain (fun s t => s.submit [] t (.acmov r c x y)) s

/-- The operand bytes that the k-blocks from TSTEP on still read. -/
def macroRanges (step : Nat) (ctl a b : Word) (fa fb : Nat) : List (Nat × Nat) :=
  if step < blocksOf ctl fa fb then
    (macroRows a (strideA ctl) ++ macroRows b (strideB ctl)).map (fun r =>
      (r + step * blockFoot fa, r + blocksOf ctl fa fb * blockFoot fa))
  else []

/-- The executing strand's `tgemm` retires, and TSTEP is cleared (R190). -/
def State.macroRetire (s : State) : State := (s.modMe (fun t => { t with tstep := 0 })).retire

/-- `tgemm` starts (R190): it retires at once where no k-block is left, runs its first k-block where the engine is free, and else
waits for its turn. -/
def State.macroStart (s : State) (c : TileCtx) (ctl a b : Word) (fa fb q rm : Nat) : Run :=
  let op : TileOp := .tgemm false ctl a b fa fb q rm
  if s.me.macroDone ctl fa fb then .ok s.macroRetire
  else if !(s.engine c.engine).idle then .ok (s.enqueue c op)
  else if s.cut.isSome then .ok (s.takeEngine c.engine op false)
  else
    match s.tileDo c op with
    | .error e => .error e
    | .ok t => .ok (if t.me.macroDone ctl fa fb then (t.beganTurn c.engine t.cur).macroRetire else t.takeEngine c.engine op true)

/-- R189-R191: `tgemm`. -/
def execTgemm (d a b : IntReg) (s : State) : Host.Outcome State Fault Refusal :=
  tileWord { fmt := true } (fun s c =>
    let fa := s.me.afmt 0
    let fb := s.me.bfmt 0
    match checkPair fa fb (s.me.ofmt 15) with
    | .error e => .error e
    | .ok _ =>
      match macroChecks s.cur.core false (s.x d) (s.x a) (s.x b) fa fb with
      | .error e => .error e
      | .ok _ =>
        s.unlessHeld (macroRanges s.me.tstep.toNat (s.x d) (s.x a) (s.x b) fa fb)
          (s.macroStart c (s.x d) (s.x a) (s.x b) fa fb s.me.q s.me.mode)) s

/-! ## Gangs (R197-R199) -/

/-- The four strands of the gang of a strand, itself first. -/
def State.gangOf (s : State) (sid : StrandId) : List StrandId :=
  match (s.strand sid).tile with
  | none => [sid]
  | some t => sid :: t.gang.getD []

/-- The gang `tgemm.g` that a strand waits in or runs. -/
def State.gangOp (s : State) (sid : StrandId) : Option TileOp :=
  match (s.strand sid).tile with
  | none => none
  | some t => if t.op.any TileOp.ganged then t.op else none

/-- Two partners' operands agree (R198): X(A), X(D), formats and TSTEP. -/
def State.gangAgrees (s : State) (p q : StrandId) : Bool :=
  match s.gangOp p, s.gangOp q with
  | some (.tgemm _ ctl a _ fa fb _ _), some (.tgemm _ ctl' a' _ fa' fb' _ _) =>
    ctl == ctl' && a == a' && fa == fa' && fb == fb' && (s.strand p).tstep == (s.strand q).tstep
  | _, _ => false

/-- A strand leaves its gang. -/
def State.leaveGang (s : State) (sid : StrandId) : State :=
  s.modStrand sid (fun q => { q with tile := q.tile.map (fun c => { c with gang := none, broken := false }) })

/-- Work done on behalf of another strand than the executing one. -/
def State.asStrand (s : State) (sid : StrandId) (f : State → State) : State :=
  { f { s with cur := sid } with cur := s.cur }

/-- A partner's trap at its `tgemm.g`. -/
def State.gangTrap (s : State) (e : Trap) (sid : StrandId) : State := (s.dropOp sid).asStrand sid (fun s => s.raise sid e)

/-- Every partner has its `tgemm.g` retire, and the gang ends (R198). -/
def State.gangRetire (s : State) (sids : List StrandId) : State :=
  sids.foldl (fun s p => ((s.dropOp p).leaveGang p).asStrand p State.macroRetire) s

/-- The tile context and the operands of a partner's `tgemm.g`. X(A) given through the self window names each partner's own scratchpad
(DESIGN CHOICE, assumption 109). -/
def State.gangMacro (s : State) (p : StrandId) : Option (TileCtx × MacroParams) :=
  match (s.strand p).tile, s.gangOp p with
  | some c, some (.tgemm _ ctl a b fa fb q rm) => some (c, { ctl := ctl, a := a, b := b, fa := fa, fb := fb, q := q, rm := rm })
  | _, _ => none

/-- What a partner's k-block would make: its operands, its tiles and its sums. -/
structure GangPart where
  who  : StrandId
  ctx  : TileCtx
  args : MacroParams
  ts   : List Tile
  rs   : List (Nat × Arith Val × Nat)

/-- The partners read their rows of the k-block, and form its sums (R198); or a partner's access fails, or is left to be made. -/
def State.gangRead (s : State) (sids : List StrandId) : Except (StrandId × Trap) (List GangPart × State) :=
  match sids with
  | [] => .ok ([], s)
  | p :: rest =>
    match s.gangMacro p with
    | none => s.gangRead rest
    | some (c, m) =>
      match ({ s with cur := p, replay := (s.strand p).got }).kread m with
      | .error e => .error (p, e)
      | .ok r =>
        match ({ r.2 with cur := s.cur, replay := [] }).gangRead rest with
        | .error e => .error e
        | .ok q =>
          let ts := m.tiles r.1
          .ok ({ who := p, ctx := c, args := m, ts := ts, rs := m.sums c (s.strand p).tstep.toNat ts } :: q.1, q.2)

/-- The trap of a partner's k-block. -/
def State.gangFails (s : State) (g : GangPart) : Option (StrandId × Trap) :=
  (({ s with cur := g.who }).kfails g.args g.rs).map (fun e => (g.who, e))

/-- A partner's k-block becomes architectural. -/
def State.gangCommit (s : State) (g : GangPart) : State := s.asStrand g.who (fun s => s.kcommit g.ctx g.args g.ts g.rs)

/-- A trap in a k-block stops all four partners at its start: the strands that raised one trap, and the others wait with their engines
released (R199). -/
def State.gangStop (s : State) (sids : List StrandId) (es : List (StrandId × Trap)) : State :=
  es.foldl (fun s e => ((s.leaveEngine e.1).beforeTrap e.1 e.2).gangTrap e.2 e.1)
    (sids.foldl (fun s p => s.modStrand p (fun t => { t with got := [] })) s)

/-- The partners run one k-block in lockstep (R198, R199). -/
def State.gangStep (s : State) (sids : List StrandId) : State :=
  match s.gangRead sids with
  | .error (p, e) =>
    match e.resume with
    | some t => { t with cur := s.cur }
    | none => if e.stall then s else s.gangStop sids [(p, e)]
  | .ok (gs, t) =>
    match gs.filterMap t.gangFails with
    | [] => gs.foldl State.gangCommit t
    | es => s.gangStop sids es

/-- No k-block is left for a strand's `tgemm.g`. -/
def State.gangDone (s : State) (sid : StrandId) : Bool :=
  match s.gangOp sid with
  | some (.tgemm _ ctl _ _ fa fb _ _) => (s.strand sid).macroDone ctl fa fb
  | _ => false

/-- The engine of a strand's tile context. -/
def State.engineOf (s : State) (sid : StrandId) : Nat := match (s.strand sid).tile with | some t => t.engine | none => 0

/-- Every partner is at its `tgemm.g`, and every engine of the gang is free for it. -/
def State.gangReady (s : State) (sids : List StrandId) : Bool :=
  sids.all (fun p => (s.gangOp p).isSome && (s.engine (s.engineOf p)).running.isNone)

/-- The four engines grant the gang: the partners' entries become the running ones (R198, R199). -/
def State.gangGrant (s : State) (sids : List StrandId) : State :=
  sids.foldl (fun s p =>
    (s.modEngine (s.engineOf p) (fun e =>
      { e with running := e.queue.find? (fun q => q.who == p), queue := e.queue.filter (fun q => q.who != p) })).beganTurn
        (s.engineOf p) p) s

/-- A strand's multiply has run a k-block in its turn if TSTEP is not what it was: the boundary is still to be met (R190). -/
def State.ranSince (s before : State) (engine : Nat) (sid : StrandId) : State :=
  if (s.strand sid).tstep = (before.strand sid).tstep then s
  else s.modEngine engine (fun e => { e with running := e.running.map (fun q => { q with ran := true }), last := StrandId.tid sid })

/-- The partners of a gang run a k-block, each engine in its turn (R198). -/
def State.gangTurn (s : State) (sids : List StrandId) : State :=
  sids.foldl (fun t p => t.ranSince s (s.engineOf p) p) (s.gangStep sids)

/-- The last partner reaches `tgemm.g` (R198): operands that differ trap all four; engines that hold nothing else start at once. -/
def State.gangArrive (s : State) : State :=
  let sids := s.gangOf s.cur
  if !sids.all (fun p => (s.gangOp p).isSome) then s
  else if !sids.all (s.gangAgrees s.cur) then sids.foldl (fun s p => (s.leaveGang p).gangTrap (trapOf 0x65) p) s
  else if sids.all (s.gangDone) then s.gangRetire sids
  else if s.gangReady sids && sids.all (fun p => decide ((s.engine (s.engineOf p)).queue.length = 1)) then
    let g := s.gangGrant sids
    if s.cut.isSome then g
    else
      let t := g.gangTurn sids
      if sids.all t.gangDone then t.gangRetire sids else t
  else s

/-- R198, R199: `tgemm.g`. A strand that traps 0x67 leaves its gang. -/
def execTgemmG (d a b : IntReg) (s : State) : Host.Outcome State Fault Refusal :=
  tileWord { fmt := true } (fun s c =>
    if c.gang.isNone then .error (trapOf 0x66)
    else if c.broken then .ok ((s.leaveGang s.cur).raise s.cur (trapOf 0x67))
    else
      let fa := s.me.afmt 0
      let fb := s.me.bfmt 0
      match checkPair fa fb (s.me.ofmt 15) with
      | .error e => .error e
      | .ok _ =>
        match macroChecks s.cur.core true (s.x d) (s.x a) (s.x b) fa fb with
        | .error e => .error e
        | .ok _ =>
          s.unlessHeld (macroRanges s.me.tstep.toNat (s.x d) (s.x a) (s.x b) fa fb)
            (let t := s.enqueue c (.tgemm true (s.x d) (s.x a) (s.x b) fa fb s.me.q s.me.mode)
             .ok (if (t.gangOp t.cur).isSome then t.gangArrive else t))) s

/-- The strands that complete a round at a wired barrier (R197): the first arrival of each of the cluster's four cores. -/
def gangRound (cores : List Nat) (waiting : List StrandId) : Option (List StrandId) :=
  let firsts := cores.filterMap (fun c => waiting.find? (fun w => w.core == c))
  if firsts.length = 4 then some firsts else none

/-- A strand's `gang` retires, and it is joined with the others of the round (R197). -/
def State.join (s : State) (round : List StrandId) (sid : StrandId) : State :=
  (s.modStrand sid (fun t =>
    { t with gangWait := none,
             tile := t.tile.map (fun c => { c with gang := some (round.filter (fun w => w != sid)), broken := false }) })).asStrand sid
    State.retire

/-- R197: `gang`. -/
def execGang (n : BitVec 3) (s : State) : Host.Outcome State Fault Refusal :=
  tileWord plain (fun s c =>
    if c.engine ≠ s.cur.core % 1024 ∨ c.gang.isSome then .error (trapOf 0x66)
    else
      let k := clusterOf s.cur.core
      let waiting := ((s.cluster k).gangs.get? n.toNat).getD [] ++ [s.cur]
      match gangRound (clusterCores s.cur.core) waiting with
      | none =>
        .ok ((s.modCluster k (fun q => { q with gangs := q.gangs.set n.toNat waiting })).modMe (fun t =>
          { t with gangWait := some n.toNat }))
      | some round =>
        let rest := waiting.filter (fun w => !round.contains w)
        .ok (round.foldl (fun s w => s.join round w) (s.modCluster k (fun q => { q with gangs := q.gangs.set n.toNat rest })))) s

/-! ## Binding (R176, R177) -/

/-- A tile context as binding makes it (R174). -/
def TileCtx.bound (engine : Nat) : TileCtx := { engine := engine, tiles := [], acc := [], gang := none, broken := false, op := none }

/-- R176: `tbind`. -/
def execTbind (d a : IntReg) (s : State) : Host.Outcome State Fault Refusal :=
  word plain false (fun s =>
    let e := (s.x a).toNat
    if s.me.tile.isSome then .ok (s.setX d 2).retire
    else if 767 < e ∨ e / 4 ≠ s.cur.core % 1024 / 4 then .ok (s.setX d 3).retire
    else if 6 ≤ (s.engine e).bound.length then .ok (s.setX d 1).retire
    else
      .ok (((s.modEngine e (fun k => { k with bound := insertNat k.bound s.me.uid })).modMe (fun t =>
        { t with tile := some (TileCtx.bound e), tstep := 0 })).setX d 0).retire) s

/-- R176: `tunbind`. -/
def execTunbind (d : IntReg) (s : State) : Host.Outcome State Fault Refusal :=
  word plain false (fun s =>
    if s.me.tile.isNone then .ok (s.setX d 1).retire else .ok ((s.discardTile s.cur).setX d 0).retire) s

/-- The tags of `t0`-`t7`, 4 bits each. -/
def TileCtx.tags (c : TileCtx) : Nat := (List.range 8).foldl (fun w i => w + place (4 * i) (c.tile i).tag.toNat) 0

/-- The word of `tstat` (R177). Whether younger instructions of the strand are at the engine already is open: their number is a free
value, as many as the queue has room for (assumption 37). -/
def State.tstatWord (s : State) : Nat :=
  match s.me.tile with
  | none => 0
  | some c =>
    let e := s.engine c.engine
    let pend := Nat.min (Config.tilePending s.free % 17) (32 - e.occupancy)
    1 + place 1 c.engine + place 11 e.bound.length + place 14 (Nat.min 32 (e.occupancy + pend)) + place 20 pend +
      place 25 (flag c.gang.isSome) + place 32 c.tags

/-- R177: `tstat`. -/
def execTstat (d : IntReg) (s : State) : Host.Outcome State Fault Refusal :=
  word plain false (fun s => .ok ({ s with free := s.free + 1 }.setX d (BitVec.ofNat 64 s.tstatWord)).retire) s

end Sys2Proof.Machine
end

