-- ==== Sys2Proof/Machine/EvEngine.lean ====
section
/-! DEFINITION. Events of the matrix engines: a turn starts, an entry ages, a k-block ends, an instruction completes (R180,
R190-R194, R198, R199). -/

namespace Sys2Proof.Machine

/-- Work of an engine for a strand: what it read before is given to it again, accesses that are left are made later (R152), and a trap
takes the instruction off the engine and is raised (R180). -/
def State.engineWork (s : State) (sid : StrandId) (work : State → Run) : State :=
  match work { s with cur := sid, replay := (s.strand sid).got } with
  | .ok t => { t with cur := s.cur }
  | .error e =>
    match e.resume with
    | some t => { t with cur := s.cur }
    | none => if e.stall then s else ((s.leaveEngine sid).beforeTrap sid e).asStrand sid (fun s => s.raise sid e)

/-- Where a strand stands in the round robin that begins after the strand of the last turn (R193). -/
def turnOrder (last tid : Nat) : Nat := if last < tid then tid else tid + 2 ^ 32

/-- The entry precedes another: a higher priority, or the round robin among equals (R193). -/
def EngineEntry.precedes (last : Nat) (p q : EngineEntry) : Bool :=
  decide (q.prio < p.prio) || (p.prio == q.prio && decide (turnOrder last (StrandId.tid p.who) < turnOrder last (StrandId.tid q.who)))

/-- Every partner of a gang's `tgemm.g` waits in it. -/
def State.gangHere (s : State) (sid : StrandId) : Bool := (s.gangOf sid).all (fun p => (s.gangOp p).isSome)

/-- A free engine would start a partner's `tgemm.g` before any other entry (R193). Of another gang's, one of a higher priority stands before
it, and only where that gang could start. -/
def State.grants (s : State) (sid : StrandId) : Bool :=
  let e := s.engine (s.engineOf sid)
  match e.queue.find? (fun q => q.who == sid) with
  | none => false
  | some q =>
    (e.queue.filter (fun r => r.who != sid)).all (fun r =>
      if (s.gangOp r.who).isSome then decide (r.prio ≤ q.prio) || !s.gangReady (s.gangOf r.who) else q.precedes e.last r)

/-- The entry can start on its engine (R193, R198, R199): a `tgemm.g` needs every partner waiting, and all four engines free and granting
it. -/
def State.entryReady (s : State) (q : EngineEntry) : Bool :=
  if (s.gangOp q.who).isSome then s.gangReady (s.gangOf q.who) && (s.gangOf q.who).all s.grants else true

/-- The entry that a free engine starts (R193). -/
def State.nextEntry (s : State) (engine : Nat) : Option EngineEntry :=
  let e := s.engine engine
  (e.queue.filter s.entryReady).foldl (fun best q =>
    match best with
    | none => some q
    | some b => if q.precedes e.last b then some q else some b) none

/-- R193: a free engine starts its next entry; a gang's `tgemm.g` starts on its four engines together (R198). -/
def execEngineTurnStart (engine : Nat) (s : State) : Host.Outcome State Fault Refusal :=
  if (s.engine engine).running.isSome || s.swapStops engine then .next s
  else
    match s.nextEntry engine with
    | none => .next s
    | some q =>
      if (s.gangOp q.who).isSome then .next (s.gangGrant (s.gangOf q.who))
      else
        .next ((s.modEngine engine (fun e =>
          { e with running := some q, queue := e.queue.filter (fun r => r.who != q.who) })).beganTurn engine q.who)

/-- The entry one priority higher. -/
def EngineEntry.aged (q : EngineEntry) : EngineEntry := { q with prio := q.prio + 1, since := q.since + engineCycles 512 }

/-- R193: an entry that has waited 512 engine cycles rises by one, up to 3. -/
def execEngineEntryAgeing (engine index : Nat) (s : State) : Host.Outcome State Fault Refusal :=
  match (s.engine engine).queue[index]? with
  | none => .next s
  | some q =>
    if q.prio < 3 ∧ q.since + engineCycles 512 ≤ s.clk.cycles then
      .next (s.modEngine engine (fun e => { e with queue := updateFirst (fun r => r.who == q.who) EngineEntry.aged e.queue }))
    else .next s

/-- A waiting entry takes the engine from a multiply at its k-block boundary (R194, R199): a `tgemm.g` one in which every partner waits. -/
def State.overtaken (s : State) (engine : Nat) : Bool :=
  match (s.engine engine).running with
  | none => false
  | some r => (s.engine engine).queue.any (fun q => decide (r.base ≤ q.prio) && ((s.gangOp q.who).isNone || s.gangHere q.who))

/-- The turn of a strand's `tgemm` goes on (R190, R191, R194). At a k-block boundary a pending interrupt stops it first; one that has no
k-block left retires, when no pause holds it; another entry may take the engine; and otherwise it runs a k-block. -/
def State.macroTurn (s : State) (engine : Nat) (q : EngineEntry) (c : TileCtx) (m : MacroParams) : State :=
  let t := s.strand q.who
  let done := t.macroDone m.ctl m.fa m.fb
  let boundary := (q.ran || done) && t.got.isEmpty
  if boundary && s.mayTake q.who then s.leaveEngine q.who
  else if done && !t.paused then (s.dropOp q.who).asStrand q.who State.macroRetire
  else if boundary && s.overtaken engine then s.requeue engine
  else if done then s
  else (s.engineWork q.who (fun s => (s.kblock c m).mapError (fun e => e.onEngine engine))).ranSince s engine q.who

/-- The turn of a gang's `tgemm.g` goes on (R198, R199): at a joint boundary a partner's interrupt stops all four. -/
def State.gangTurnOn (s : State) (sids : List StrandId) (ran : Bool) : State :=
  let done := sids.all s.gangDone
  let boundary := (ran || done) && sids.all (fun p => (s.strand p).got.isEmpty)
  let stops := if boundary then sids.filter s.mayTake else []
  if !stops.isEmpty then stops.foldl State.leaveEngine s
  else if done && !sids.any (fun p => (s.strand p).paused) then s.gangRetire sids
  else if boundary && sids.any (fun p => s.overtaken (s.engineOf p)) then sids.foldl State.releaseTurn s
  else if done then s
  else s.gangTurn sids

/-- A swap stops the turn that runs on an engine: one that has begun its reads goes on to the next boundary (R191, R267). -/
def State.swapHolds (s : State) (engine : Nat) (sids : List StrandId) : Bool :=
  s.swapStops engine && sids.all (fun p => (s.strand p).got.isEmpty)

/-- The strands in whose turn an engine runs: the partners of a gang's `tgemm.g`, or one strand. -/
def State.turnStrands (s : State) (sid : StrandId) : List StrandId := if (s.gangOp sid).isSome then s.gangOf sid else [sid]

/-- R190, R191, R194, R198, R199: the multiply that runs on an engine meets a boundary of its k-blocks, or runs the next. -/
def execKblockBoundary (engine : Nat) (s : State) : Host.Outcome State Fault Refusal :=
  match (s.engine engine).running.filter (fun q => !s.swapHolds engine (s.turnStrands q.who)) with
  | none => .next s
  | some q =>
    match (s.strand q.who).tile with
    | none => .next s
    | some c =>
      match c.op with
      | some (.tgemm false ctl a b fa fb p rm) =>
        .next (s.macroTurn engine q c { ctl := ctl, a := a, b := b, fa := fa, fb := fb, q := p, rm := rm })
      | some (.tgemm true ..) =>
        let sids := s.gangOf q.who
        if sids.all (fun p => (s.engine (s.engineOf p)).running.any (fun r => r.who == p)) then .next (s.gangTurnOn sids q.ran)
        else .next s
      | _ => .next s

/-- R180: an engine completes the instruction whose turn runs, and it retires. A paused strand's retires when the pause ends. -/
def execEngineCompletion (engine : Nat) (s : State) : Host.Outcome State Fault Refusal :=
  match (s.engine engine).running.filter (fun q => !s.swapHolds engine [q.who]) with
  | none => .next s
  | some q =>
    match (s.strand q.who).tile with
    | none => .next s
    | some c =>
      match c.op with
      | none => .next s
      | some (.tgemm ..) => .next s
      | some op =>
        if (s.strand q.who).paused then .next s
        else
          .next (s.engineWork q.who (fun s =>
            match s.tileDo c op with
            | .error e => .error e
            | .ok t => .ok (t.dropOp q.who).retire))

end Sys2Proof.Machine
end

