-- ==== Sys2Proof/Machine/EvMemory.lean ====
section
/-! DEFINITION. Events of stacked memory and the Silt slices (R324, R327, R330), and soft errors (R331, R353). -/

namespace Sys2Proof.Machine

/-! ## MEMCFG (R324, R327, R362) -/

/-- MEMCFG can be written. -/
def State.memcfgOpen (s : State) : Bool := decide (3 ≤ s.hub.phase.toNat) && decide (s.hub.phase.toNat ≤ 5)

/-- R327: a write of a RATIO field. -/
def execRatioChange (stack code : Nat) (s : State) : Host.Outcome State Fault Refusal :=
  .next (if s.memcfgOpen then s.setRatio stack code else s)

/-- R325: a write of LOCAL. -/
def execMemcfgLocal (value : BitVec 6) (s : State) : Host.Outcome State Fault Refusal :=
  .next (if s.memcfgOpen then s.setLocal value else s)

/-- R324: a write of SHWAYS. -/
def execMemcfgShways (value : BitVec 2) (s : State) : Host.Outcome State Fault Refusal :=
  .next (if s.memcfgOpen then s.setShways value else s)

/-- R327: a stack's quiesce of 2 µs ends. -/
def execRatioQuiesceEnd (stack : Nat) (s : State) : Host.Outcome State Fault Refusal :=
  match (if stack < 12 ∧ bitAt s.hub.busy.toNat stack then s.hub.ratioAt.get? stack else none) with
  | none => .next s
  | some since =>
    if since + 4800 ≤ s.clk.cycles then
      .next (s.modHub (fun h => { h with busy := putBits h.busy stack 1 0, ratioAt := h.ratioAt.erase stack }))
    else .next s

/-! ## Misses and write-backs (R327, R330) -/

/-- R330: the read of a miss returns, once its miss stands in the miss table of its slice. -/
def execSiltMissFill (line : Nat) (s : State) : Host.Outcome State Fault Refusal :=
  match (s.missTable line).find? (fun m => m.line == line) with
  | none => .next s
  | some m => .next (if s.stackBusy line then s else s.fillMiss m)

/-- R330: a line of the write-back buffer is written to DRAM. -/
def execSiltWriteback (line : Nat) (s : State) : Host.Outcome State Fault Refusal :=
  if (s.caches.wbackOf line).isSome && !s.stackBusy line then .next { s with caches := s.caches.writeOut line } else .next s

/-! ## Soft errors (R331, R353) -/

/-- The tag of a line as a number (R257). -/
def Mem.tagNumber (m : Mem) (line : Nat) : Nat :=
  match m.keys.get? line with
  | none => 0
  | some .shared => Config.sharedSlot
  | some (.ctx slot epoch) => slot + epoch * 1024

/-- A line of memory has a poison mark (R331). -/
def State.poisonMark (s : State) (line : Nat) : State := { s with mem := { s.mem with poison := insertNat s.mem.poison line } }

/-- A dirty line with an uncorrectable error is written to DRAM with a poison mark, at once or, where its stack is quiesced, from the
write-back buffer; the black box and the host are told (R327, R331). It waits while the buffer has no room for it. -/
def State.poisonLine (s : State) (line : Nat) : State :=
  if !s.wbackRoom line then s
  else
    let s := s.evictLine line
    let s := (if s.stackBusy line then s else { s with caches := s.caches.writeOut line }).poisonMark line
    (s.logEvent 0x0004 (768 + sliceOfLine s.hub.locals line) 0 (s.mem.tagNumber line) (BitVec.ofNat 64 (line * 64)) 0).tellHost 1

/-- An uncorrectable error of a line of a slice: a clean line is refetched, a dirty one is poisoned (R331). -/
def State.siltError (s : State) (line : Nat) : State :=
  if (s.caches.silt.get? line).isNone then s
  else if s.caches.lineDirty line then s.poisonLine line
  else { s with caches := { s.caches with silt := s.caches.silt.erase line } }

/-- A clean line of a core's L1 caches or its cluster's cache has an uncorrectable error: it is fetched again (R353). -/
def State.refetchLine (s : State) (core line : Nat) : State :=
  let s := s.modCore core (fun k =>
    { k with l1 := k.l1.filter (fun e => e.line != line), l1i := k.l1i.filter (fun e => e.1 != line),
             pfUseless := sat48 (k.pfUseless + (k.l1.filter (fun e => e.line == line && e.prefetched)).length) })
  s.modCluster (clusterOf core) (fun k => { k with lines := k.lines.filter (fun e => e.1 != line) })

/-- A corrected error is logged, with the tag and address of the memory line concerned, if any (R351, R352). -/
def State.correctedError (s : State) (source : Nat) (line : Option Nat) : State :=
  match line with
  | some l => s.logEvent 0x000A source 0 (s.mem.tagNumber l) (BitVec.ofNat 64 (l * 64)) 0
  | none => s.logEvent 0x000A source 0 0 0 0

/-- A word of a scratchpad has an uncorrectable error (R353). -/
def State.spadError (s : State) (core word : Nat) : State :=
  if word < Config.spadBytes / 8 then { s with mem := { s.mem with badWords := insertNat s.mem.badWords (spadLoc core 0 / 8 + word) } } else s

/-- A machine check of a strand (R260): a strand that executes takes it at once, another as soon as it executes. -/
def State.strike (s : State) (sid : StrandId) (c : Cause) (eva : Nat) : State :=
  let t := s.strand sid
  if (t.st == .running || t.st == .trapped) && !t.paused && !t.chained then (s.leaveEngine sid).raise sid (trapAt c eva)
  else s.modStrand sid (fun t => { t with struck := some (c, BitVec.ofNat 64 eva) })

/-- R331, R353: a soft error strikes. An error of a scratchpad or of stacked DRAM is met by the next party that reads the line. -/
def execSoftError (site : SoftSite) (s : State) : Host.Outcome State Fault Refusal :=
  .next (match site with
    | .corrected source line => s.correctedError source line
    | .cleanLine core line => s.refetchLine core line
    | .cleanTlb core va => s.dropTlb core va
    | .sram sid => s.strike sid 0xF1 0
    | .scratchpad core word => s.spadError core word
    | .siltOnEviction line => s.siltError line
    | .siltOnHit line => s.siltError line
    | .dramOnRead line => if (s.caches.silt.get? line).isSome then s else s.poisonMark line
    | .registerFile sid again => if again then s.strike sid 0xF2 0 else s
    | .blackBoxOrFuse => (s.logEvent 0x0005 0x3FF 0xF1 0 0 0).tellHost 1)

end Sys2Proof.Machine
end

