-- ==== Sys2Proof/Machine/EvPage.lean ====
section
/-! DEFINITION. Events of translation: a walk ends, a fault is posted, an invalidation takes effect at a core and is acknowledged there
(R286, R288, R289, R291-R293). -/

namespace Sys2Proof.Machine

/-- Walkers of a cluster (R286). -/
def walkers : Nat := 16

/-- R286: a walk that one of a cluster's walkers makes ends; a leaf that it finds fills the TLBs, unless an invalidation has discarded the
walk. Later walks wait for a walker; a walk waits while its stack is quiesced (R327). -/
def execPageWalkComplete (cluster index : Nat) (s : State) : Host.Outcome State Fault Refusal :=
  match (if index < walkers then (s.cluster cluster).walks[index]? else none) with
  | none => .next s
  | some w =>
    match s.walkReads none w.asid (w.page * 4096) with
    | none => .next s
    | some u =>
      let t := u.modCluster cluster (fun k => { k with walks := k.walks.eraseIdx index })
      match (if w.discarded then .failed 0 else t.walk w.asid (w.page * 4096)) with
      | .failed _ => .next t
      | .found e ptrs => .next (t.fillTlb w.core e ptrs)

/-! ## Posting a fault (R291, R293) -/

/-- A fault on its way to its context's queue: the ASID, the requester's name, the fault, and REQ and RTYPE of its entry. -/
structure Posting where
  asid  : Nat
  name  : Nat
  fault : PagerFault
  req   : Nat
  rtype : Nat
  deriving DecidableEq, Repr

/-- The fault with which a strand waits and that is not posted, as one of a tid value in an ASID; an engine is named by the core whose home
engine it is (R10). -/
def Strand.posting (tid : Nat) (asid engine : Option Nat) (t : Strand) : Option Posting :=
  match t.wait, asid with
  | some (.pager f e), some a =>
    if f.posted || e != engine then none
    else some { asid := a, name := t.uid, fault := f, req := (e.map (fun k => (tid / 8192 * 1024 + k) * 8)).getD tid, rtype := flag e.isSome }
  | _, _ => none

/-- The postings of the strands that a tid value has named: the hardware strand's, and those of the strands saved from it (R291). -/
def State.postings (s : State) (tid : Nat) (engine : Option Nat) : List Posting :=
  ((s.strand (ofTid tid)).posting tid (s.asidOf (tid / 8)) engine).toList ++
    (s.saved.filter (fun x => x.tid == tid)).filterMap (fun x => x.strand.posting tid (some x.asid) engine) ++
    s.images.filterMap (fun im =>
      let group := (im.cores.get? (tid / 8)).bind (fun k => k.group)
      (im.strands.get? tid).bind (fun t => t.posting tid ((group.bind (fun n => s.groups.get? n)).map (·.asid)) engine))

/-- The requester waits with a fault that is not posted. -/
def State.postingOf (s : State) (who : Requester) : Option Posting :=
  match who with
  | .strand sid => (s.postings (StrandId.tid sid) none).head?
  | .engine sid engine => (s.postings (StrandId.tid sid) (some engine)).head?
  | .copy id =>
    match s.copies.get? id with
    | none => none
    | some c =>
      match c.wait, c.asid with
      | some f, some a =>
        if f.posted then none else some { asid := a, name := id, fault := f, req := c.issuer.core * 8, rtype := 2 }
      | _, _ => none

/-- Marks the waiting fault of a requester. -/
def State.markFault (s : State) (name : Nat) (mark : PagerFault → PagerFault) : State :=
  match s.copies.get? name with
  | some c => { s with copies := s.copies.set name { c with wait := c.wait.map mark } }
  | none =>
    s.modUid name (fun t =>
      match t.wait with
      | some (.pager f e) => { t with wait := some (.pager (mark f) e) }
      | _ => t)

/-- KIND of an access (R293). -/
def kindBits : Access → Nat
  | .read => 1
  | .write => 2
  | .modify => 3
  | .fetch => 4

/-- The 32 bytes of a new entry (R293). -/
def Posting.entry (p : Posting) (widx : Nat) : Nat :=
  p.fault.va + place 64 p.asid + place 80 p.fault.cause.toNat + place 88 (kindBits p.fault.kind) + place 92 p.fault.level +
    place 96 p.req + place 115 p.rtype + place 144 1 + place 160 ((widx + 1) % 2 ^ 32)

/-- An entry with a further requester merged into it (R291). -/
def mergedEntry (e : Nat) (kind : Access) : Nat :=
  let merge := bitsAt e 128 16
  let old := bitsAt e 88 3
  e + place 128 (Nat.min 0xFFFF (merge + 1) - merge) + place 88 ((old ||| kindBits kind) - old)

/-- The device's write of a word of the fault queue. -/
def State.fqWrite (s : State) (c : Context) (loc n v : Nat) : State := s.deviceBy c.cred (cellsAt loc (leBytes n v))

/-- A field of the control block (R292). -/
def State.fqField (s : State) (c : Context) (off n : Nat) : Nat := s.mem.readNat s.free c.cred (c.fqPlace + off) n

/-- The notification of a post (R293): the tag is set, or its loss is logged at most once in a millisecond. -/
def State.notifyPager (s : State) (asid : Nat) (c : Context) (source : Nat) : State :=
  let w := s.fqField c 12 4
  let ncore := bitsAt w 0 16
  if !bitAt w 22 then s
  else if s.coreExists ncore && s.asidOf ncore == some asid then s.setTag ncore (bitsAt w 16 6)
  else if c.dropLog.any (fun t => decide (s.clk.time < t + 1000000)) then s
  else
    let s := s.logEvent 0x000B source 0 c.tagWord 0 ncore
    match s.contexts.get? asid with
    | none => s
    | some k => { s with contexts := s.contexts.set asid { k with dropLog := some s.clk.time } }

/-- The posted entries that still merge: the device tracks 256 (R291). -/
def Context.merging (c : Context) : List Posted := c.posted.take 256

/-- The fault merges into a posted entry (R291). -/
def Posted.takes (f : PagerFault) (p : Posted) : Bool := p.page == f.va / 4096 && p.cause == f.cause

/-- The fault that finds the ring full is counted once (R293). -/
def State.countFull (s : State) (c : Context) (p : Posting) : State :=
  if p.fault.counted then s
  else
    ((s.fqWrite c (c.fqPlace + 4) 4 ((s.fqField c 4 4 + 1) % 2 ^ 32)).tellHost 2).markFault p.name (fun f => { f with counted := true })

/-- The fault has been posted or merged: its requester is recorded at the entry. -/
def State.recordPosted (s : State) (p : Posting) (posted : List Posted) : State :=
  match s.contexts.get? p.asid with
  | none => s
  | some c =>
    ({ s with contexts := s.contexts.set p.asid { c with posted := posted } }).markFault p.name (fun f => { f with posted := true })

/-- A fault merges into entry `i` (R291). -/
def State.mergeFault (s : State) (c : Context) (p : Posting) (i : Nat) : State :=
  let e := s.mem.readNat s.free c.cred (c.fqEntry i) 32
  let add : Posted → Posted := fun q => if q.index = i then { q with who := q.who ++ [p.name] } else q
  (s.fqWrite c (c.fqEntry i) 32 (mergedEntry e p.fault.kind)).recordPosted p (c.posted.map add)

/-- A fault posts a new entry (R293). -/
def State.postFault (s : State) (c : Context) (p : Posting) : State :=
  let widx := s.fqField c 0 4
  let i := widx % c.fqSize
  let s := s.fqWrite c (c.fqEntry i) 32 (p.entry widx)
  let s := s.fqWrite c c.fqPlace 4 ((widx + 1) % 2 ^ 32)
  let new : Posted := { index := i, page := p.fault.va / 4096, cause := p.fault.cause, who := [p.name] }
  (s.recordPosted p (c.posted ++ [new])).notifyPager p.asid c (p.req / 8 % 1024)

/-- R291, R293: the fault of a waiting requester merges into a posted entry, is posted, or waits for room in the ring. -/
def execFaultPost (who : Requester) (s : State) : Host.Outcome State Fault Refusal :=
  match s.postingOf who with
  | none => .next s
  | some p =>
    match s.contexts.get? p.asid with
    | none => .next s
    | some c =>
      let full := decide ((s.fqField c 0 4 + 2 ^ 32 - s.fqField c 8 4) % 2 ^ 32 = c.fqSize)
      let t := if full then s.countFull c p else s
      match c.merging.find? (Posted.takes p.fault) with
      | some q => .next (t.mergeFault c p q.index)
      | none => if full then .next t else .next (t.postFault c p)

/-! ## Invalidations at a core (R288, R289) -/

/-- A strand has made only part of the accesses of an instruction, under a leaf that the invalidation drops. -/
def Strand.partUnder (t : Strand) (v : Inval) : Bool := !t.got.isEmpty && t.pinned.any v.dropsLeaf

/-- At an invalidation's point a strand discards the reads of an instruction that it has made in part under a dropped leaf, and makes them
all again (R288, R289). One that has made writes goes on under the leaf, and the core waits for it (R142, R289). -/
def Strand.discardLoads (v : Inval) (t : Strand) : Strand :=
  if t.partUnder v && t.got.all (fun bs => !bs.isEmpty) then { t with got := [], word := none } else t

/-- What is dropped at a core as an invalidation takes effect there (R288, R294). -/
def State.dropAt (s : State) (v : Inval) (core : Nat) : State :=
  let s := s.modCore core (fun k =>
    { k with tlb := k.tlb.filter (fun e => !v.dropsLeaf e), shapes := k.shapes.filter (fun e => !v.dropsShape e) })
  let s := s.modCluster (clusterOf core) (fun k =>
    { k with tlb := k.tlb.filter (fun e => !v.dropsLeaf e), walkCache := k.walkCache.filter (fun w => !v.dropsPointer w),
             walks := k.walks.map (fun w => if v.dropsWalk w then { w with discarded := true } else w) })
  { s with strands := s.strands.map (fun e => if e.1 / 8 = core then (e.1, e.2.discardLoads v) else e) }

/-- What a core has to finish as an invalidation takes effect there (R289): what has been begun so far, and the copies in progress that need
its range, each with what it has left there. -/
def State.drainFrom (s : State) (v : Inval) (core : Nat) : Drain :=
  { since := s.fresh,
    copies := (s.copies.filter (fun e => e.2.issuer.core == core && (e.2.op == .publish || s.inProgress e.2 e.1) && decide (v.workLeft e.2 ≠ 0))).map
      (fun e => (e.1, v.workLeft e.2)) }

/-- R288: an invalidation takes effect at a core. -/
def execInvalidationPoint (inv core : Nat) (s : State) : Host.Outcome State Fault Refusal :=
  match s.invals.get? inv with
  | none => .next s
  | some v =>
    if !v.pending.contains core then .next s
    else
      let v' : Inval := { v with pending := removeNat v.pending core, draining := v.draining.set core (s.drainFrom v core) }
      .next { (s.dropAt v core) with invals := s.invals.set inv v', fresh := s.fresh + 1 }

/-- The copy has met the range anew since its core's point: it has made an access there under the tables as they are, waits at a fault, or
has ended (R288, R384). -/
def State.copyMet (s : State) (v : Inval) (e : Nat × Nat) : Bool :=
  match s.copies.get? e.1 with
  | none => true
  | some c => c.error.isSome || c.wait.isSome || decide (v.workLeft c < e.2)

/-- What a core has still to finish before it acknowledges (R289, R384): buffered stores and parts of instructions under a leaf that was
dropped, begun before the point; walks that were discarded; and copies. -/
def State.undrained (s : State) (v : Inval) (core : Nat) (d : Drain) : Bool :=
  (s.core core).buffer.any (fun b => b.leaf.any v.dropsLeaf && decide (b.born ≤ d.since)) ||
    (s.cluster (clusterOf core)).walks.any (fun w => w.discarded && w.core == core && v.dropsWalk w) ||
    (List.range 6).any (fun n =>
      let t := s.strand { core := core, num := n }
      t.partUnder v && decide (t.bornAt ≤ d.since)) ||
    d.copies.any (fun e => !s.copyMet v e)

/-- R289: a core acknowledges an invalidation once every access under a dropped entry has drained. The last acknowledgement ends it. -/
def execInvalidationAck (inv core : Nat) (s : State) : Host.Outcome State Fault Refusal :=
  match s.invals.get? inv with
  | none => .next s
  | some v =>
    match v.draining.get? core with
    | none => .next s
    | some d =>
      if s.undrained v core d then .next s
      else
        let v' : Inval := { v with draining := v.draining.erase core }
        .next { s with invals := if v'.pending.isEmpty && v'.draining.isEmpty then s.invals.erase inv else s.invals.set inv v' }

end Sys2Proof.Machine
end

