-- ==== Sys2Proof/Machine/Kernel.lean ====
section
/-! DEFINITION. Kernel commands, and the loading, translation, installation, references and withdrawal of kernels (R309-R318). -/

namespace Sys2Proof.Machine

/-! ## The image (R309) -/

/-- A field of the image's header. -/
def headerField (image : List Byte) (lo n : Nat) : Nat := bitsAt (leNat (image.take 64)) lo n

/-- CODELEN. -/
def codeSection (image : List Byte) : Nat := headerField image 64 32
/-- DATALEN. -/
def dataSection (image : List Byte) : Nat := headerField image 96 32
/-- NENTRY. -/
def entryCount (image : List Byte) : Nat := headerField image 40 9
/-- PORTABLE. -/
def portableImage (image : List Byte) : Bool := headerField image 38 1 == 1

/-- Entry `i` of the image's table. -/
def tableEntry (image : List Byte) (i : Nat) : Nat := leNat ((image.drop (64 + 8 * i)).take 8)

/-- An entry has a reserved bit set, or an OFFSET that is no multiple of 4 below CODELEN. -/
def entryBad (image : List Byte) (i : Nat) : Bool :=
  let e := tableEntry image i
  decide (e / 2 ^ 32 ≠ 0) || decide (e % 4 ≠ 0) || decide (codeSection image ≤ e % 2 ^ 32)

/-- The image is malformed: MAGIC, a reserved bit, a field out of range, or a length that disagrees with the header (R309, R311). -/
def imageBad (image : List Byte) : Bool :=
  let n := entryCount image
  decide (headerField image 0 32 ≠ 0x4A424F4B) || decide (headerField image 39 1 ≠ 0) || decide (headerField image 49 15 ≠ 0) ||
    decide (headerField image 153 103 ≠ 0) || decide (headerField image 384 128 ≠ 0) || decide (n = 0) || decide (256 < n) ||
    decide (codeSection image % 4096 ≠ 0) || decide (codeSection image < 4096) || decide (0x04000000 < codeSection image) ||
    decide (dataSection image % 4096 ≠ 0) || decide (65535 < headerField image 128 17) ||
    (!portableImage image && decide (headerField image 128 17 ≠ 0)) || (List.range n).any (entryBad image) ||
    ((image.take 4096).drop (64 + 8 * n)).any (fun b => b != 0) ||
    decide (image.length ≠ 4096 + codeSection image + dataSection image + 512)

/-- The code section. -/
def codeBytes (image : List Byte) : List Byte := (image.drop 4096).take (codeSection image)

/-- The data section. -/
def dataBytes (image : List Byte) : List Byte := (image.drop (4096 + codeSection image)).take (dataSection image)

/-- The 32-bit words of a byte string. -/
def wordsFrom (fuel : Nat) (bs : List Byte) : List Nat :=
  match fuel with
  | 0 => []
  | k + 1 => if bs.isEmpty then [] else leNat (bs.take 4) :: wordsFrom k (bs.drop 4)

/-- Majors that R57 defines and Gethen code may not hold (R316). -/
def majorRefused (m : Nat) : Bool := decide (0x26 ≤ m) && decide (m ≤ 0x31) && decide (m ≠ 0x2F)

/-- An `hsched` or `hmod` word, whose modifier a translation may be unable to keep (R316). -/
def modifierWord (w : Nat) : Bool := decide (w / 2 ^ 26 = 1) && (decide (bitsAt w 24 2 = 1) || decide (bitsAt w 24 2 = 2))

/-- A `himm` or `hmod` word: the word after it is no start of an instruction (R51). -/
def leadsOn (w : Nat) : Bool := decide (w / 2 ^ 26 = 1) && (decide (bitsAt w 24 2 = 0) || decide (bitsAt w 24 2 = 2))

/-- Bytes of the code region that a kernel may need (R310). -/
def codeNeed (image : List Byte) : Nat := 4096 + codeSection image * (if portableImage image then 4 else 1)

/-- Bytes of the data region that a kernel needs (R310). -/
def dataNeed (image : List Byte) : Nat :=
  let v := headerField image 128 17 + 1
  dataSection image + (if portableImage image then (headerField image 145 8 + 1) * v * 144 + 16 * v else 0)

/-! ## References and withdrawal (R312-R314) -/

/-- A kernel's reference count (R313). -/
def Kernel.refs (k : Kernel) : Nat := flag k.hostRef + k.queues.length

/-- An address lies in the code region. -/
def Kernel.holds (k : Kernel) (a : Word) : Bool := decide (k.codeVa.toNat ≤ a.toNat) && decide (a.toNat < k.codeVa.toNat + k.codeLen)

/-- A strand of the kernel's context is inside its code (R314). -/
def Strand.inside (k : Kernel) (t : Strand) : Bool :=
  (t.st == .running || t.st == .trapped || t.st == .parked) && (k.holds t.pc || k.holds t.epc)

/-- The scan of R314 finds a strand inside the code: resident, in the save area, or in shadow storage. -/
def State.codeInUse (s : State) (k : Kernel) : Bool :=
  s.strands.any (fun e => decide (e.1 % 8 < 5) && s.asidOf (e.1 / 8) == some k.asid && e.2.inside k) ||
    s.saved.any (fun x => x.asid == k.asid && x.strand.inside k) ||
    s.images.any (fun im => im.strands.any (fun e =>
      (im.cores.get? (e.1 / 8)).any (fun c => c.group.any (fun n => (s.groups.get? n).any (fun g => g.asid == k.asid))) && e.2.inside k))

/-- A kernel slot that has lost a reference: with none left it is Unloading while the code is scanned, which takes no step of its own, and then
free or Withdrawn (R312, R314; assumption 110). -/
def State.unrefer (s : State) (slot : Nat) (k : Kernel) : State :=
  let s := { s with kernels := s.kernels.set slot k }
  if k.st = .resident ∧ k.refs = 0 then
    if s.codeInUse k then { s with kernels := s.kernels.set slot { k with st := .withdrawn } } else s.dropKernel slot
  else s

/-- A queue gives up its reference on a kernel (R313). -/
def State.dropQueueRef (s : State) (slot queue : Nat) : State :=
  match s.kernels.get? slot with
  | none => s
  | some k => if k.queues.contains queue then s.unrefer slot { k with queues := removeNat k.queues queue } else s

/-- A queue acquires its reference on a kernel (R304, R313). -/
def State.addQueueRef (s : State) (slot queue : Nat) : State :=
  match s.kernels.get? slot with
  | none => s
  | some k => { s with kernels := s.kernels.set slot { k with queues := insertNat k.queues queue } }

/-! ## KLOAD (R311, R312) -/

/-- The kernel that a KLOAD starts to load. -/
def kernelFrom (args : Sparse Word) (image : List Byte) : Kernel :=
  { st := .loading, asid := cmdArg args 1, image := image, codePa := cmdArg args 4, codeVa := BitVec.ofNat 64 (cmdArg args 5), codeLen := cmdArg args 6,
    dataPa := cmdArg args 7, dataVa := BitVec.ofNat 64 (cmdArg args 8), dataLen := cmdArg args 9, svn := headerField image 32 6,
    portable := portableImage image, vcores := headerField image 128 17 + 1, nchan := headerField image 145 8 + 1,
    dataSec := dataSection image, hostRef := false, queues := [], code := [], entries := [], starts := [] }

/-- The context may load kernels (R311). -/
def Context.loads (c : Context) : Bool := c.st == .built || c.st == .ready || c.st == .active

/-- R311, R312: KLOAD. Accepted, it reads the image under the context's key; later steps finish it. -/
def execKload (s : State) : Host.Outcome State Fault Refusal :=
  command 12 (fun args s =>
    match s.kernels.get? (cmdArg args 0), s.contexts.get? (cmdArg args 1) with
    | some k, _ => if k.st = .loading ∨ k.st = .verified ∨ k.st = .translated then s else s.answer 2 0 0
    | none, none => s.answer 0xFE 0 0
    | none, some c =>
      if !c.loads then s.answer 6 0 0
      else if !readable (cmdArg args 2) (cmdArg args 3) then s.answer 3 0 0
      else
        let image := s.mem.readBytes s.free c.cred (cmdArg args 2) (cmdArg args 3)
        { s with kernels := s.kernels.set (cmdArg args 0) (kernelFrom args image) }) s

/-- The words of a kernel's code section. -/
def Kernel.gethen (k : Kernel) : List Nat := wordsFrom k.image.length (codeBytes k.image)

/-- The status with which a loading kernel is refused, 0 for none (R311, R312). -/
def State.kernelRefusal (s : State) (k : Kernel) : Nat :=
  firstRefusal
    [(imageBad k.image, 3),
     (decide (k.codeLen < codeNeed k.image) || decide (k.dataLen < dataNeed k.image) || !readable k.codePa (codeNeed k.image) ||
       !readable k.dataPa (dataNeed k.image), 4),
     (decide (s.hub.nkkeys = 0) || !Config.kernelSignatureOk k.image, 7),
     (decide (k.svn < s.hub.kctr.toNat), 8),
     (k.portable && k.gethen.any (fun w => majorRefused (w / 2 ^ 26)), 9)]

/-- R312: a loading kernel passes its checks, or the command is refused and the slot is Absent again. -/
def execKernelVerify (slot : Nat) (s : State) : Host.Outcome State Fault Refusal :=
  match s.kernels.get? slot with
  | none => .next s
  | some k =>
    if k.st ≠ .loading then .next s
    else
      let r := s.kernelRefusal k
      if r = 0 then .next { s with kernels := s.kernels.set slot { k with st := .verified } }
      else .next (({ s with kernels := s.kernels.erase slot }).answer r 0 0)

/-- What the signature of a translation covers (R318). -/
def Translation.signed (t : Translation) : List Byte :=
  t.digest ++ leBytes 1 t.svn ++ (t.code.map (fun w => leBytes 4 w.toNat)).flatten ++ (t.entries.map (fun w => leBytes 8 w.toNat)).flatten ++
    (t.starts.map (leBytes 8)).flatten

/-- The translation's signature verifies under the device identity key (R318). -/
def Translation.verifies (t : Translation) : Bool := t.sig == Config.identitySign t.signed

/-- The translation, signed. -/
def Translation.sign (t : Translation) : Translation := { t with sig := Config.identitySign t.signed }

/-- A translation's tag is that of another (R318). -/
def Translation.sameTag (t u : Translation) : Bool := t.digest == u.digest && t.svn == u.svn

/-- A cached translation is used or kept: it becomes the most recently used of 256 (R318). -/
def State.cacheTranslation (s : State) (t : Translation) : State :=
  let all := s.transCache.filter (fun x => !x.sameTag t) ++ [t]
  { s with transCache := all.drop (all.length - 256) }

/-- The translation of an image that the cache holds, its signature verified (R318). -/
def State.cached (s : State) (k : Kernel) : Option Translation :=
  (s.transCache.find? (fun t => t.digest == Config.sha512 k.image && t.svn == k.svn)).filter Translation.verifies

/-- A verified portable kernel takes its translation (R312, R318). -/
def State.translated (s : State) (slot : Nat) (k : Kernel) (t : Translation) : State :=
  let k' : Kernel := { k with st := .translated, code := t.code, entries := t.entries, starts := t.starts }
  ({ s with kernels := s.kernels.set slot k' }).cacheTranslation t

/-- The native offsets at which Gethen instructions start, the first of them at `base` (R316). -/
def gethenStarts (g : List Nat) (base : Nat) : List Nat :=
  (List.range g.length).filterMap (fun i => if i ≠ 0 ∧ leadsOn (g.getD (i - 1) 0) then none else some (base + 4 * i))

/-- The words that a translation adds around the Gethen words begin and end the tasks of R320: they hold a `spawn`, a `join`, the `exit x13`
of a launched task, and the `exit` of the epilogue. -/
def taskWords (ws : List IWord) : Bool :=
  let exits := ws.filter (fun w => match decode w with | .ok (.exit _) => true | _ => false)
  ws.any (fun w => match decode w with | .ok (.spawn _ _) => true | _ => false) &&
    ws.any (fun w => match decode w with | .ok (.join _) => true | _ => false) &&
    exits.any (fun w => match decode w with | .ok (.exit a) => a == 13 | _ => false) && decide (2 ≤ exits.length)

/-- Each entry has a native offset at a word before or after the Gethen words, a prologue, and entries of different OFFSETs have different ones
(R310, R319). -/
def Kernel.entriesFit (k : Kernel) (words : List IWord) (entries : List Word) (base : Nat) : Bool :=
  decide (entries.length = entryCount k.image) &&
    entries.all (fun e => decide (4096 ≤ e.toNat) && decide (e.toNat % 4 = 0) && decide (e.toNat < 4096 + 4 * words.length) &&
      !(decide (base ≤ e.toNat) && decide (e.toNat < base + 4 * k.gethen.length))) &&
    (List.range entries.length).all (fun i => (List.range entries.length).all (fun j =>
      tableEntry k.image i == tableEntry k.image j || entries[i]? != entries[j]?))

/-- Words are a translation of a kernel's image (R310, R316, R319, R320): they fit into the region, they hold the Gethen words as these are,
from the native offset `base` on, each entry has its prologue, and the words around the Gethen words begin and end the tasks (DESIGN CHOICE,
assumption 22). -/
def Kernel.translates (k : Kernel) (words : List IWord) (entries : List Word) (base : Nat) : Bool :=
  let at_ := (base - 4096) / 4
  decide (words.length ≤ codeSection k.image) && decide (4096 ≤ base) && decide (base % 4 = 0) &&
    ((words.drop at_).take k.gethen.length).map (·.toNat) == k.gethen && k.entriesFit words entries base &&
    taskWords (words.take at_ ++ words.drop (at_ + k.gethen.length))

/-- The translation that the loader firmware makes of a kernel, signed. -/
def Kernel.translation (k : Kernel) (words : List IWord) (entries : List Word) (base : Nat) : Translation :=
  Translation.sign { digest := Config.sha512 k.image, svn := k.svn, code := words, entries := entries, starts := gethenStarts k.gethen base, sig := [] }

/-- R312, R318: a translation of a verified portable image is found in the cache or made by the loader firmware; or the firmware refuses an
image one of whose modifiers it cannot keep, with status 9. -/
def execTranslationObtained (slot : Nat) (code : Option (List IWord)) (entries : List Word) (base : Nat) (s : State) :
    Host.Outcome State Fault Refusal :=
  match s.kernels.get? slot with
  | none => .next s
  | some k =>
    if k.st ≠ .verified ∨ !k.portable then .next s
    else
      match s.cached k, code with
      | some t, _ => .next (s.translated slot k t)
      | none, none =>
        if k.gethen.any modifierWord then .next (({ s with kernels := s.kernels.erase slot }).answer 9 0 0) else .next s
      | none, some words =>
        if k.translates words entries base then .next (s.translated slot k (k.translation words entries base)) else .next s

/-- The native entry table (R310). -/
def Kernel.table (k : Kernel) : List Nat :=
  (List.range 256).map (fun i =>
    if k.portable then (k.entries.getD i 0).toNat
    else if i < entryCount k.image then 4096 + tableEntry k.image i % 2 ^ 32 else 0)

/-- The native code. -/
def Kernel.native (k : Kernel) : List Byte := if k.portable then (k.code.map (fun w => leBytes 4 w.toNat)).flatten else codeBytes k.image

/-- The frames of the kernel's native code. -/
def Kernel.frames (k : Kernel) : List Nat :=
  let lo := k.codePa + 4096
  let hi := lo + k.native.length
  (List.range (hi / 4096 + 1 - lo / 4096)).filterMap (fun i => if (lo / 4096 + i) * 4096 < hi then some (lo / 4096 + i) else none)

/-- Everything that the device writes into a kernel's regions, the mailboxes and the words of R320 apart (R310, R312). -/
def Kernel.image0 (k : Kernel) : List Host.Cell :=
  cellsAt k.codePa ((k.table.map (fun n => leBytes 8 n)).flatten) ++ cellsAt (k.codePa + 4096) k.native ++ cellsAt k.dataPa (dataBytes k.image)

/-- The zeros of a portable kernel's mailboxes and of the words of R320. -/
def Kernel.zeros (k : Kernel) : List Host.Cell :=
  if k.portable then cellsAt (k.dataPa + k.dataSec) (List.replicate (k.nchan * k.vcores * 144 + 16 * k.vcores) 0) else []

/-- The code is written and its frames are marked (R312, R317). -/
def State.install (s : State) (slot : Nat) (k : Kernel) : State :=
  let c : Cred := match s.contexts.get? k.asid with | some x => x.cred | none => Cred.shared
  let s := s.deviceBy c (k.image0 ++ k.zeros)
  let lo := k.dataPa + k.dataSec
  let hi := lo + k.nchan * k.vcores * 144
  let mark : Mark := { slot := slot, portable := k.portable }
  { s with mem := { s.mem with marks := k.frames.foldl (fun t f => t.set f mark) s.mem.marks },
           boxes := if k.portable then s.boxes.filter (fun e => !(decide (lo ≤ e.1) && decide (e.1 < hi))) else s.boxes,
           kernels := s.kernels.set slot { k with st := .resident, hostRef := true } }

/-- R312, R317, R318: a verified native kernel, or a translated one, is written and marked, and is Resident with the host's reference. -/
def execKernelInstall (slot : Nat) (s : State) : Host.Outcome State Fault Refusal :=
  match s.kernels.get? slot with
  | none => .next s
  | some k =>
    if (k.st = .verified ∧ !k.portable) ∨ k.st = .translated then .next ((s.install slot k).answer 0 0 0) else .next s

/-! ## KRELEASE, KQUERY, KPURGE (R311) -/

/-- R311: KRELEASE. -/
def execKrelease (s : State) : Host.Outcome State Fault Refusal :=
  command 13 (fun args s =>
    match s.kernels.get? (cmdArg args 0) with
    | none => s.answer 2 0 0
    | some k => if k.hostRef then (s.unrefer (cmdArg args 0) { k with hostRef := false }).answer 0 0 0 else s.answer 2 0 0) s

/-- The state code of a kernel slot (R311). -/
def kernelCode : KernelState → Nat
  | .loading => 1
  | .verified => 2
  | .translated => 3
  | .resident => 4
  | .unloading => 5
  | .withdrawn => 6

/-- R311: KQUERY. -/
def execKquery (s : State) : Host.Outcome State Fault Refusal :=
  command 14 (fun args s =>
    match s.kernels.get? (cmdArg args 0) with
    | none => s.answer 0 0 0
    | some k => s.answer 0 (kernelCode k.st) k.refs) s

/-- R311: KPURGE. -/
def execKpurge (s : State) : Host.Outcome State Fault Refusal :=
  command 15 (fun args s =>
    if (s.kernels.get? (cmdArg args 0)).any (fun k => k.st == .withdrawn) then (s.dropKernel (cmdArg args 0)).answer 0 0 0 else s.answer 2 0 0) s

end Sys2Proof.Machine
end

