-- ==== Sys2Proof/Machine/Queue.lean ====
section
/-! DEFINITION. Queue commands, control blocks, packets and their fates, and the time-triggered table's entries (R299-R308). -/

namespace Sys2Proof.Machine

/-! ## The control block (R299, R301) -/

/-- `n` bytes of a control block. -/
def State.qField (s : State) (q : Queue) (off n : Nat) : Nat := s.mem.readNat s.free (s.queueCred q) (q.block + off) n

/-- The front end's write of bytes of a control block, under the shared key (R299). -/
def State.qWrite (s : State) (q : Queue) (off n v : Nat) : State := s.deviceBy Cred.shared (cellsAt (q.block + off) (leBytes n v))

/-- LIVE. -/
def State.live (s : State) (q : Queue) : Nat := s.qField q 32 8

/-- LIVE rises (R304). -/
def State.raiseLive (s : State) (q : Queue) (n : Nat) : State := s.qWrite q 32 8 ((s.live q + n) % 2 ^ 64)

/-- A control block is refused (R299): misaligned, a reserved bit set, or SIZE above 12. -/
def blockBad (a d : Nat) : Bool :=
  decide (a % 64 ≠ 0) || !readable a 64 || decide (12 < bitsAt d 64 4) || decide (bitsAt d 68 8 ≠ 0) || decide (bitsAt d 116 12 ≠ 0) ||
    decide (bitsAt d 130 6 ≠ 0) || decide (bitsAt d 145 15 ≠ 0) || decide (bitsAt d 320 192 ≠ 0)

/-! ## Commands (R299, R300) -/

/-- The context and the group let a queue be enabled (R299). -/
def State.queueContextOk (s : State) (asid group : Nat) : Bool :=
  (s.contexts.get? asid).any (fun c => c.st == .ready || c.st == .active) && (s.groups.get? group).any (fun g => g.asid == asid)

/-- R299, R300: QENABLE. -/
def execQenable (s : State) : Host.Outcome State Fault Refusal :=
  command 8 (fun args s =>
    let a := cmdArg args 1
    let asid := cmdArg args 2
    let c : Cred := match s.contexts.get? asid with | some x => x.cred | none => Cred.shared
    let d := s.mem.readNat s.free c a 64
    let r := firstRefusal [((s.queues.get? (cmdArg args 0)).isSome, 2), (blockBad a d, 3), (!s.queueContextOk asid (cmdArg args 3), 6)]
    if r ≠ 0 then s.answer r 0 0
    else
      let q : Queue :=
        { st := .enabled, block := a, asid := asid, group := cmdArg args 3, liveva := BitVec.ofNat 64 (cmdArg args 4),
          ring := bitsAt d 76 40 * 4096, size := 2 ^ (bitsAt d 64 4 + 4) }
      (({ s with queues := s.queues.set (cmdArg args 0) q }).qWrite q 16 1 1).answer 0 0 0) s

/-- R300: QRESUME. -/
def execQresume (s : State) : Host.Outcome State Fault Refusal :=
  command 9 (fun args s =>
    match s.queues.get? (cmdArg args 0) with
    | none => s.answer 2 0 0
    | some q =>
      if q.st ≠ .halted then s.answer 2 0 0
      else (({ s with queues := s.queues.set (cmdArg args 0) { q with st := .enabled } }).qWrite q 16 2 1).answer 0 0 0) s

/-- The queue gives up every kernel reference that it holds (R300, R313). -/
def State.dropQueueRefs (s : State) (queue : Nat) : State :=
  (Sparse.keys s.kernels).foldl (fun s slot => s.dropQueueRef slot queue) s

/-- R300: QDISABLE. -/
def execQdisable (s : State) : Host.Outcome State Fault Refusal :=
  command 10 (fun args s =>
    match s.queues.get? (cmdArg args 0) with
    | none => s.answer 2 0 0
    | some q =>
      if s.live q ≠ 0 then s.answer 2 0 0
      else ((({ s with queues := s.queues.erase (cmdArg args 0) }).qWrite q 16 1 0).dropQueueRefs (cmdArg args 0)).answer 0 0 0) s

/-! ## Entries of the time-triggered table (R306) -/

/-- An entry of 16 bytes. -/
def ttEntryFrom (w : Nat) : TtEntry :=
  { offset := bitsAt w 0 32, queue := bitsAt w 32 8, maxpkt := bitsAt w 40 8, kind := BitVec.ofNat 2 (w / 2 ^ 48), skip := bitAt w 50,
    target := bitsAt w 64 19 }

/-- An entry is refused. -/
def ttEntryBad (cycle w : Nat) : Bool :=
  decide (bitsAt w 51 13 ≠ 0) || decide (bitsAt w 83 45 ≠ 0) || decide (bitsAt w 48 2 = 3) ||
    (decide (bitsAt w 48 2 = 0) && decide (bitsAt w 40 8 = 0)) || decide (cycle ≤ bitsAt w 0 32)

/-- The numbers strictly rise. -/
def rising : List Nat → Bool
  | [] => true
  | [_] => true
  | a :: b :: rest => decide (a < b) && rising (b :: rest)

/-- The first boundary after a moment (R306). -/
def ttBoundary (t0 cycle now : Nat) : Nat := if now < t0 then t0 else t0 + ((now - t0) / cycle + 1) * cycle

/-! ## The head of a queue (R302, R303) -/

/-- What stands at the head of a queue: WIDX and RIDX, the number of units, and the units. -/
structure Head where
  widx  : Nat
  ridx  : Nat
  units : Nat
  u0    : Nat
  u1    : Nat
  deriving DecidableEq, Repr

/-- Unit `u` of a ring. -/
def State.unit (s : State) (q : Queue) (u : Nat) : Nat := s.mem.readNat s.free (s.queueCred q) (q.ring + 64 * (u % q.size)) 64

/-- Units between RIDX and WIDX. -/
def Head.units_ (widx ridx : Nat) : Nat := (widx + 2 ^ 32 - ridx) % 2 ^ 32

/-- The packet at the head, where it is available (R302). -/
def State.headOf (s : State) (q : Queue) : Option Head :=
  let w := s.qField q 0 8
  let widx := w % 2 ^ 32
  let ridx := w / 2 ^ 32
  let n := Head.units_ widx ridx
  let u0 := s.unit q ridx
  let units := bitsAt u0 8 1 + 1
  if n < units then none else some { widx := widx, ridx := ridx, units := units, u0 := u0, u1 := s.unit q (ridx + 1) }

/-- TYPE. -/
def Head.type (h : Head) : Nat := bitsAt h.u0 0 8
/-- FENCE. -/
def Head.fence (h : Head) : Bool := bitAt h.u0 9
/-- KERNEL. -/
def Head.kernel (h : Head) : Nat := bitsAt h.u0 16 16
/-- OPT. -/
def Head.opt (h : Head) : Nat := bitsAt h.u0 32 4
/-- CORE of a ROOT. -/
def Head.core (h : Head) : Nat := bitsAt h.u0 64 16
/-- ANY of a ROOT. -/
def Head.any (h : Head) : Bool := bitAt h.u0 80
/-- ADDR. -/
def Head.addr (h : Head) : Nat := bitsAt h.u0 64 64
/-- VALUE. -/
def Head.value (h : Head) : Nat := bitsAt h.u0 128 64
/-- MASK. -/
def Head.mask (h : Head) : Nat := bitsAt h.u0 192 64
/-- The task record. -/
def Head.record (h : Head) : Nat := bitsAt h.u1 0 256

/-! ## Fates (R308) -/

/-- The record of a launch is malformed. -/
def Head.recordBad (h : Head) : Bool :=
  decide (bitsAt h.u1 256 256 ≠ 0) || taskRejected h.record || decide ((TaskRecord.ofNat h.record).join ≠ 0)

/-- The body breaks a rule of R304, the group's cores being known where the group is bound. Bytes 16 to 63 of unit 0 of a ROOT and of a SPREAD,
of which R304 says nothing else, are reserved and must be zero (DESIGN CHOICE, assumption 123). -/
def Head.bodyBad (h : Head) (g : Option Group) : Bool :=
  match h.type with
  | 1 =>
    decide (h.units ≠ 2) || decide (bitsAt h.u0 81 431 ≠ 0) || h.recordBad ||
      (if h.any then decide (h.core ≠ 0) else g.any (fun x => !x.cores.contains h.core))
  | 2 => decide (h.units ≠ 2) || decide (bitsAt h.u0 64 448 ≠ 0) || h.recordBad
  | 3 => decide (h.units ≠ 1) || decide (bitsAt h.u0 64 448 ≠ 0)
  | 4 => decide (h.units ≠ 1) || decide (bitsAt h.u0 256 256 ≠ 0) || decide (h.addr % 8 ≠ 0)
  | 5 => decide (h.units ≠ 1) || decide (bitsAt h.u0 192 320 ≠ 0) || decide (h.addr % 8 ≠ 0)
  | _ => false

/-- The header breaks a rule of R303. -/
def Head.headerBad (h : Head) : Bool :=
  decide (bitsAt h.u0 10 6 ≠ 0) || decide (bitsAt h.u0 36 28 ≠ 0) || (decide (3 < h.type) && decide (h.kernel ≠ 0)) ||
    decide ((if h.type = 4 ∨ h.type = 5 then h.opt / 4 else h.opt) ≠ 0)

/-- The place of an address of a packet (R281, R308): as a user-level access in the queue's context. The front end has no scratchpad of its
own, and reaches those of the queue's group. -/
def State.packetPlace (s : State) (q : Queue) (g : Group) (va : Nat) (kind : Access) : Except Cause Place :=
  match windowOf (2 ^ 40) va 8 s.coreExists (fun c => g.cores.contains c) with
  | .bad c => .error c
  | .regs _ => .error 0x2A
  | .spad core off => if core = 2 ^ 40 then .error 0x29 else .ok (spadPlace (s.queueCred q) va core off)
  | .outside =>
    if 2 ^ 48 ≤ va then .error 0x27
    else
      match s.walk q.asid va with
      | .failed _ => .error 0x20
      | .found e _ =>
        match leafFault e.leaf.toNat kind true with
        | some c => .error c
        | none => .ok (s.leafPlace (s.queueCred q) e va false)

/-- How a packet's ADDR is checked: as a SIGNAL's store even where WRITE is 0 (R308; assumption 61). -/
def Head.access (h : Head) : Option Access := if h.type = 4 then some .read else if h.type = 5 then some .write else none

/-- The walk that translates a packet's ADDR reads its lines (R328); none where one of them is held (R327). -/
def State.packetWalk (s : State) (q : Queue) (h : Head) : Option State :=
  if h.access.isNone || windowOf (2 ^ 40) h.addr 8 (fun _ => true) (fun _ => true) != .outside then some s else s.walkReads none q.asid h.addr

/-- Steps 7 and 8 of R308. -/
def State.addrFate (s : State) (q : Queue) (g : Group) (h : Head) : Option Cause :=
  match h.access with
  | none => none
  | some kind =>
    match s.packetPlace q g h.addr kind with
    | .error c => some c
    | .ok p => if p.sync && kind == .write && bitAt h.opt 0 then some 0x80 else none

/-- The packet names a kernel. -/
def Head.namesKernel (h : Head) : Bool := decide (h.type ≤ 3) && decide (h.kernel ≠ 0)

/-- Steps 4 and 5 of R308. -/
def State.kernelFate (s : State) (queue : Nat) (h : Head) : Option Cause :=
  if !h.namesKernel then none
  else
    match s.kernels.get? h.kernel with
    | none => some 0xC3
    | some k =>
      if k.st ≠ .resident then some 0xC3
      else if h.type = 3 ∧ !k.queues.contains queue then some 0xC3
      else if k.svn < s.hub.kctr.toNat then some 0xC5
      else none

/-- The group of a queue, while it is bound. -/
def State.queueGroup (s : State) (q : Queue) : Option Group := (s.groups.get? q.group).filter (fun g => g.asid == q.asid)

/-- The fate of the packet at the head of a queue (R308): the cause that halts it, none where it may be dispatched. -/
def State.fate (s : State) (queue : Nat) (q : Queue) (h : Head) : Option Cause :=
  if h.ridx % q.size = q.size - 1 ∧ h.units = 2 then some 0xC2
  else if h.type = 0 ∨ 6 < h.type then some 0xC1
  else if h.headerBad || h.bodyBad (s.queueGroup q) || decide (q.size < Head.units_ h.widx h.ridx) then some 0xC0
  else
    match s.kernelFate queue h with
    | some c => some c
    | none =>
      match s.queueGroup q with
      | none => some 0xA2
      | some g => if g.st = .releasing then some 0xA2 else s.addrFate q g h

end Sys2Proof.Machine
end

