-- ==== Sys2Proof/Machine/EvQueue.lean ====
section
/-! DEFINITION. The launch front end: its reads, the dispatch of packets, and the time-triggered table and its slots (R300, R304-R308). -/

namespace Sys2Proof.Machine

/-! ## Reads (R302, R307) -/

/-- Reads of the slot in force may begin: its end has not come, nor the boundary of a new table (R306, R307). -/
def State.slotOpen (s : State) : Bool :=
  s.ttSlot.any (fun x => decide (s.clk.time < x.stop)) && !s.ttNext.any (fun t => decide (t.start ≤ s.clk.time))

/-- The slot in force serves the queue: its end has not come, but for a read that has begun and has not found its packet waiting, the queue is
Enabled, its context is not Swapped, and packets may still be dispatched (R306, R307). -/
def State.served (s : State) (queue : Nat) : Option Queue :=
  match s.ttSlot, s.ttable with
  | some slot, some t =>
    if t.entries[slot.index]?.any (fun e => e.kind == 0 && e.queue == queue) && decide (slot.left ≠ 0) && (s.slotOpen || slot.began) then
      (s.queues.get? queue).filter (fun q =>
        q.st == .enabled && !(s.contexts.get? q.asid).any (fun c => c.st == .swapped) && !(s.queueGroup q).any (fun g => g.st == .saved))
    else none
  | _, _ => none

/-- The lines that a read of a queue's head reads (R302). -/
def State.headLines (s : State) (q : Queue) : List Nat :=
  let ridx := s.qField q 4 4
  [q.block / 64, (q.ring + 64 * (ridx % q.size)) / 64, (q.ring + 64 * ((ridx + 1) % q.size)) / 64]

/-- The lines of the front end's reads meet their slices (R328). -/
def State.frontEndTouch (s : State) (q : Queue) : State := s.siltUses (s.queueCred q) false (s.headLines q)

/-- A miss of the front end's reads, or of its writes to the control block, is held (R327). -/
def State.frontEndHeld (s : State) (q : Queue) : Bool :=
  s.anyHeld (s.queueCred q) false (s.headLines q) || s.anyHeld Cred.shared true [q.block / 64]

/-- R307, R308: the front end begins a read of the head of a queue, within the slot; a packet that fails its checks halts the queue. It
waits while a miss is held (R327). -/
def execFrontEndRead (queue : Nat) (s : State) : Host.Outcome State Fault Refusal :=
  match (if s.slotOpen then s.served queue else none) with
  | none => .next s
  | some q =>
    match (if s.frontEndHeld q then none else s.headOf q) with
    | none => .next s
    | some h =>
      match (s.frontEndTouch q).packetWalk q h with
      | none => .next s
      | some t =>
        match s.fate queue q h with
        | some c => .next (t.haltQueue queue c)
        | none => .next { t with ttSlot := s.ttSlot.map (fun x => { x with began := true }) }

/-! ## Dispatch (R304) -/

/-- The packet at the head of a served queue, passing every check. -/
def State.ready (s : State) (queue : Nat) : Option (Queue × Head × Group) :=
  match s.served queue with
  | none => none
  | some q =>
    match s.headOf q, s.queueGroup q with
    | some h, some g => if (s.fate queue q h).isNone then some (q, h, g) else none
    | _, _ => none

/-- A packet has been dispatched (R304): RIDX and DONE rise as one store, and the slot has one packet less to dispatch. -/
def State.dispatched (s : State) (q : Queue) (h : Head) : State :=
  let done := (s.qField q 28 4 + 1) % 2 ^ 32
  let s := s.deviceBy Cred.shared (cellsAt (q.block + 4) (leBytes 4 ((h.ridx + h.units) % 2 ^ 32)) ++ cellsAt (q.block + 28) (leBytes 4 done))
  { s with ttSlot := s.ttSlot.map (fun x => { x with left := x.left - 1, began := false }) }

/-- The first launch of a group makes it Active: the general strands of its cores go from Halted to Idle (R25, R227). -/
def State.activateGroup (s : State) (n : Nat) (g : Group) : State :=
  if g.st ≠ .attached then s
  else
    let s := { s with groups := s.groups.set n { g with st := .active } }
    g.cores.foldl (fun (s : State) c =>
      (List.range 4).foldl (fun (s : State) i =>
        let t : Strand := { Strand.fresh .idle s.fresh with paused := (s.core c).serving.isSome, lastFetch := s.clk.cycles }
        { (s.setStrand { core := c, num := i } t) with fresh := s.fresh + 1 }) s) s

/-- No core of the group still waits to be cleared (R228). -/
def State.groupClear (s : State) (g : Group) : Bool := g.cores.all (fun c => !(s.core c).attaching)

/-- A launch takes the queue's reference on the kernel that it names (R304, R313). -/
def State.takeRef (s : State) (queue : Nat) (h : Head) : State := if h.kernel = 0 then s else s.addQueueRef h.kernel queue

/-- The role of a launch's task: the task of a portable kernel is a launched task of `size` (R320). -/
def State.launchRole (s : State) (h : Head) (size : Nat) : TaskRole :=
  match (if h.kernel = 0 then none else s.kernels.get? h.kernel) with
  | some k => if k.portable then .launched 0 size k.vcores else .plain
  | none => .plain

/-- The record of a launch, JOIN being LIVEVA (R304). -/
def State.launched (s : State) (h : Head) (q : Queue) (size : Nat) : TaskRecord :=
  { TaskRecord.ofNat h.record with join := q.liveva, role := s.launchRole h size }

/-- The core that a ROOT goes to (R304). -/
def State.rootCore (s : State) (g : Group) (h : Head) : Nat :=
  if h.any then (g.cores.find? (fun c => (s.idleStrand c).isSome)).getD (g.cores.headD 0) else h.core

/-- A ROOT is delivered, unless its core has no Idle general strand and a full deque: then it waits (R304). -/
def State.sendRoot (s : State) (queue : Nat) (q : Queue) (h : Head) (g : Group) : Option State :=
  let t := s.activateGroup q.group g
  let core := t.rootCore g h
  let idle := t.idleStrand core
  if !s.groupClear g || (idle.isNone && decide (dequeSize ≤ (t.core core).deque.length)) then none
  else
    let t := (t.takeRef queue h).raiseLive q 1
    let t := match idle with
      | some sid => (t.wakeCore core).startIdle sid (s.launched h q 1)
      | none => (t.wakeCore core).pushBottom core (s.launched h q 1)
    some (t.dispatched q h)

/-- A SPREAD's flood starts (R235, R304). -/
def State.spreadOut (s : State) (n : Nat) (r : TaskRecord) : State :=
  match s.groups.get? n with
  | none => s
  | some g =>
    let gen := g.gen + 1
    let f : Flood := { gen := gen, record := r, pending := g.cores }
    { s with groups := s.groups.set n { g with gen := gen, spread := true, floods := g.floods ++ [f] } }

/-- A SPREAD is injected (R304). -/
def State.sendSpread (s : State) (queue : Nat) (q : Queue) (h : Head) (g : Group) : Option State :=
  if !s.groupClear g then none
  else
    let t := ((s.activateGroup q.group g).takeRef queue h).raiseLive q g.size
    some ((t.spreadOut q.group (s.launched h q g.size)).dispatched q h)

/-- An UNLOAD releases the queue's reference once LIVE is 0 (R304). -/
def State.sendUnload (s : State) (queue : Nat) (q : Queue) (h : Head) : Option State :=
  if s.live q ≠ 0 then none else some ((s.dropQueueRef h.kernel queue).dispatched q h)

/-- The comparison of a WAITVAL holds (R304). -/
def Head.holds (h : Head) (w : Nat) : Bool :=
  let a := w &&& h.mask
  let b := h.value &&& h.mask
  match h.opt % 4 with
  | 0 => decide (a = b)
  | 1 => decide (a ≠ b)
  | 2 => decide (b ≤ a)
  | _ => decide (a < b)

/-- The front end's read of the word at a packet's address: it wakes the scratchpad that holds it, or meets its slice (R43, R328). -/
def State.waitvalRead (s : State) (p : Place) : State :=
  let s := (s.wakeSpad p.loc).siltUses p.cred false p.lines
  { s with free := s.free + 1 }

/-- The packet at the head has been read, and it waits: its read is over (R307). -/
def State.foundWaiting (s : State) : State := { s with ttSlot := s.ttSlot.map (fun x => { x with began := false }) }

/-- A WAITVAL reads its word, and is dispatched where its comparison holds (R304). It waits while a miss is held (R327). -/
def State.sendWaitval (s : State) (q : Queue) (h : Head) (g : Group) : State :=
  match s.packetPlace q g h.addr .read with
  | .error _ => s.foundWaiting
  | .ok p =>
    if s.placeHeld p false then s
    else
      let t := s.waitvalRead p
      if h.holds (leNat (s.rawRead p 8)) then t.dispatched q h else t.foundWaiting

/-- A SIGNAL stores VALUE, then tells the host (R304). It waits while a miss is held (R327). -/
def State.sendSignal (s : State) (q : Queue) (h : Head) (g : Group) : State :=
  let tell : State → State := fun t => (if bitAt h.opt 1 then t.tellHost 0 else t).dispatched q h
  if !bitAt h.opt 0 then tell s
  else
    match s.packetPlace q g h.addr .write with
    | .error _ => s.foundWaiting
    | .ok p => if s.placeHeld p true then s else tell (s.rawWrite p (leBytes 8 h.value))

/-- The read of the packet at the head of a queue completes: the packet is dispatched, or is found waiting; a FENCE waits for LIVE to be 0
(R304, R307). It is not over while a miss is held (R327). -/
def State.servePacket (s : State) (queue : Nat) (q : Queue) (h : Head) (g : Group) : State :=
  if s.frontEndHeld q then s
  else if h.fence && decide (s.live q ≠ 0) then s.foundWaiting
  else
    match h.type with
    | 1 => (s.sendRoot queue q h g).getD s.foundWaiting
    | 2 => (s.sendSpread queue q h g).getD s.foundWaiting
    | 3 => (s.sendUnload queue q h).getD s.foundWaiting
    | 4 => match s.packetWalk q h with | none => s | some t => t.sendWaitval q h g
    | 5 => match s.packetWalk q h with | none => s | some t => t.sendSignal q h g
    | _ => s.dispatched q h

/-- The dispatch of a packet of a type at the head of a queue, in or begun in the queue's slot (R304, R307). -/
def State.dispatchOf (s : State) (queue type : Nat) : State :=
  match s.ready queue with
  | none => s
  | some (q, h, g) => if h.type = type then s.servePacket queue q h g else s

/-- R304: a ROOT is dispatched, unless its core has no Idle general strand and a full deque. -/
def execPacketRoot (queue : Nat) (s : State) : Host.Outcome State Fault Refusal := .next (s.dispatchOf queue 1)

/-- R304: a SPREAD is dispatched. -/
def execPacketSpread (queue : Nat) (s : State) : Host.Outcome State Fault Refusal := .next (s.dispatchOf queue 2)

/-- R304: an UNLOAD is dispatched once LIVE is 0, and releases the queue's reference. -/
def execPacketUnload (queue : Nat) (s : State) : Host.Outcome State Fault Refusal := .next (s.dispatchOf queue 3)

/-- R304: a WAITVAL is dispatched once its comparison holds. -/
def execPacketWaitval (queue : Nat) (s : State) : Host.Outcome State Fault Refusal := .next (s.dispatchOf queue 4)

/-- R304: a SIGNAL is dispatched: it stores VALUE, then tells the host. -/
def execPacketSignal (queue : Nat) (s : State) : Host.Outcome State Fault Refusal := .next (s.dispatchOf queue 5)

/-- R304: a NOP is dispatched. -/
def execPacketNop (queue : Nat) (s : State) : Host.Outcome State Fault Refusal := .next (s.dispatchOf queue 6)

/-! ## The end of a slot (R306, R307) -/

/-- Complete packets that stand from a unit on. -/
def State.pendingFrom (fuel : Nat) (s : State) (q : Queue) (u left : Nat) : Nat :=
  match fuel with
  | 0 => 0
  | k + 1 =>
    let n := bitsAt (s.unit q u) 8 1 + 1
    if left < n then 0 else State.pendingFrom k s q (u + n) (left - n) + 1

/-- Complete packets that a queue holds; none of a ring that overflows (R302). -/
def State.pendingPackets (s : State) (q : Queue) : Nat :=
  let w := s.qField q 0 8
  let n := Head.units_ (w % 2 ^ 32) (w / 2 ^ 32)
  if q.size < n then 0 else s.pendingFrom n q (w / 2 ^ 32) n

/-- What a slot's end does to its queue (R307). -/
def State.endSlotOf (s : State) (q : Queue) (skip : Bool) : State :=
  let n := s.pendingPackets q
  let s := s.qWrite q 24 4 (Nat.min 0xFFFFFFFF (s.qField q 24 4 + n))
  if skip && decide (n ≠ 0) then (s.qWrite q 18 1 1).tellHost 0 else s

/-- A read of the slot in force that has begun is completed, past the slot's end too (R307). -/
def State.completeRead (s : State) (queue : Nat) : State :=
  if s.ttSlot.any (fun x => x.began) then
    match s.ready queue with
    | none => s.foundWaiting
    | some (q, h, g) => s.servePacket queue q h g
  else s

/-- What the end of an entry's slot does, once a read that has begun is over; none while it is held (R307, R327). -/
def State.endEntry (s : State) (e : TtEntry) : Option State :=
  if e.kind ≠ 0 then some s
  else
    let t := s.completeRead e.queue
    if t.ttSlot.any (fun x => x.began) then none
    else
      some (match (t.queues.get? e.queue).filter (fun q => q.st == .enabled) with
        | none => t
        | some q => t.endSlotOf q e.skip)

/-- The slot in force ends; none while a read that has begun in it is held. -/
def State.endSlot (s : State) : Option State :=
  match s.ttSlot, s.ttable with
  | some slot, some t =>
    match t.entries[slot.index]? with
    | none => some { s with ttSlot := none }
    | some e => (s.endEntry e).map (fun s => { s with ttSlot := none })
  | _, _ => some { s with ttSlot := none }

/-- A loaded table whose boundary has come replaces the one in force; none while a slot's read is held (R306). -/
def State.switchTable (s : State) : Option State :=
  match s.ttNext with
  | none => some s
  | some t => if t.start ≤ s.clk.time then s.endSlot.map (fun s => { s with ttable := some t, ttNext := none }) else some s

/-- R306: the loaded table replaces the one in force at its boundary. -/
def execTtTableSwitch (s : State) : Host.Outcome State Fault Refusal := .next (s.switchTable.getD s)

/-- R307: a slot ends. -/
def execTtSlotEnd (s : State) : Host.Outcome State Fault Refusal :=
  match s.ttSlot with
  | none => .next s
  | some slot => .next (if slot.stop ≤ s.clk.time then s.endSlot.getD s else s)

/-- R307: an entry's offset comes due and opens its slot; an entry of the interrupt kind raises 0xE1 at its target. -/
def execTtSlotOpen (index : Nat) (s : State) : Host.Outcome State Fault Refusal :=
  match (if s.ttSlot.isNone ∧ !s.ttNext.any (fun t => decide (t.start ≤ s.clk.time)) then s.ttable else none) with
  | none => .next s
  | some t =>
    match t.entries[index]? with
    | none => .next s
    | some e =>
      let now := s.clk.time
      let phase := (now - t.start) % t.cycle
      let next := (t.entries[index + 1]?.map (·.offset)).getD t.cycle
      if t.start ≤ now ∧ e.offset ≤ phase ∧ phase < next then
        let s := { s with ttSlot := some { index := index, stop := now - phase + next, left := if e.kind = 0 then e.maxpkt else 0 } }
        .next (if e.kind = 1 then s.postIrq e.target 0xE1 else s)
      else .next s

/-- R306: TTLOAD. A table loaded before takes effect first, where its boundary has come. -/
def execTtload (s : State) : Host.Outcome State Fault Refusal :=
  command 11 (fun args s =>
    let a := cmdArg args 0
    let n := cmdArg args 1
    let cycle := cmdArg args 2
    if n = 0 ∨ 1024 < n ∨ cycle < 1000 ∨ 1000000000 < cycle ∨ !readable a (16 * n) then s.answer 3 0 0
    else
      let words := (List.range n).map (fun i => s.mem.readNat s.free Cred.shared (a + 16 * i) 16)
      if words.any (ttEntryBad cycle) || !rising (words.map (fun w => bitsAt w 0 32)) then s.answer 3 0 0
      else
        let t : TtTable := { entries := words.map ttEntryFrom, cycle := cycle, start := ttBoundary (cmdArg args 3) cycle s.clk.time }
        match s.switchTable with
        | none => s
        | some u => ({ u with ttNext := some t }).answer 0 0 0) s

end Sys2Proof.Machine
end

