-- ==== Sys2Proof/Machine/EvTrap.lean ====
section
/-! DEFINITION. Events of fetch, decode and interrupts: a word that is no instruction (R60), a fetch that fails (R111), an
interrupt taken (R27, R261). -/

namespace Sys2Proof.Machine

/-- R60: the word that is no instruction reaches retirement and traps with its fixed cause. -/
def execNonInstructionWord (cause : Cause) (s : State) : Host.Outcome State Fault Refusal :=
  finish s (.error (trapOf cause))

/-- R111: the fetch of the word at PC fails with the cause, and traps or posts with EPC naming the word's run. Where the fetch
does not fail so, nothing happens. -/
def execFetchFault (cause : Cause) (s : State) : Host.Outcome State Fault Refusal :=
  match s.fetch s.cur with
  | .error e => if e.cause = cause then finish s (.error e) else .next s
  | .ok _ => .next s

/-- R27, R261: the strand takes its lowest pending interrupt, if it may. -/
def execTakeInterrupt (sid : StrandId) (s : State) : Host.Outcome State Fault Refusal :=
  match (s.strand sid).pending, s.contextOf sid.core with
  | some c, some x =>
    if s.mayTake sid && (s.strand sid).interruptible then .next (s.interrupt sid c x.hentry) else .next s
  | _, _ => .next s

end Sys2Proof.Machine
end

