-- ==== Sys2Proof/Machine/FullEmpty.lean ====
section
/-! DEFINITION. Full/empty operations (R104-R107). -/

namespace Sys2Proof.Machine

/-- A waiting operation at its home (R104): it is served now where its condition holds, and waits behind the others where it does
not. A served operation that changes the word's bit starts a round (R105). -/
def State.waitWord (op : FeOp) (d : IntReg) (a : IntReg) (data : Word) (s : State) : Run :=
  let ea := (s.x a).toNat
  s.unlessHeld [(ea, ea + 8)]
    (match s.reachHome ea 8 with
     | .error e => .error e
     | .ok (p, s') =>
       let w : Waiter := { who := s'.cur, wait := .word op d p.loc, data := data, cred := p.cred, pair := p.pair }
       if s'.feReady w then
         let s' := if op = .ldf then s' else s'.soil (p.loc / 64)
         let r := s'.mem.feServe s'.free op p.cred p.loc (s'.wordCells p.loc data)
         let t := ({ s' with mem := r.2, free := s'.free + 1 })
         let t := if op = .ldf then t else t.roundsAt [p.loc]
         .ok (if op = .stp then t else t.setX d r.1).retire
       else ({ s' with waiters := s'.waiters ++ [w] }).parkOr68 w.wait)

/-- R104: `ldc` waits for full, reads, and makes the word empty. -/
def execLdc (d a : IntReg) (s : State) : Host.Outcome State Fault Refusal :=
  word plain false (fun s => s.waitWord .ldc d a 0) s

/-- R104: `stp` waits for empty, writes, and makes the word full. -/
def execStp (a b : IntReg) (s : State) : Host.Outcome State Fault Refusal :=
  word plain false (fun s => s.waitWord .stp 0 a (s.x b)) s

/-- R104: `ldf` waits for full and reads. -/
def execLdf (d a : IntReg) (s : State) : Host.Outcome State Fault Refusal :=
  word plain false (fun s => s.waitWord .ldf d a 0) s

/-- A full/empty operation that does not wait, at its home (R104). -/
def State.atHome (a : IntReg) (work : Place → State → State) (s : State) : Run :=
  let ea := (s.x a).toNat
  s.unlessHeld [(ea, ea + 8)]
    (match s.reachHome ea 8 with
     | .error e => .error e
     | .ok (p, s') => .ok (work p s').retire)

/-- R104: `fe.set` makes the word empty. -/
def execFeSet (a : IntReg) (s : State) : Host.Outcome State Fault Refusal :=
  word plain false (State.atHome a (fun p s => s.setFe p.cred p.loc false)) s

/-- R104: `fe.fill` makes the word full. -/
def execFeFill (a : IntReg) (s : State) : Host.Outcome State Fault Refusal :=
  word plain false (State.atHome a (fun p s => s.setFe p.cred p.loc true)) s

/-- R104: `fe.probe` writes 1 if the word is full. -/
def execFeProbe (d a : IntReg) (s : State) : Host.Outcome State Fault Refusal :=
  word plain false (State.atHome a (fun p s =>
    ({ s with free := s.free + 1 }).setX d (flagWord (s.mem.full s.free p.cred p.loc)))) s

end Sys2Proof.Machine
end

