-- ==== Sys2Proof/Machine/Hints.lean ====
section
/-! DEFINITION. Hint words (R50-R56): each acts on the word after it. -/

namespace Sys2Proof.Machine

/-- A hint word retires: the chain that it belongs to goes on (R50). -/
def Strand.pass (t : Strand) : Strand := t.goTo (t.pc + 4)

/-- A hint word executes: a second word of its kind in the chain traps 0x08, and a word in front that it does not extend traps 0x07
(R50, R61). -/
def hint (double : Strand → Bool) (misfit : Strand → Bool) (work : Strand → Strand) (s : State) : Host.Outcome State Fault Refusal :=
  finish s (if double s.me then .error (trapOf 0x08) else if misfit s.me then .error (trapOf 0x07) else .ok (s.modMe work))

/-- R52: the payload joins the immediate of the next word. -/
def execHimm (p : BitVec 24) (s : State) : Host.Outcome State Fault Refusal :=
  hint (fun t => decide (2 ≤ t.himm.length)) (fun t => t.hmod.isSome || t.pp) (fun t => { t.pass with himm := t.himm ++ [p] }) s

/-- R53: the priority nudge holds for 64 core cycles; BL and NS change timing only. A second `hsched` in one chain traps 0x08, whatever stands
between the two (R60, R61). -/
def execHsched (_ : BitVec 2) (_ : BitVec 1) (u : BitVec 2) (s : State) : Host.Outcome State Fault Refusal :=
  let until_ := s.clk.cycles + 64
  let nudge : Strand → Option (Nat × Bool) := fun t =>
    if u = 1 then some (until_, true) else if u = 2 then some (until_, false) else t.nudge
  hint (fun t => t.sched) (fun t => !t.himm.isEmpty || t.hmod.isSome || t.pp)
    (fun t => { t.pass with sched := true, nudge := nudge t }) s

/-- R54: the next load takes nothing from the store buffer. -/
def execHmodNofwd (s : State) : Host.Outcome State Fault Refusal :=
  hint (fun t => t.hmod.isSome) (fun t => !t.himm.isEmpty || t.pp) (fun t => { t.pass with hmod := some true }) s

/-- R54: the next access allocates no line in the L1 data cache. -/
def execHmodL1na (s : State) : Host.Outcome State Fault Refusal :=
  hint (fun t => t.hmod.isSome) (fun t => !t.himm.isEmpty || t.pp) (fun t => { t.pass with hmod := some false }) s

/-- FMTP's value for a prefix (R34, R55). -/
def prefixWord (a b o : BitVec 4) (r : BitVec 3) (v : BitVec 1) : Word :=
  BitVec.ofNat 64 (a.toNat * 2 ^ 20 + b.toNat * 2 ^ 16 + o.toNat * 2 ^ 12 + r.toNat * 2 + v.toNat)

/-- R55, R56: the prefix becomes pending. -/
def execFmt (a b o : BitVec 4) (r : BitVec 3) (v : BitVec 1) (s : State) : Host.Outcome State Fault Refusal :=
  hint (fun t => t.pp) (fun t => !t.himm.isEmpty || t.hmod.isSome)
    (fun t => { t.pass with fmtp := prefixWord a b o r v, ssw := putBits t.ssw 3 1 1 }) s

end Sys2Proof.Machine
end

