-- ==== Sys2Proof/Machine/Links.lean ====
section
/-! DEFINITION. Events of the Driost ports, of the host link and of the time unit (R262, R267, R275, R333-R338, R341, R394), and writes of
hub registers (R5). -/

namespace Sys2Proof.Machine

/-! ## Registers of the ports (R335, R337) -/

/-- The host link is trained and BAR0 is open (R362). -/
def State.linkOpen (s : State) : Bool := s.hub.phase == 4 || s.hub.phase == 5

/-- R335: a write of DPCTL.ENABLE. -/
def execDpctlEnable (port : Nat) (enable : Bool) (s : State) : Host.Outcome State Fault Refusal :=
  .next (if s.linkOpen then s.setEnable port enable else s)

/-- R335: a write of DPCTL.RESET. -/
def execDpctlReset (port : Nat) (s : State) : Host.Outcome State Fault Refusal := .next (if s.linkOpen then s.resetPort port else s)

/-- R337: a write of SOCKID. -/
def execSockidWrite (value : BitVec 6) (s : State) : Host.Outcome State Fault Refusal :=
  .next (if s.linkOpen then s.setSocket value else s)

/-- R5: a write of a hub register through its offset, all eight bytes; in phase 15 only BBCTL answers (R362). -/
def execRegisterWrite (offset : Nat) (value : Word) (s : State) : Host.Outcome State Fault Refusal :=
  .next (if offset % 8 = 0 ∧ (s.linkOpen ∨ s.hub.phase = 15) then s.hubWrite offset 0xFF value.toNat else s)

/-! ## States of a port (R335, R336) -/

/-- A port of the eight changes where its state lets it. -/
def State.portStep (s : State) (p : Nat) (states : List PortState) (f : Port → Port) : State :=
  if p < 8 ∧ states.contains (s.hub.port p).st then s.setPort p (f (s.hub.port p)) else s

/-- The port enters a state now. -/
def Port.enter (q : Port) (st : PortState) (now : Nat) : Port := { q with st := st, since := now }

/-- The port enters Retrain (R335, R337). -/
def Port.retrain (q : Port) (now : Nat) : Port := { (q.enter .retrain now) with retrains := q.retrains + 1, fails := 0 }

/-- R335: a port in Detect finds a peer. -/
def execPeerDetected (port : Nat) (peer : BitVec 6) (s : State) : Host.Outcome State Fault Refusal :=
  .next (s.portStep port [.detect] (fun q => { (q.enter .train s.clk.time) with peer := peer }))

/-- A port after its lanes have trained, or not (R335): nothing happens where they train too late. -/
def Port.trained (q : Port) (lanes : Lanes) (own : BitVec 6) (now : Nat) : Port :=
  let t := now - q.since
  if q.peer = own ∨ lanes = .neither then q.enter .down now
  else
    match lanes with
    | .all => if t ≤ 20000 then { (q.enter .active now) with halfHigh := false } else q
    | .low => if t ≤ 40000 then { (q.enter .half now) with halfHigh := false } else q
    | .high => if t ≤ 40000 then { (q.enter .half now) with halfHigh := true } else q
    | .neither => q

/-- R335: a port's lanes train. -/
def execPortTrained (port : Nat) (lanes : Lanes) (s : State) : Host.Outcome State Fault Refusal :=
  .next (s.portStep port [.train, .retrain] (fun q => q.trained lanes s.hub.sockid s.clk.time))

/-- R335: a port has not trained within 1 ms. -/
def execTrainingTimeout (port : Nat) (s : State) : Host.Outcome State Fault Refusal :=
  .next (if (s.hub.port port).since + 1000000 ≤ s.clk.time then s.portStep port [.train, .retrain] (fun q => q.enter .down s.clk.time) else s)

/-- R335: a lane in use fails. -/
def execLaneFailure (port : Nat) (s : State) : Host.Outcome State Fault Refusal :=
  .next (s.portStep port [.active, .half] (fun q => q.retrain s.clk.time))

/-- The sockets become unreachable that have a route, none of whose ports carries flits: flits for them are discarded, and accesses to them meet
their fates (R336). -/
def Hub.fence (h : Hub) : Hub :=
  let gone := (List.range 64).filter (fun k => h.unreachable k && decide (Sparse.at 0 h.droute k ≠ 0))
  { h with lost := dedup (h.lost ++ gone), holding := h.holding.filter (fun f => !gone.contains f.socket),
           ports := h.ports.map (fun e => (e.1, { e.2 with renewed := false })) }

/-- R335, R336: a port that has been Down for 1 ms, some socket having had no route through an Active or Half-width port all the while, goes
Fenced. No line of another socket is cached here (R323). -/
def execPortFenceTimeout (port : Nat) (s : State) : Host.Outcome State Fault Refusal :=
  match s.hub.cutSince with
  | none => .next s
  | some cut =>
    if port < 8 ∧ (s.hub.port port).st = .down ∧ Nat.max cut (s.hub.port port).since + 1000000 ≤ s.clk.time then
      .next ((s.setPort port ((s.hub.port port).enter .fenced s.clk.time)).modHub Hub.fence)
    else .next s

/-- A flit with a bad CRC is asked for again; the eighth failure in a row retrains the port (R334). -/
def Port.replay (q : Port) (now : Nat) : Port :=
  if q.fails + 1 = 8 then { (q.retrain now) with replays := q.replays + 1 } else { q with fails := q.fails + 1, replays := q.replays + 1 }

/-- A good flit in sequence is delivered here, forwarded by its socket's entry, or discarded where it would take a fourth hop or its socket is
lost or has no route (R333, R336, R337). -/
def State.takeFlit (s : State) (f : Flit) : State :=
  if f.socket = s.hub.sockid.toNat then s.modHub (fun h => { h with delivered := h.delivered ++ [f.payload] })
  else if 3 ≤ f.hops ∨ (s.hub.routePorts f.socket).isEmpty ∨ s.hub.lost.contains f.socket then s
  else s.sendFlit { f with hops := f.hops + 1 }

/-- R333, R334: a flit is received, of 240 payload bytes. One that is not next in sequence is a duplicate, and is dropped. -/
def execFlitReceive (port : Nat) (flit : Flit) (s : State) : Host.Outcome State Fault Refusal :=
  if 8 ≤ port ∨ !(s.hub.port port).up ∨ flit.payload.length ≠ 240 then .next s
  else if !flit.crcOk then .next (s.portStep port [.active, .half] (fun q => q.replay s.clk.time))
  else if flit.seq ≠ (s.hub.port port).expect then .next s
  else .next ((s.portStep port [.active, .half] (fun q => { q with expect := q.expect + 1, fails := 0 })).takeFlit flit)

/-! ## The host link (R338, R341, R394) -/

/-- An entry address of machine level: PC always has bits [1:0] zero (R44). -/
def maskWord (w : Word) : Word := putBits w 0 2 0

/-- A cluster's handler chain is written: at most four entries (R262). -/
def State.writeChain (s : State) (e : Option (Nat × List (Nat × Word))) : State :=
  match e with
  | none => s
  | some (k, l) => s.modCluster k (fun c => { c with chain := (l.take 4).map (fun x => (x.1 % 4, maskWord x.2)) })

/-- An entry of the urgent table is written (R275). -/
def State.writeUrgent (s : State) (e : Option (Nat × Word)) : State :=
  match e with
  | none => s
  | some (n, w) => { s with urgentTable := s.urgentTable.set (n % 16) (maskWord w) }

/-- A partition is defined (R267). -/
def State.writePartition (s : State) (e : Option (Nat × List Nat)) : State :=
  match e with
  | none => s
  | some (p, l) => { s with partitions := s.partitions.set (p % 8) (l.filter (fun k => decide (k < 192))) }

/-- What a host write of a doubleword places for machine level, before the first BUILD: where these tables lie is not stated, so a free
value decides (R262, R267, R275; assumption 4). -/
def State.placeTables (s : State) (a : Nat) (w : Word) : State :=
  if s.hub.built then s
  else ((s.writeChain (Config.chainWrite a w)).writeUrgent (Config.urgentWrite a w)).writePartition (Config.partitionWrite a w)

/-- The aligned doublewords that lie whole in a write. -/
def wordsIn (addr : Nat) (bytes : List Byte) : List (Nat × Word) :=
  (List.range (bytes.length / 8)).filterMap (fun i =>
    let a := (addr + 7) / 8 * 8 + 8 * i
    if a + 8 ≤ addr + bytes.length then some (a, BitVec.ofNat 64 (leNat ((bytes.drop (a - addr)).take 8))) else none)

/-- The host's bytes enter memory under the shared key; in a control block as its fields take them (R5, R301, R394). -/
def State.hostStore (s : State) (addr : Nat) (bytes : List Byte) : State :=
  s.storeBy Cred.shared (cellsAt addr bytes)

/-- R341, R394: a host write is placed in T: of hub registers through BAR0, of stacked DRAM under the shared key, of host memory. It waits
while a miss of it is held (R327). -/
def execHostPostedWrite (addr : Nat) (bytes : List Byte) (_relaxed : Bool) (s : State) : Host.Outcome State Fault Refusal :=
  let last := addr + bytes.length
  if Config.hubBase ≤ addr ∧ last ≤ Config.hubEnd then
    .next (if s.linkOpen || s.hub.phase == 15 then s.hubStores bytes.length addr bytes else s)
  else if last ≤ Config.dramEnd then
    .next (if s.linkOpen && !s.writeHeld Cred.shared (cellsAt addr bytes) then (wordsIn addr bytes).foldl (fun s e => s.placeTables e.1 e.2) (s.hostStore addr bytes) else s)
  else if Config.hostBase ≤ addr ∧ last ≤ Config.physEnd then .next (s.hostStore addr bytes)
  else .next s

/-- R394: a host read of stacked DRAM under the shared key, or of hub registers through BAR0; its bytes go to the host. -/
def execHostRead (addr len : Nat) (s : State) : Host.Outcome State Fault Refusal :=
  let out : List Byte → State := fun bs => ({ s with free := s.free + 1 }).modHub (fun h => { h with hostOut := h.hostOut ++ [bs] })
  if addr + len ≤ Config.dramEnd then
    let lines := linesOf (cellsAt addr (List.replicate len 0))
    if !s.linkOpen || s.anyHeld Cred.shared false lines then .next s
    else
      let t := ({ s with free := s.free + 1 }).siltUses Cred.shared false lines
      .next (t.modHub (fun h => { h with hostOut := h.hostOut ++ [s.mem.readBytes s.free Cred.shared addr len] }))
  else if Config.hubBase ≤ addr ∧ addr + len ≤ Config.hubEnd then
    .next (if s.linkOpen || s.hub.phase == 15 then out (s.hubBytes addr len) else s)
  else .next s

/-- R261, R338: a host interrupt message, which comes over the trained link (R362), is posted as cause 0xE3. -/
def execHostInterruptMessage (tid : Nat) (s : State) : Host.Outcome State Fault Refusal :=
  .next (if s.linkOpen then s.postIrq tid 0xE3 else s)

/-- R275: a message of the time protocol sets the slew of the time unit, at most 100 parts per million either way. -/
def execPtpMessage (slew : Int) (s : State) : Host.Outcome State Fault Refusal :=
  .next { s with clk := { s.clk with slew := if slew < -100 then -100 else if 100 < slew then 100 else slew } }

end Sys2Proof.Machine
end

