-- ==== Sys2Proof/Machine/LoadStore.lean ====
section
/-! DEFINITION. Scalar loads, stores and prefetches (R95-R100). -/

namespace Sys2Proof.Machine

/-- Names what a load may have in front of it (R52, R54). -/
def loadAccepts (himm : Nat) : Accepts := { himm := himm, nofwd := true, l1na := true }

/-- Names what a store may have in front of it (R52, R54). -/
def storeAccepts (himm : Nat) : Accepts := { himm := himm, l1na := true }

/-- The hints of a scalar access (R54, R100). -/
def Strand.hints (t : Strand) (e : BitVec 2) (l : BitVec 1) : Hints := { ep := e, lu := l == 1, l1 := t.hmod != some false }

/-- A load's value: the SIZE codes 000, 010, 100 and 110 extend the sign, the others do not (R49, R95). -/
def loadValue (size : BitVec 3) (w : Nat) : Word :=
  let n := 8 * accessSize size.toNat
  if size.toNat % 2 = 0 then sext n w else zext n w

/-- A scalar load at an address (R95). -/
def State.load (d : IntReg) (size : BitVec 3) (ea : Word) (h : Hints) (s : State) : Run :=
  let n := accessSize size.toNat
  s.unlessHeld [(ea.toNat, ea.toNat + n)]
    (match s.loadScalar ea.toNat n (s.me.hmod == some true) h with
     | .error e => .error e
     | .ok (w, s') => .ok (s'.setX d (loadValue size w)).retire)

/-- A scalar store at an address (R95). -/
def State.put (d : IntReg) (size : BitVec 3) (ea : Word) (h : Hints) (s : State) : Run :=
  let n := accessSize size.toNat
  s.unlessHeld [(ea.toNat, ea.toNat + n)]
    (match s.storeScalar ea.toNat n (s.x d) h with
     | .error e => .error e
     | .ok s' => .ok s'.retire)

/-- R95: `ld`. -/
def execLd (d b : IntReg) (z : BitVec 3) (e : BitVec 2) (l : BitVec 1) (p : BitVec 8) (s : State) :
    Host.Outcome State Fault Refusal :=
  word (loadAccepts 1) false (fun s =>
    s.load d z (s.x b + s.me.disp p (accessSize z.toNat)) (s.me.hints e l)) s

/-- R95: `st`. -/
def execSt (d b : IntReg) (z : BitVec 3) (e : BitVec 2) (l : BitVec 1) (p : BitVec 8) (s : State) :
    Host.Outcome State Fault Refusal :=
  word (storeAccepts 1) false (fun s =>
    s.put d z (s.x b + s.me.disp p (accessSize z.toNat)) (s.me.hints e l)) s

/-- R95: `ldx`. -/
def execLdx (d b : IntReg) (z : BitVec 3) (e : BitVec 2) (l : BitVec 1) (i : IntReg) (s : State) :
    Host.Outcome State Fault Refusal :=
  word (loadAccepts 0) false (fun s =>
    s.load d z (s.x b + s.x i * BitVec.ofNat 64 (accessSize z.toNat)) (s.me.hints e l)) s

/-- R95: `stx`. -/
def execStx (d b : IntReg) (z : BitVec 3) (e : BitVec 2) (l : BitVec 1) (i : IntReg) (s : State) :
    Host.Outcome State Fault Refusal :=
  word (storeAccepts 0) false (fun s =>
    s.put d z (s.x b + s.x i * BitVec.ofNat 64 (accessSize z.toNat)) (s.me.hints e l)) s

/-! ## Prefetch (R99, R332) -/

/-- The place a prefetch may fetch from: cached memory that the strand may read, outside the windows and sync pages (R99); and the state
after its translation. It waits where its walk is held, which is no drop (R327). -/
def State.prefetchPlace (s : State) (ea : Nat) : Except Trap (Option Place × State) :=
  match s.reach ea 1 .read false with
  | .error e => if e.stall then .error e else .ok (none, s.beforeTrap s.cur e)
  | .ok (.reg _, s') => .ok (none, s')
  | .ok (.mem p, s') => .ok (if p.cached && !p.sync then some p else none, s')

/-- One of a core's prefetches is resolved as useless. -/
def State.useless (s : State) : State := s.modCore s.cur.core (fun k => { k with pfUseless := sat48 (k.pfUseless + 1) })

/-- The line's L1 entry is the next to make room (R100, R329). -/
def CoreState.l1Demote (k : CoreState) (line : Nat) : CoreState :=
  { k with l1 := k.l1.filter (fun e => e.line == line) ++ k.l1.filter (fun e => e.line != line) }

/-- A `pf` with LU = 1 demotes the line that it has fetched. It makes no access, so it drops no value, on a discardable page neither (R99,
R100, R152, R329; DESIGN CHOICE, assumption 65). -/
def State.pfLast (s : State) (line : Nat) (lu : Bool) : State :=
  if lu then (s.demote line).modCore s.cur.core (fun k => k.l1Demote line) else s

/-- A prefetched line goes into the L1 data cache of the core. -/
def State.pfFill (s : State) (line slot : Nat) : State :=
  s.modCore s.cur.core (fun k => k.l1Fill { line := line, slot := slot, prefetched := true })

/-- The miss of a line would evict a dirty line from its set (R330). -/
def State.dirtyVictim (s : State) (line : Nat) : Bool :=
  let set := siltSet s.hub.locals line
  decide (siltWays s.hub.shways ≤ (s.caches.silt.filter (fun e => siltSet s.hub.locals e.1 == set)).length) &&
    (s.caches.victim s.hub.locals set).any s.caches.lineDirty

/-- A prefetch of a line that its slice does not hold waits for the line's miss, or starts one, with a write-back entry reserved where its
victim is dirty (R330, R332). A second one of the core for that miss is useless (DESIGN CHOICE, assumption 105). -/
def State.pfMiss (s : State) (line slot : Nat) (ep : BitVec 2) : State :=
  let me := (s.cur.core, slot)
  match s.missOf line with
  | some m =>
    let again := m.pfs.contains me
    let t := s.setMisses (s.caches.misses.map (fun x =>
      if x = m then { m with prio := ep, pfs := if again then m.pfs else m.pfs ++ [me] } else x))
    if again then t.useless else t
  | none =>
    let reserved := s.dirtyVictim line && !s.wbackFull line && decide ((s.missTable line).length < 256)
    s.setMisses (s.caches.misses ++ [{ line := line, slot := slot, prio := ep, pfs := [me], reserved := reserved }])

/-- A prefetch of the line at a place (R99, R332): it finds the line in the L1 data cache, or fills it from the slice, or waits for the line's
miss. -/
def State.prefetchAt (s : State) (p : Place) (ep : BitVec 2) (lu : Bool) : State :=
  let line := p.loc / 64
  let slot := s.placeSlot p false
  if ((s.core s.cur.core).l1Find line slot).isSome then s.useless.pfLast line lu
  else if !isDram p.loc then s.pfFill line slot
  else if s.siltHas line slot then ((s.siltTouch line slot ep).pfFill line slot).pfLast line lu
  else s.pfMiss line slot (if lu then 0 else ep)

/-- A prefetch of the line that holds an address (R99, R332). -/
def State.prefetch (s : State) (ea : Nat) (ep : BitVec 2) (lu : Bool) : Run :=
  match (s.modCore s.cur.core (fun k => { k with pfIssued := sat48 (k.pfIssued + 1) })).prefetchPlace ea with
  | .error e => .error e
  | .ok (none, t) => .ok t.useless
  | .ok (some p, t) => .ok (t.prefetchAt p ep lu)

/-- R99: `pf` at base plus displacement. -/
def execPf (b : IntReg) (e : BitVec 2) (l : BitVec 1) (p : BitVec 8) (s : State) : Host.Outcome State Fault Refusal :=
  word { himm := 1 } false (fun s => (s.prefetch (s.x b + s.me.disp p 64).toNat e (l == 1)).map State.retire) s

/-- R99: `pf` at base plus index. -/
def execPfIndexed (b : IntReg) (e : BitVec 2) (l : BitVec 1) (i : IntReg) (s : State) : Host.Outcome State Fault Refusal :=
  word plain false (fun s => (s.prefetch (s.x b + s.x i * 64).toNat e (l == 1)).map State.retire) s

end Sys2Proof.Machine
end

