-- ==== Sys2Proof/Machine/Package.lean ====
section
/-! DEFINITION. Power states, throttling, cooling, clocks, rails, resets and bring-up (R355-R363). -/

namespace Sys2Proof.Machine

/-! ## P-states (R358) -/

/-- R358: a write of PSTATE. -/
def execCpwrPstate (cluster : Nat) (value : BitVec 2) (s : State) : Host.Outcome State Fault Refusal :=
  .next (if s.linkOpen then s.setPstate cluster value else s)

/-- R358: a write of CMAX. -/
def execCpwrCmax (cluster : Nat) (value : BitVec 2) (s : State) : Host.Outcome State Fault Refusal :=
  .next (if s.linkOpen then s.setCmax cluster value else s)

/-- R358: a P-state change takes effect and fetch resumes. -/
def execPstateChangeComplete (cluster : Nat) (s : State) : Host.Outcome State Fault Refusal :=
  .next (if (s.cluster cluster).changing.isSome then s.modCluster cluster ClusterState.settle else s)

/-! ## C-states (R357) -/

/-- The four cores of cluster `k` of this package. -/
def State.coresOfCluster (s : State) (k : Nat) : List Nat := (List.range 4).map (fun i => s.hub.sockid.toNat * 1024 + k * 4 + i)

/-- A core has been in retention for 1 µs, with nothing on its engine and no copy of its Runnel engine in progress. -/
def State.restful (s : State) (core : Nat) : Bool :=
  let k := s.core core
  decide (k.retained ≠ 0) && decide (k.retainedAt + 2400 ≤ s.clk.cycles) && (s.engine (core % 1024)).queue.isEmpty &&
    (s.engine (core % 1024)).running.isNone && !s.copies.any (fun c => c.2.issuer.core == core && !c.2.op.isPacket)

/-- The C-state that a cluster may enter: the deepest that CMAX allows and that no core's RFSLEEP.DEPTH falls below. -/
def State.deepest (s : State) (k : Nat) : Nat :=
  (s.coresOfCluster k).foldl (fun n c => Nat.min n (bitsAt (s.core c).rfsleep.toNat 0 2)) (s.cluster k).cmax.toNat

/-- R357: an idle cluster enters its C-state; below C1 its cache is written back and invalidated. -/
def execCstateEntry (cluster : Nat) (s : State) : Host.Outcome State Fault Refusal :=
  let n := s.deepest cluster
  if n = 0 ∨ (s.cluster cluster).curc ≠ 0 ∨ !(s.coresOfCluster cluster).all s.restful then .next s
  else
    let s := s.modCluster cluster (fun c => { c with curc := BitVec.ofNat 2 n, lines := if 2 ≤ n then [] else c.lines })
    .next (if 2 ≤ n then { s with caches := { s.caches with leases := s.caches.leases.filter (fun l => l.1 != cluster) } } else s)

/-- R357: a wake event at one of its cores wakes a cluster, which returns to its set P-state. -/
def execClusterWake (cluster : Nat) (s : State) : Host.Outcome State Fault Refusal :=
  .next (if (s.cluster cluster).curc ≠ 0 && (s.coresOfCluster cluster).any s.wakesCore then
      s.modCluster cluster ClusterState.wake
    else s)

/-! ## Throttling (R359, R360) -/

/-- A cluster throttled by one step. -/
def ClusterState.throttle (k : ClusterState) : ClusterState := { k with thr := true, curp := if k.curp = 3 then 3 else k.curp + 1 }

/-- Throttling of a cluster ends. -/
def ClusterState.release (k : ClusterState) : ClusterState := if k.thr then { k with thr := false, curp := k.pstate } else k

/-- Throttling by package power ends, unless the die is too hot. -/
def ClusterState.cooled (k : ClusterState) (hot : Bool) : ClusterState := if hot then k else k.release

/-- The die of a cluster (R10). -/
def dieOf (cluster : Nat) : Nat := cluster / 32

/-- R359: with package power above 3,200 W a cluster's CURP falls one step. -/
def execPowerThrottle (cluster watts : Nat) (s : State) : Host.Outcome State Fault Refusal :=
  .next (if 3200 < watts ∧ cluster < 192 then s.modCluster cluster ClusterState.throttle else s)

/-- R359: with package power below 3,000 W CURP returns to PSTATE, but not on a die that is too hot (R360). -/
def execPowerThrottleRelease (watts : Nat) (s : State) : Host.Outcome State Fault Refusal :=
  .next (if watts < 3000 then
      { s with clusters := s.clusters.map (fun (e : Nat × ClusterState) => (e.1, e.2.cooled (s.hub.hotDies.contains (dieOf e.1)))) }
    else s)

/-- Every cluster of a die changes. -/
def State.modDie (s : State) (die : Nat) (f : ClusterState → ClusterState) : State :=
  (List.range 32).foldl (fun s i => s.modCluster (die * 32 + i) f) s

/-- R360: the sensors of a die are read. A die above 110 °C is also above 100 °C. -/
def execThermalSample (die celsius : Nat) (s : State) : Host.Outcome State Fault Refusal :=
  .next (if 6 ≤ die then s
    else if 100 < celsius then
      (s.modHub (fun h => { h with hotDies := insertNat h.hotDies die, tripped := h.tripped || decide (110 < celsius) })).modDie die
        (fun c => { c with thr := true, curp := 3 })
    else if celsius < 95 then
      if s.hub.hotDies.contains die then
        (s.modHub (fun h => { h with hotDies := removeNat h.hotDies die })).modDie die ClusterState.release
      else s
    else s)

/-- The event may happen while THERMTRIP_N is asserted (R360): what the board does to rails and resets. -/
def pastTrip (i : Instr) : Bool :=
  match i with
  | .railFault _ => true
  | .coldReset => true
  | .warmReset => true
  | _ => false

/-- The event may happen in phase 15 (R362): those of the board and its clocks and sensors, and what only the registers of the always-on
domain and the black box take part in. -/
def pastStop (i : Instr) : Bool :=
  match i with
  | .refclkLoss _ => true
  | .thermalSample .. => true
  | .hostRead .. => true
  | .hostPostedWrite .. => true
  | .registerWrite .. => true
  | .bbctlUnfreeze => true
  | .blackBoxWrite => true
  | i => pastTrip i

/-! ## Resets and bring-up (R350, R355, R361-R363) -/

/-- What lies outside the stacked memory and the scratchpads: host memory, which a reset of the device does not change. -/
def Mem.hostOnly (m : Mem) : Mem :=
  { Mem.reset with bytes := m.bytes.filter (fun e => decide (Config.hostBase ≤ e.1) && decide (e.1 < Config.physEnd)) }

/-- A line's tag after the shared key has been drawn anew. -/
def formerTag : KeyTag → KeyTag
  | .shared => .ctx Config.sharedSlot 0
  | t => t

/-- Memory after a warm reset: lines that were under the shared key are under a key that is gone, no scratchpad block has an owner, and every
word is full (R98). -/
def Mem.warm (m : Mem) : Mem :=
  { m with empty := [], keys := m.keys.map (fun (e : Nat × KeyTag) => (e.1, formerTag e.2)), owners := [], olds := [] }

/-- What the outside of the device keeps through a reset: the model's own counters and agenda, the time, and what the host has been sent. -/
def State.outside (s t : State) : State :=
  { t with clk := { s.clk with slew := 0 }, agenda := s.agenda, focus := s.focus, free := s.free, fresh := s.fresh,
           hub := { t.hub with msi := s.hub.msi, hostOut := s.hub.hostOut } }

/-- R362: a cold reset. Fuses stand as they are raised, a boot nonce is drawn (R342, R345), and the firmware image and the stacks are the same
ones (assumption 97). -/
def State.cold (s : State) : State :=
  let t := s.outside { State.reset with mem := s.mem.hostOnly }
  t.modHub (fun h => { h with boots := s.hub.boots + 1, fwctr := s.hub.fwctrNext, fwctrNext := s.hub.fwctrNext, kctr := s.hub.kctr,
                              dbgauth := s.hub.dbgauth, nkkeys := s.hub.nkkeys, railsAt := s.clk.time, image := s.hub.image,
                              dramOk := s.hub.dramOk, cutSince := some s.clk.time })

/-- A key slot after a warm reset: only the shared key is there. -/
def keptSlot (n : Nat) (k : KeySlot) : KeySlot := { k with inUse := n == Config.sharedSlot }

/-- R362: a warm reset keeps the black box, the fuses, the boot nonce, the translation cache (R318), the epochs and fill order of the key
slots (R257), and debug mode 3 (R349). -/
def State.warm (s : State) : State :=
  let slots := s.keySlots.map (fun (e : Nat × KeySlot) => (e.1, keptSlot e.1 e.2))
  let t := s.outside { State.reset with mem := s.mem.warm, keySlots := slots, transCache := s.transCache }
  t.modHub (fun h => { h with
    boots := s.hub.boots, fwctr := s.hub.fwctr, fwctrNext := s.hub.fwctrNext, kctr := s.hub.kctr, dbgauth := s.hub.dbgauth,
    nkkeys := s.hub.nkkeys, mode := if s.hub.mode = 3 then 3 else 0, bbWidx := s.hub.bbWidx, bbWrap := s.hub.bbWrap,
    bbFrozen := s.hub.bbFrozen, bbFrozenAt := s.hub.bbFrozenAt, bbLost := s.hub.bbLost, bbCause := s.hub.bbCause, bbRing := s.hub.bbRing,
    bbQueue := s.hub.bbQueue, bbWroteAt := s.hub.bbWroteAt, bbCorrected := s.hub.bbCorrected, railsAt := s.hub.railsAt,
    image := s.hub.image, dramOk := s.hub.dramOk, absent := s.hub.absent, cutSince := some s.clk.time })

/-- R362: power-on or a fault starts a cold reset. -/
def execColdReset (s : State) : Host.Outcome State Fault Refusal := .next s.cold

/-- R362: PERST# starts a warm reset. -/
def execWarmReset (s : State) : Host.Outcome State Fault Refusal := .next s.warm

/-- R355: a rail that leaves its tolerance for more than 1 µs causes a cold reset. -/
def execRailFault (_rail : Rail) (s : State) : Host.Outcome State Fault Refusal := .next s.cold

/-- A machine check on a port (R361). -/
def State.portCheck (s : State) (source : Nat) : State := (s.logEvent 0x0005 source 0xF5 0 0 0).tellHost 1

/-- A reference clock is absent from now on. -/
def State.clockGone (s : State) (c : RefClock) : State :=
  s.modHub (fun h => { h with absent := if h.absent.contains c then h.absent else h.absent ++ [c] })

/-- R361: a reference clock is lost. The host's causes a cold reset; another one, once bring-up has passed phase 2, raises a machine check on
the ports concerned: a pair of Driost ports, or the management processor's. Bring-up finds it absent (assumption 97). -/
def execRefclkLoss (clock : RefClock) (s : State) : Host.Outcome State Fault Refusal :=
  let late := decide (3 ≤ s.hub.phase.toNat)
  .next (match clock with
    | .host => s.cold.clockGone .host
    | .driost pair =>
      let t := s.clockGone (.driost pair)
      if late then (t.portCheck (0x360 + 2 * pair.toNat)).portCheck (0x361 + 2 * pair.toNat) else t
    | .management => if late then (s.clockGone .management).portCheck 0x3FF else s.clockGone .management)

/-- R355: every rail has stayed within tolerance for 10 ms and reset is released. -/
def execResetRelease (s : State) : Host.Outcome State Fault Refusal :=
  .next (if s.hub.resetHeld && decide (s.hub.railsAt + 10000000 ≤ s.clk.time) then s.modHub (fun h => { h with resetHeld := false }) else s)

/-- The reasons for which the present phase of bring-up fails (R342, R361, R363): the checks of a phase are made in turn. -/
def Hub.failures (h : Hub) : List Nat :=
  if h.phase = 1 then (if !h.image.signed then [1] else if h.image.svn < h.fwctr.toNat then [2] else [])
  else if h.phase = 2 then
    (if !h.image.table then [3] else if !h.image.loader then [4] else if !h.image.keys then [5] else []) ++
      (if h.absent.isEmpty then [] else [6])
  else if h.phase = 3 then (if h.dramOk then [] else [7])
  else []

/-- The present phase may fail with the reason: with one that applies, or, in a phase to which R363 gives no reason, with 0. -/
def Hub.mayFail (h : Hub) (r : Byte) : Bool :=
  if h.phase = 1 ∨ h.phase = 2 ∨ h.phase = 3 then h.failures.contains r.toNat else r == 0

/-- R362, R363: a bring-up phase whose checks pass completes, or one fails with a reason and the device stops in phase 15. -/
def execBringupPhase (failure : Option Byte) (s : State) : Host.Outcome State Fault Refusal :=
  .next (if s.hub.resetHeld || s.hub.phase == 15 then s
    else
      match failure with
      | none => if s.hub.phase.toNat < 5 ∧ s.hub.failures.isEmpty then s.modHub (fun h => { h with phase := h.phase + 1 }) else s
      | some r => if s.hub.mayFail r then s.modHub (fun h => { h with phase := 15, failPh := h.phase, reason := r }) else s)

end Sys2Proof.Machine
end

