-- ==== Sys2Proof/Machine/Scalar.lean ====
section
/-! DEFINITION. Register-register and immediate operations (R86-R94). No one of them sets a flag or traps for its operands. -/

namespace Sys2Proof.Machine

/-! ## Results (R89, R90) -/

/-- sh (R89): the low six bits of a count. -/
def shamt (b : Word) : Nat := b.toNat % 64

/-- The high 64 bits of a 128-bit product. -/
def high (a b : Int) : Word := BitVec.ofInt 64 (a * b / 2 ^ 64)

/-- q of `div` (R90). -/
def quotS (a b : Word) : Word :=
  if b = 0 then BitVec.allOnes 64 else BitVec.ofInt 64 (a.toInt.tdiv b.toInt)

/-- r of `rem` (R90). -/
def remS (a b : Word) : Word := if b = 0 then a else BitVec.ofInt 64 (a.toInt.tmod b.toInt)

/-- q of `divu` (R90). -/
def quotU (a b : Word) : Word := if b = 0 then BitVec.allOnes 64 else BitVec.ofNat 64 (a.toNat / b.toNat)

/-- r of `remu` (R90). -/
def remU (a b : Word) : Word := if b = 0 then a else BitVec.ofNat 64 (a.toNat % b.toNat)

/-- The number of leading zero bits. -/
def leadingZeros (a : Word) : Word := BitVec.ofNat 64 (64 - bitLength a.toNat)

/-- The number of trailing zero bits. -/
def trailingZeros (a : Word) : Word := BitVec.ofNat 64 (lowestBit 64 a.toNat)

/-! ## Register-register operations (R89) -/

/-- A binary form: D takes the result, and the word retires. -/
def State.binary (f : Word → Word → Word) (d a b : IntReg) (s : State) : Run := .ok (s.setX d (f (s.x a) (s.x b))).retire

/-- A unary form. -/
def State.unary (f : Word → Word) (d a : IntReg) (s : State) : Run := .ok (s.setX d (f (s.x a))).retire

/-- A form with an immediate. -/
def State.immediate (f : Word → Word → Word) (d a : IntReg) (i : Word) (s : State) : Run := .ok (s.setX d (f (s.x a) i)).retire

/-- R89: `add`. -/
def execAdd (d a b : IntReg) (s : State) : Host.Outcome State Fault Refusal :=
  word plain false (State.binary (fun a b => a + b) d a b) s

/-- R89: `sub`. -/
def execSub (d a b : IntReg) (s : State) : Host.Outcome State Fault Refusal :=
  word plain false (State.binary (fun a b => a - b) d a b) s

/-- R89: `and`. -/
def execAnd (d a b : IntReg) (s : State) : Host.Outcome State Fault Refusal :=
  word plain false (State.binary (fun a b => a &&& b) d a b) s

/-- R89: `or`. -/
def execOr (d a b : IntReg) (s : State) : Host.Outcome State Fault Refusal :=
  word plain false (State.binary (fun a b => a ||| b) d a b) s

/-- R89: `xor`. -/
def execXor (d a b : IntReg) (s : State) : Host.Outcome State Fault Refusal :=
  word plain false (State.binary (fun a b => a ^^^ b) d a b) s

/-- R89: `andn`. -/
def execAndn (d a b : IntReg) (s : State) : Host.Outcome State Fault Refusal :=
  word plain false (State.binary (fun a b => a &&& ~~~b) d a b) s

/-- R89: `orn`. -/
def execOrn (d a b : IntReg) (s : State) : Host.Outcome State Fault Refusal :=
  word plain false (State.binary (fun a b => a ||| ~~~b) d a b) s

/-- R89: `xnor`. -/
def execXnor (d a b : IntReg) (s : State) : Host.Outcome State Fault Refusal :=
  word plain false (State.binary (fun a b => ~~~(a ^^^ b)) d a b) s

/-- R89: `sll`. -/
def execSll (d a b : IntReg) (s : State) : Host.Outcome State Fault Refusal :=
  word plain false (State.binary (fun a b => a <<< shamt b) d a b) s

/-- R89: `srl`. -/
def execSrl (d a b : IntReg) (s : State) : Host.Outcome State Fault Refusal :=
  word plain false (State.binary (fun a b => a >>> shamt b) d a b) s

/-- R89: `sra`. -/
def execSra (d a b : IntReg) (s : State) : Host.Outcome State Fault Refusal :=
  word plain false (State.binary (fun a b => a.sshiftRight (shamt b)) d a b) s

/-- R89: `rol`. -/
def execRol (d a b : IntReg) (s : State) : Host.Outcome State Fault Refusal :=
  word plain false (State.binary (fun a b => a.rotateLeft (shamt b)) d a b) s

/-- R89: `ror`. -/
def execRor (d a b : IntReg) (s : State) : Host.Outcome State Fault Refusal :=
  word plain false (State.binary (fun a b => a.rotateRight (shamt b)) d a b) s

/-- R89: `slt`. -/
def execSlt (d a b : IntReg) (s : State) : Host.Outcome State Fault Refusal :=
  word plain false (State.binary (fun a b => flagWord (a.slt b)) d a b) s

/-- R89: `sltu`. -/
def execSltu (d a b : IntReg) (s : State) : Host.Outcome State Fault Refusal :=
  word plain false (State.binary (fun a b => flagWord (a.ult b)) d a b) s

/-- R89: `min`. -/
def execMin (d a b : IntReg) (s : State) : Host.Outcome State Fault Refusal :=
  word plain false (State.binary (fun a b => if a.slt b then a else b) d a b) s

/-- R89: `max`. -/
def execMax (d a b : IntReg) (s : State) : Host.Outcome State Fault Refusal :=
  word plain false (State.binary (fun a b => if a.slt b then b else a) d a b) s

/-- R89: `minu`. -/
def execMinu (d a b : IntReg) (s : State) : Host.Outcome State Fault Refusal :=
  word plain false (State.binary (fun a b => if a.ult b then a else b) d a b) s

/-- R89: `maxu`. -/
def execMaxu (d a b : IntReg) (s : State) : Host.Outcome State Fault Refusal :=
  word plain false (State.binary (fun a b => if a.ult b then b else a) d a b) s

/-- R89: `mul`. -/
def execMul (d a b : IntReg) (s : State) : Host.Outcome State Fault Refusal :=
  word plain false (State.binary (fun a b => a * b) d a b) s

/-- R89: `mulh`. -/
def execMulh (d a b : IntReg) (s : State) : Host.Outcome State Fault Refusal :=
  word plain false (State.binary (fun a b => high a.toInt b.toInt) d a b) s

/-- R89: `mulhu`. -/
def execMulhu (d a b : IntReg) (s : State) : Host.Outcome State Fault Refusal :=
  word plain false (State.binary (fun a b => high a.toNat b.toNat) d a b) s

/-- R89: `mulhsu`. -/
def execMulhsu (d a b : IntReg) (s : State) : Host.Outcome State Fault Refusal :=
  word plain false (State.binary (fun a b => high a.toInt b.toNat) d a b) s

/-- R90: `div`. -/
def execDiv (d a b : IntReg) (s : State) : Host.Outcome State Fault Refusal :=
  word plain false (State.binary (fun a b => quotS a b) d a b) s

/-- R90: `divu`. -/
def execDivu (d a b : IntReg) (s : State) : Host.Outcome State Fault Refusal :=
  word plain false (State.binary (fun a b => quotU a b) d a b) s

/-- R90: `rem`. -/
def execRem (d a b : IntReg) (s : State) : Host.Outcome State Fault Refusal :=
  word plain false (State.binary (fun a b => remS a b) d a b) s

/-- R90: `remu`. -/
def execRemu (d a b : IntReg) (s : State) : Host.Outcome State Fault Refusal :=
  word plain false (State.binary (fun a b => remU a b) d a b) s

/-- R89: `clz`. -/
def execClz (d a : IntReg) (s : State) : Host.Outcome State Fault Refusal :=
  word plain false (State.unary (fun a => leadingZeros a) d a) s

/-- R89: `ctz`. -/
def execCtz (d a : IntReg) (s : State) : Host.Outcome State Fault Refusal :=
  word plain false (State.unary (fun a => trailingZeros a) d a) s

/-- R89: `popc`. -/
def execPopc (d a : IntReg) (s : State) : Host.Outcome State Fault Refusal :=
  word plain false (State.unary (fun a => BitVec.ofNat 64 (countBits 64 a.toNat)) d a) s

/-- R89: `bswap`. -/
def execBswap (d a : IntReg) (s : State) : Host.Outcome State Fault Refusal :=
  word plain false (State.unary (fun a => BitVec.ofNat 64 (leNat (leBytes 8 a.toNat).reverse)) d a) s

/-- R91: `sel` writes a where the old D is nonzero, b otherwise. -/
def execSel (d a b : IntReg) (s : State) : Host.Outcome State Fault Refusal :=
  word plain false (fun s => .ok (s.setX d (if s.x d ≠ 0 then s.x a else s.x b)).retire) s

/-! ## Immediate operations (R92-R94) -/

/-- R92: `addi`. -/
def execAddi (d a : IntReg) (i : BitVec 14) (s : State) : Host.Outcome State Fault Refusal :=
  word { himm := 2 } false (fun s => State.immediate (fun a i => a + i) d a (s.me.imm i) s) s

/-- R92: `andi`. -/
def execAndi (d a : IntReg) (i : BitVec 14) (s : State) : Host.Outcome State Fault Refusal :=
  word { himm := 2 } false (fun s => State.immediate (fun a i => a &&& i) d a (s.me.imm i) s) s

/-- R92: `ori`. -/
def execOri (d a : IntReg) (i : BitVec 14) (s : State) : Host.Outcome State Fault Refusal :=
  word { himm := 2 } false (fun s => State.immediate (fun a i => a ||| i) d a (s.me.imm i) s) s

/-- R92: `xori`. -/
def execXori (d a : IntReg) (i : BitVec 14) (s : State) : Host.Outcome State Fault Refusal :=
  word { himm := 2 } false (fun s => State.immediate (fun a i => a ^^^ i) d a (s.me.imm i) s) s

/-- R93: `slli`. -/
def execSlli (d a n : BitVec 6) (s : State) : Host.Outcome State Fault Refusal :=
  word plain false (State.unary (fun a => a <<< n.toNat) d a) s

/-- R93: `srli`. -/
def execSrli (d a n : BitVec 6) (s : State) : Host.Outcome State Fault Refusal :=
  word plain false (State.unary (fun a => a >>> n.toNat) d a) s

/-- R93: `srai`. -/
def execSrai (d a n : BitVec 6) (s : State) : Host.Outcome State Fault Refusal :=
  word plain false (State.unary (fun a => a.sshiftRight n.toNat) d a) s

/-- R93: `rori`. -/
def execRori (d a n : BitVec 6) (s : State) : Host.Outcome State Fault Refusal :=
  word plain false (State.unary (fun a => a.rotateRight n.toNat) d a) s

/-- R94: `lih` sets bits [63:50] and keeps the others. -/
def execLih (d a : IntReg) (i : BitVec 14) (s : State) : Host.Outcome State Fault Refusal :=
  word plain false (State.unary (fun a => (zext 14 i.toNat <<< 50) ||| (a &&& BitVec.ofNat 64 (2 ^ 50 - 1))) d a) s

/-- R92: `slti`. -/
def execSlti (d a : IntReg) (i : BitVec 14) (s : State) : Host.Outcome State Fault Refusal :=
  word { himm := 2 } false (fun s => State.immediate (fun a i => flagWord (a.slt i)) d a (s.me.imm i) s) s

/-- R92: `sltiu`. -/
def execSltiu (d a : IntReg) (i : BitVec 14) (s : State) : Host.Outcome State Fault Refusal :=
  word { himm := 2 } false (fun s => State.immediate (fun a i => flagWord (a.ult i)) d a (s.me.imm i) s) s

/-- R92: `muli`. -/
def execMuli (d a : IntReg) (i : BitVec 14) (s : State) : Host.Outcome State Fault Refusal :=
  word { himm := 2 } false (fun s => State.immediate (fun a i => a * i) d a (s.me.imm i) s) s

end Sys2Proof.Machine
end

