-- ==== Sys2Proof/Machine/Trust.lean ====
section
/-! DEFINITION. Fuses, attestation, debug modes and access, and the black box (R345-R352). -/

namespace Sys2Proof.Machine

/-! ## FUSERAISE (R315, R345) -/

/-- A fuse counter is raised. FWCTR takes effect at the next cold reset; KCTR acts at once, on the translation cache too. -/
def State.raiseFuse (s : State) (counter v : Nat) : State :=
  let s := if counter = 0 then s.modHub (fun h => { h with fwctrNext := BitVec.ofNat 6 v })
    else { (s.modHub (fun h => { h with kctr := BitVec.ofNat 6 v })) with transCache := s.transCache.filter (fun t => decide (v ≤ t.svn)) }
  s.logEvent 0x0008 0x3FF 0 0 0 v

/-- R345: FUSERAISE. -/
def execFuseraise (s : State) : Host.Outcome State Fault Refusal :=
  command 16 (fun args s =>
    let counter := cmdArg args 0
    let v := cmdArg args 1
    let now := if counter = 0 then s.hub.fwctrNext.toNat else s.hub.kctr.toNat
    if 1 < counter ∨ v ≤ now ∨ 63 < v then s.answer 3 0 0 else (s.raiseFuse counter v).answer 0 0 0) s

/-! ## ATTEST (R346) -/

/-- Exactly `n` bytes of a list. -/
def fit (n : Nat) (l : List Byte) : List Byte := (l ++ List.replicate n 0).take n

/-- The digest over the tuples of a context's Resident kernels (R346). -/
def State.kernelDigest (s : State) (asid : Nat) : List Byte :=
  let tuple : Nat × Kernel → List Byte := fun e => leBytes 2 e.1 ++ leBytes 2 e.2.svn ++ (fit 64 (Config.sha512 e.2.image)).take 12
  fit 64 (Config.sha512 ((s.kernels.filter (fun e => e.2.asid == asid && e.2.st == .resident)).map tuple).flatten)

/-- The body of a report (R346). -/
def State.reportBody (s : State) (nonce : List Byte) (ctx : Option (Nat × Context)) : List Byte :=
  leBytes 8 0x0000000141524C59 ++ fit 64 nonce ++ fit 64 Config.identityDigest ++ fit 64 Config.firmwareDigest ++
    leBytes 3 (s.hub.fwctr.toNat + place 8 s.hub.kctr.toNat + place 16 s.hub.mode.toNat) ++ leBytes 5 0 ++
    (match ctx with | some (a, c) => leBytes 2 a ++ leBytes 4 c.tagWord | none => leBytes 6 0) ++ leBytes 2 0 ++
    (match ctx with | some (a, _) => s.kernelDigest a | none => List.replicate 64 0) ++ List.replicate 232 0

/-- The report is written (R346). -/
def State.report (s : State) (ctx : Option (Nat × Context)) (nonceAt reportAt : Nat) : State :=
  let body := s.reportBody (s.mem.readBytes s.free Cred.shared nonceAt 64) ctx
  let bytes := fit 512 body ++ fit 512 (Config.identitySign body)
  (({ s with free := s.free + 1 }).deviceBy Cred.shared (cellsAt reportAt bytes)).answer 0 0 0

/-- R346: ATTEST. -/
def execAttest (s : State) : Host.Outcome State Fault Refusal :=
  command 17 (fun args s =>
    let device := bitAt (cmdArg args 0) 16
    let ctx := if device then none else (s.contexts.get? (cmdArg args 0)).map (fun c => (cmdArg args 0, c))
    let bad := decide (cmdArg args 1 % 8 ≠ 0) || decide (cmdArg args 2 % 8 ≠ 0) || !readable (cmdArg args 1) 64 || !readable (cmdArg args 2) 1024
    let r := firstRefusal [(ctx.any (fun c => c.2.st == .halted), 2), (bad, 4)]
    if r ≠ 0 then s.answer r 0 0 else s.report ctx (cmdArg args 1) (cmdArg args 2)) s

/-! ## Debug modes (R347-R349) -/

/-- The named context is live: held by a context that is not Halted. -/
def State.liveContext (s : State) (asid : Nat) : Bool := (s.contexts.get? asid).any (fun c => c.st != .halted)

/-- A Halted context becomes Free. -/
def State.freeHeld (s : State) (asid : Nat) : State := match s.contexts.get? asid with | some c => s.freeContext asid c | none => s

/-- Every context goes Halted and then Free (R349). -/
def State.endContexts (s : State) : State :=
  let s := (Sparse.keys s.contexts).foldl State.haltContext s
  (Sparse.keys s.contexts).foldl State.freeHeld s

/-- The message that a debug token signs in this boot (R349): SHA-512 of the identity key's digest followed by BOOTNONCE. -/
def State.tokenMessage (s : State) : List Byte :=
  Config.sha512 (fit 64 Config.identityDigest ++ ((List.range 8).map (fun i => leBytes 8 (Config.bootNonce s.hub.boots i).toNat)).flatten)

/-- A line's tag after every key is erased: what was under the shared key is under a key that is gone. -/
def erasedTag : KeyTag → KeyTag
  | .shared => .ctx Config.sharedSlot 0
  | t => t

/-- A slot that holds no key. -/
def KeySlot.erased (k : KeySlot) : KeySlot := { k with inUse := false }

/-- Every key slot is erased, the shared key included (R349). -/
def State.eraseKeys (s : State) : State :=
  let m := s.mem
  let m := { m with keys := m.keys.map (fun (e : Nat × KeyTag) => (e.1, erasedTag e.2)) }
  let s := { s with keySlots := s.keySlots.map (fun (e : Nat × KeySlot) => (e.1, KeySlot.erased e.2)), mem := m }
  s.logEvent 0x0009 0x3FF 0 0 0 0

/-- The debug mode is set, and the black box told (R345, R349). -/
def State.setMode (s : State) (mode : Nat) (ctx : Nat) : State :=
  (s.modHub (fun h => { h with mode := BitVec.ofNat 2 mode, debugCtx := ctx })).logEvent 0x0007 0x3FF 0 0 0 mode

/-- R349: DEBUGSET. -/
def execDebugset (s : State) : Host.Outcome State Fault Refusal :=
  command 18 (fun args s =>
    let mode := cmdArg args 0
    let asid := cmdArg args 1
    let token := s.mem.readBytes s.free Cred.shared (cmdArg args 2) 512
    let r := firstRefusal
      [(decide (3 < mode), 3), (decide (s.hub.mode = 3) || (decide (mode = 2) && !s.liveContext asid), 2),
       (decide (mode = 3) && !s.hub.dbgauth, 10),
       (decide (mode = 3) && !(readable (cmdArg args 2) 512 && Config.debugTokenOk s.tokenMessage token), 7)]
    if r ≠ 0 then s.answer r 0 0
    else ((if mode = 3 then s.endContexts.eraseKeys else s).setMode mode asid).answer 0 0 0) s

/-! ## Debug access (R347, R348) -/

/-- The strand that a debug access names. -/
def debugStrand : DebugAccess → Option StrandId
  | .readStrandState sid => some sid
  | .readPc sid => some sid
  | .readReg sid _ => some sid
  | .writeReg sid _ _ => some sid
  | .stopStrand sid => some sid
  | .stepStrand sid => some sid
  | .resumeStrand sid => some sid
  | .readQueueOccupancy _ => none
  | .readEngine _ => none
  | .writeEntry .. => none
  | .writeTurn .. => none
  | .readMem _ => none
  | .writeMem _ _ => none

/-- The access is one of mode 1 (R347). -/
def debugPlain : DebugAccess → Bool
  | .readStrandState _ => true
  | .readPc _ => true
  | .readQueueOccupancy _ => true
  | _ => false

/-- Bytes go to the host through the register window. -/
def State.toHost (s : State) (bs : List Byte) : State := s.modHub (fun h => { h with hostOut := h.hostOut ++ [bs] })

/-- The number of a strand state. -/
def stateNumber (t : Strand) : Nat :=
  if t.paused then 4
  else
    match t.st with
    | .halted => 0
    | .idle => 1
    | .running => 2
    | .parked => 3
    | .trapped => 5
    | .evicted => 6

/-- The access reaches this strand (R347): it is one of the context named in mode 2, which a standby strand is not, or the mode is 3. -/
def State.debugShows (s : State) (sid : StrandId) : Bool :=
  s.hub.mode == 3 || (s.hub.mode == 2 && sid.num != 5 && s.asidOf sid.core == some s.hub.debugCtx)

/-- The place of an address of the named context in mode 2, or of a physical address or one in the scratchpad window in mode 3. -/
def State.debugPlace (s : State) (va : Nat) : Option Place :=
  let full := s.hub.mode == 3
  match (if full then some Cred.shared else (s.contexts.get? s.hub.debugCtx).map Context.cred) with
  | none => none
  | some cred =>
    match windowOf (2 ^ 40) va 1 s.coreExists (fun k => full || s.asidOf k == some s.hub.debugCtx) with
    | .spad core off => if core = 2 ^ 40 then none else some (spadPlace cred va core off)
    | .outside =>
      if full then (match physPlace cred va with | .ok p => some p | .error _ => none)
      else
        match s.walk s.hub.debugCtx va with
        | .found e _ => some (s.leafPlace cred e va false)
        | .failed _ => none
    | _ => none

/-- The cluster whose power state decides (R348): that of the strand, of the engine, or of the scratchpad. -/
def State.debugCluster (s : State) (a : DebugAccess) : Option Nat :=
  let ofMem : Nat → Option Nat := fun va =>
    match s.debugPlace va with
    | some p => if isSpad p.loc then some (clusterOf (spadCore p.loc)) else none
    | none => none
  match a with
  | .readQueueOccupancy engine => some (clusterOf engine)
  | .readEngine engine => some (clusterOf engine)
  | .writeEntry engine .. => some (clusterOf engine)
  | .writeTurn engine _ => some (clusterOf engine)
  | .readMem va => ofMem va
  | .writeMem va _ => ofMem va
  | a => (debugStrand a).map (fun sid => clusterOf sid.core)

/-! ### The parts of a strand that are no registers (R347), in words of eight bytes (the model's own layout, assumption 74) -/

/-- Numbers of the waiting operations. -/
def FeOp.number (o : FeOp) : Nat := match o with | .ldc => 0 | .stp => 1 | .ldf => 2

/-- The waiting operation of a number. -/
def FeOp.ofNumber (n : Nat) : FeOp := if n = 1 then .stp else if n = 2 then .ldf else .ldc

/-- Numbers of the access kinds. -/
def Access.number (k : Access) : Nat := match k with | .read => 0 | .write => 1 | .modify => 2 | .fetch => 3

/-- The access kind of a number. -/
def Access.ofNumber (n : Nat) : Access := if n = 1 then .write else if n = 2 then .modify else if n = 3 then .fetch else .read

/-- Numbers of the keys: 0 for the shared key, the owner tag and 1 for a context's. -/
def KeyTag.number (t : KeyTag) : Nat := match t with | .shared => 0 | .ctx slot epoch => 1 + slot % 1024 + 1024 * epoch

/-- The key of a number. -/
def KeyTag.ofNumber (n : Nat) : KeyTag := if n = 0 then .shared else .ctx ((n - 1) % 1024) ((n - 1) / 1024)

/-- The words of a wake condition: its kind, and what it waits with. -/
def Wait.words (w : Wait) : List Nat :=
  match w with
  | .word op d loc => [1, op.number, d.toNat, loc]
  | .barrier arrived d loc gen => [2, flag arrived, d.toNat, loc, gen.toNat]
  | .mailbox receive d loc => [3, flag receive, d.toNat, loc]
  | .tagAny d mask => [4, d.toNat, mask.toNat]
  | .tagAll d mask => [5, d.toNat, mask.toNat]
  | .classes limits => [6, limits.toNat]
  | .ring d => [7, d.toNat]
  | .counter loc cred => [8, loc, cred.key.number, (cred.owner.map (fun t => t.number + 1)).getD 0]
  | .flood d => [9, d.toNat]
  | .event deadline => [10, deadline.toNat]
  | .pager f engine =>
    [11, f.va, f.cause.toNat + 256 * f.kind.number + 1024 * f.level, flag f.posted, flag f.counted, (engine.map (· + 1)).getD 0]

/-- The wake condition that words give. -/
def Wait.ofWords (w : List Nat) : Option Wait :=
  let a := fun (i : Nat) => w.getD i 0
  let r := fun (i : Nat) => BitVec.ofNat 6 (a i)
  match a 0 with
  | 1 => some (.word (FeOp.ofNumber (a 1)) (r 2) (a 3))
  | 2 => some (.barrier (a 1 != 0) (r 2) (a 3) (BitVec.ofNat 32 (a 4)))
  | 3 => some (.mailbox (a 1 != 0) (r 2) (a 3))
  | 4 => some (.tagAny (r 1) (BitVec.ofNat 64 (a 2)))
  | 5 => some (.tagAll (r 1) (BitVec.ofNat 64 (a 2)))
  | 6 => some (.classes (BitVec.ofNat 64 (a 1)))
  | 7 => some (.ring (r 1))
  | 8 => some (.counter (a 1) { key := KeyTag.ofNumber (a 2), owner := if a 3 = 0 then none else some (KeyTag.ofNumber (a 3 - 1)) })
  | 9 => some (.flood (r 1))
  | 10 => some (.event (BitVec.ofNat 64 (a 1)))
  | 11 => some (.pager { va := a 1, cause := BitVec.ofNat 8 (a 2), kind := Access.ofNumber (a 2 / 256 % 4), level := a 2 / 1024,
                         posted := a 3 != 0, counted := a 4 != 0 } (if a 5 = 0 then none else some (a 5 - 1)))
  | _ => none

/-- The words of a pending fence: how many items and numbers of operations it holds, whether a further fence waits for it, and they. -/
def Fence.words (f : Fence) : List Nat := [f.items.length, f.waits.length, flag f.blocks] ++ f.items.flatMap (fun i => [i.1, i.2]) ++ f.waits

/-- The items that words give two by two. -/
def itemsOf (w : List Nat) : List (Nat × Nat) :=
  match w with
  | a :: b :: rest => (a, b) :: itemsOf rest
  | _ => []

/-- Up to `n` pending fences from words. -/
def fencesOf (n : Nat) (w : List Nat) : List Fence :=
  match n, w with
  | k + 1, items :: waits :: blocks :: rest =>
    { items := itemsOf (rest.take (2 * items)), waits := (rest.drop (2 * items)).take waits, blocks := blocks != 0 } ::
      fencesOf k (rest.drop (2 * items + waits))
  | _, _ => []

/-- Words as bytes. -/
def wordBytes (w : List Nat) : List Byte := w.flatMap (leBytes 8)

/-- The first `n` words of eight bytes of a number. -/
def eightsOf (n w : Nat) : List Nat := (List.range n).map (fun i => bitsAt w (64 * i) 64)

/-- The wake condition of the executing strand is written: its wait at a home is withdrawn, and the new one stands there. -/
def State.debugWait (s : State) (w : Option Wait) : State :=
  let s := (s.withdraw s.cur).modMe (fun t => { t with wait := w, served := none })
  let waiter : IntReg → Wait → State := fun d w => { s with waiters := s.waiters ++ [{ who := s.cur, wait := w, data := s.x d, cred := s.cred s.cur }] }
  match w with
  | some (.word op d l) => (waiter d (.word op d l)).roundsAt [l]
  | some (.counter l c) => (waiter 0 (.counter l c)).roundsAt [l]
  | some (.barrier a d l g) => waiter d (.barrier a d l g)
  | some (.mailbox r d l) => waiter d (.mailbox r d l)
  | _ => s

/-- The part is one that mode 2 opens: a register or a part of the tile context. -/
def debugOwn (r : DebugReg) : Bool :=
  match r with
  | .slot _ | .fences | .count _ | .ring _ | .pending | .wait | .woke => false
  | _ => true

/-- The bytes of a part of the executing strand's state (R347). -/
def State.debugRead (s : State) (r : DebugReg) : List Byte :=
  let tile : TReg → Tile := fun t => (s.me.tile.map (fun c => c.tile t.toNat)).getD Tile.zero
  match r with
  | .x n => leBytes 8 (s.regValue (.x n.toNat))
  | .s n => leBytes 8 (s.regValue (.s n.toNat))
  | .v n => leBytes 128 (s.regValue (.v n.toNat))
  | .m n => leBytes 16 (s.regValue (.m n.toNat))
  | .granule n => leBytes 8 (s.me.granule n.toNat).toNat
  | .csr n => if n.toNat < 18 then leBytes 8 (s.csr n.toNat).toNat else []
  | .pc => leBytes 8 s.me.pc.toNat
  | .tile t => leBytes 1024 (tile t).bytes.toNat
  | .tileTag t => leBytes 1 (tile t).tag.toNat
  | .tileSide t => leBytes 64 (tile t).side.toNat
  | .acc cell => leBytes 12 ((s.me.tile.map (fun c => c.cell (cell.toNat / 64 % 64) (cell.toNat % 64))).getD cellZero).toNat
  | .slot n => match s.me.slots.get? n.toNat with | some r => wordBytes [r.lo, r.hi, r.count] | none => wordBytes [0, 0, 0]
  | .fences => wordBytes (s.me.fences.length :: s.me.fences.flatMap Fence.words)
  | .count cls => leBytes 8 (if cls = 0 then s.me.cntIn else if cls = 1 then s.me.cntOut else if cls = 2 then s.me.cntSend else s.me.cntPub)
  | .ring n => leBytes 8 (if n = 0 then s.me.widx else if n = 1 then s.me.ridx else s.me.seq.toNat)
  | .pending => leBytes 1 (flag s.me.irqTimer + 2 * flag s.me.irqPost + 4 * flag s.me.irqHost)
  | .wait => wordBytes ((s.me.wait.map Wait.words).getD [0])
  | .woke => leBytes 1 (flag s.me.woke)

/-- A tile register of the executing strand changes, where it is bound. -/
def State.modTile (s : State) (t : TReg) (f : Tile → Tile) : State :=
  match s.me.tile with
  | none => s
  | some c => s.setTile (c.putTile t.toNat (f (c.tile t.toNat)))

/-- A part of the executing strand's state is written (R347); a control register refuses what `csrw` does. -/
def State.debugWrite (s : State) (r : DebugReg) (w : Nat) : State :=
  match r with
  | .x n => s.setX (BitVec.ofNat 6 n.toNat) (BitVec.ofNat 64 w)
  | .s n => s.setX (BitVec.ofNat 6 (n.toNat + 32)) (BitVec.ofNat 64 w)
  | .v n => s.setV (BitVec.ofNat 5 n.toNat) (BitVec.ofNat 1024 w)
  | .m n => s.setM n (BitVec.ofNat 128 w)
  | .granule n => s.modMe (fun t => t.putGranules n.toNat 1 w)
  | .csr n => if n.toNat < 18 then (match s.csrWrite n.toNat (BitVec.ofNat 64 w) with | .ok t => t | .error _ => s) else s
  | .pc => s.modMe (fun t => { t with pc := BitVec.ofNat 64 (alignDown w 4), sched := false, himm := [], hmod := none, got := [], ahead := 0 })
  | .tile t => s.modTile t (fun q => { q with bytes := BitVec.ofNat 8192 w })
  | .tileTag t => s.modTile t (fun q => { q with tag := BitVec.ofNat 4 w })
  | .tileSide t => s.modTile t (fun q => { q with side := BitVec.ofNat 512 w })
  | .acc cell =>
    match s.me.tile with
    | none => s
    | some c => s.setTile (c.putCells [(cell.toNat % 4096, BitVec.ofNat 96 w)])
  | .slot n => s.modMe (fun t => { t with slots := t.slots.set n.toNat { lo := bitsAt w 0 64, hi := bitsAt w 64 64, count := bitsAt w 128 12 } })
  | .fences => s.modMe (fun t => { t with fences := fencesOf (bitsAt w 0 64) (eightsOf 4096 (w / 2 ^ 64)) })
  | .count cls =>
    s.modMe (fun t =>
      if cls = 0 then { t with cntIn := bitsAt w 0 64 }
      else if cls = 1 then { t with cntOut := bitsAt w 0 64 }
      else if cls = 2 then { t with cntSend := bitsAt w 0 64 }
      else { t with cntPub := bitsAt w 0 64 })
  | .ring n =>
    s.modMe (fun t =>
      if n = 0 then { t with widx := bitsAt w 0 64 }
      else if n = 1 then { t with ridx := bitsAt w 0 64 }
      else { t with seq := BitVec.ofNat 64 w })
  | .pending => s.modMe (fun t => { t with irqTimer := bitAt w 0, irqPost := bitAt w 1, irqHost := bitAt w 2 })
  | .wait => s.debugWait (Wait.ofWords (eightsOf 8 w))
  | .woke => s.modMe (fun t => { t with woke := bitAt w 0 })

/-- The state of an engine (R347): its bound strands, the entry whose turn runs, the waiting entries, each a tid with its priority, its
start priority, the cycle of its last ageing and whether a k-block has run, and the strand of the previous turn. -/
def Engine.bytes (e : Engine) : List Byte :=
  let entry : EngineEntry → List Byte := fun q =>
    leBytes 4 (StrandId.tid q.who) ++ leBytes 1 q.prio ++ leBytes 1 q.base ++ leBytes 8 q.since ++ leBytes 1 (flag q.ran)
  leBytes 1 e.bound.length ++ leBytes 1 e.running.toList.length ++ (e.running.toList.map entry).flatten ++ leBytes 1 e.queue.length ++
    (e.queue.map entry).flatten ++ leBytes 4 e.last

/-- An entry of an engine is written, by its place: the one whose turn runs first. -/
def Engine.putEntry (e : Engine) (index prio since : Nat) : Engine :=
  let put : EngineEntry → EngineEntry := fun q => { q with prio := prio % 4, since := since }
  match e.running, index with
  | some r, 0 => { e with running := some (put r) }
  | some _, n + 1 => { e with queue := e.queue.modify n put }
  | none, n => { e with queue := e.queue.modify n put }

/-- A debug access is done (R347). -/
def State.debugServe (s : State) (a : DebugAccess) : State :=
  let may : StrandId → Bool := fun sid => s.debugShows sid
  let full := s.hub.mode == 3
  match a with
  | .readStrandState sid => s.toHost [BitVec.ofNat 8 (stateNumber (s.strand sid))]
  | .readPc sid =>
    let hidden := (s.asid sid).isSome && !may sid
    s.toHost (leBytes 8 (if hidden then 0 else (s.strand sid).pc.toNat))
  | .readQueueOccupancy e => s.toHost [BitVec.ofNat 8 (s.engine e).occupancy]
  | .readEngine e => if full then s.toHost (s.engine e).bytes else s
  | .writeEntry e i prio since => if full then s.modEngine e (fun q => q.putEntry i prio since) else s
  | .writeTurn e last => if full then s.modEngine e (fun q => { q with last := last }) else s
  | .readReg sid r => if may sid && (full || debugOwn r) then s.toHost (({ s with cur := sid }).debugRead r) else s
  | .writeReg sid r v => if may sid && (full || debugOwn r) then s.asStrand sid (fun s => s.debugWrite r v) else s
  | .stopStrand sid => if may sid then s.modStrand sid (fun t => { t with stopped := true, stepping := false }) else s
  | .stepStrand sid => if may sid then s.modStrand sid (fun t => { t with stepping := t.stopped }) else s
  | .resumeStrand sid => if may sid then s.modStrand sid (fun t => { t with stopped := false, stepping := false }) else s
  | .readMem va =>
    match s.debugPlace va with
    | some p =>
      let s := s.wakeSpad p.loc
      ({ s with free := s.free + 1 }).toHost (if isHub p.loc then s.hubBytes p.loc 1 else s.mem.readBytes s.free p.cred p.loc 1)
    | none => s
  | .writeMem va b =>
    match s.debugPlace va with
    | some p => if isHub p.loc then s.hubStore p.loc [b] else s.deviceBy p.cred [(p.loc, b)]
    | none => s

/-- A cluster wakes for a debug access, to P3 (R348, R357). -/
def State.debugWake (s : State) (k : Nat) : State := s.modCluster k (fun c => { c with curc := 0, curp := 3 })

/-- R347, R348: a host debug access through the open register window is served, held, or wakes its cluster, as the mode and the cluster's
power state have it. -/
def execDebugAccess (access : DebugAccess) (s : State) : Host.Outcome State Fault Refusal :=
  let k := s.debugCluster access
  let c := (k.map (fun k => (s.cluster k).curc)).getD 0
  let wake : State → State := fun s => match k with | some k => if c = 0 then s else s.debugWake k | none => s
  if s.hub.mode = 0 ∨ !s.linkOpen then .next s
  else if s.hub.mode = 1 then .next (if debugPlain access then s.debugServe access else s)
  else if s.hub.mode = 2 then
    if !s.liveContext s.hub.debugCtx then .next (s.modHub (fun h => { h with mode := 1 }))
    else if c = 3 then .next s
    else .next ((wake s).debugServe access)
  else .next ((wake s).debugServe access)

/-! ## The black box (R350-R352) -/

/-- The event that is written next: the earliest to arrive, the lowest SOURCE among those of one mesh cycle (R352). -/
def nextEvent (q : List BbEvent) : Option BbEvent :=
  match q with
  | [] => none
  | e :: rest => some (rest.foldl (fun b x => if x.arrived = e.arrived ∧ x.source < b.source then x else b) e)

/-- The record of an event is written at WIDX (R350, R351). -/
def Hub.writeRecord (h : Hub) (e : BbEvent) (time : Word) : Hub :=
  { h with bbRing := h.bbRing.set h.bbWidx.toNat { time := time, ev := e }, bbWidx := h.bbWidx + 1,
           bbWrap := h.bbWrap || decide (h.bbWidx.toNat = 8191) }

/-- A machine-check event (R352). -/
def BbEvent.freezes (e : BbEvent) : Bool := e.event == 0x0005 && isMachineCheck e.cause

/-- The ring is frozen for the event: FROZEN is set, and the event did not arrive in the mesh cycle that froze it (R352). -/
def Hub.frozenFor (h : Hub) (e : BbEvent) : Bool := h.bbFrozen && decide (h.bbFrozenAt ≠ e.arrived)

/-- A corrected-error event of a source that was written less than 1 ms ago (R352). -/
def Hub.tooSoon (h : Hub) (e : BbEvent) (now : Nat) : Bool :=
  e.event == 0x000A && (h.bbCorrected.get? e.source.toNat).any (fun t => decide (now < t + 1000000))

/-- An event is written, and freezes the ring where it is a machine check. -/
def State.recordEvent (s : State) (e : BbEvent) : State :=
  let s := s.modHub (fun h => h.writeRecord e s.time)
  let s := if e.event = 0x000A then s.modHub (fun h => { h with bbCorrected := h.bbCorrected.set e.source.toNat s.clk.time }) else s
  if e.freezes && !s.hub.bbFrozen then
    (s.modHub (fun h => { h with bbFrozen := true, bbFrozenAt := e.arrived, bbCause := e.cause })).tellHost 1
  else s

/-- The mesh cycle that passes now (R15). -/
def State.meshNow (s : State) : Nat := s.clk.cycles * 2 / 3

/-- R352: an event that has arrived at the hub, all of whose mesh cycle has arrived with it, is written to the black box, one in a mesh cycle, or
is counted as lost while the ring is frozen. -/
def execBlackBoxWrite (s : State) : Host.Outcome State Fault Refusal :=
  match nextEvent s.hub.bbQueue with
  | none => .next s
  | some e =>
    if s.meshNow ≤ e.arrived ∨ s.hub.bbWroteAt = some s.meshNow then .next s
    else
      let s := s.modHub (fun h => { h with bbQueue := h.bbQueue.erase e })
      if s.hub.frozenFor e then
        .next (s.modHub (fun h => { h with bbLost := if h.bbLost = 0xFFFFFFFF then h.bbLost else h.bbLost + 1 }))
      else if s.hub.tooSoon e s.clk.time then .next s
      else .next ((s.recordEvent e).modHub (fun h => { h with bbWroteAt := some s.meshNow }))

/-- R350: UNFREEZE. -/
def execBbctlUnfreeze (s : State) : Host.Outcome State Fault Refusal :=
  .next (if s.linkOpen || s.hub.phase == 15 then s.unfreeze else s)

end Sys2Proof.Machine
end

