-- ==== Sys2Proof/Machine/Vector.lean ====
section
/-! DEFINITION. Vector integer operations, permutes, reductions and mask operations (R129-R135, R146, R147, R149). -/

namespace Sys2Proof.Machine

/-! ## Elements and masks (R129, R131) -/

/-- Element `i` of width `w` bytes. -/
def elemAt (v : VWord) (w i : Nat) : Nat := bitsAt v.toNat (8 * w * i) (8 * w)

/-- Element `i` of width `w` is active. -/
def activeAt (k : MWord) (w i : Nat) : Bool := bitAt k.toNat (w * i)

/-- The active elements, ascending. -/
def actives (k : MWord) (w : Nat) : List Nat := (List.range (128 / w)).filter (activeAt k w)

/-- A vector with the listed elements of width `w` replaced. -/
def putElems (v : VWord) (w : Nat) (es : List (Nat × Nat)) : VWord :=
  es.foldl (fun v e => putBits v (8 * w * e.1) (8 * w) e.2) v

/-- The mask whose bits are set for the listed elements of width `w`. -/
def maskOf (w : Nat) (is : List Nat) : MWord := is.foldl (fun m i => putBits m (w * i) w (2 ^ w - 1)) 0

/-- The width in bytes that an integer WIDTH code names (R129). -/
def intWidth (w : BitVec 2) : Nat := 2 ^ w.toNat

/-! ## Integer operations (R134) -/

/-- A form with a vector result. -/
def State.vInt (f : (n : Nat) → BitVec n → BitVec n → BitVec n) (d a b : VReg) (k : MReg) (w : BitVec 2) (s : State) : Run :=
  let n := intWidth w
  let es := (actives (s.m k) n).map (fun i =>
    (i, (f (8 * n) (BitVec.ofNat _ (elemAt (s.v a) n i)) (BitVec.ofNat _ (elemAt (s.v b) n i))).toNat))
  .ok (s.setV d (putElems (s.v d) n es)).retire

/-- A form with a mask result. -/
def State.vIntMask (f : (n : Nat) → BitVec n → BitVec n → Bool) (d : MReg) (a b : VReg) (k : MReg) (w : BitVec 2) (s : State) : Run :=
  let n := intWidth w
  let is := (actives (s.m k) n).filter (fun i =>
    f (8 * n) (BitVec.ofNat _ (elemAt (s.v a) n i)) (BitVec.ofNat _ (elemAt (s.v b) n i)))
  .ok (s.setM d (maskOf n is)).retire

/-- R134: `vadd`. -/
def execVadd (d a b : VReg) (k : MReg) (w : BitVec 2) (s : State) : Host.Outcome State Fault Refusal :=
  word plain false (State.vInt (fun _ a b => a + b) d a b k w) s

/-- R134: `vsub`. -/
def execVsub (d a b : VReg) (k : MReg) (w : BitVec 2) (s : State) : Host.Outcome State Fault Refusal :=
  word plain false (State.vInt (fun _ a b => a - b) d a b k w) s

/-- R134: `vmul`. -/
def execVmul (d a b : VReg) (k : MReg) (w : BitVec 2) (s : State) : Host.Outcome State Fault Refusal :=
  word plain false (State.vInt (fun _ a b => a * b) d a b k w) s

/-- R134: `vmulh`. -/
def execVmulh (d a b : VReg) (k : MReg) (w : BitVec 2) (s : State) : Host.Outcome State Fault Refusal :=
  word plain false (State.vInt (fun n a b => BitVec.ofInt n (a.toInt * b.toInt / 2 ^ n)) d a b k w) s

/-- R134: `vand`. -/
def execVand (d a b : VReg) (k : MReg) (w : BitVec 2) (s : State) : Host.Outcome State Fault Refusal :=
  word plain false (State.vInt (fun _ a b => a &&& b) d a b k w) s

/-- R134: `vor`. -/
def execVor (d a b : VReg) (k : MReg) (w : BitVec 2) (s : State) : Host.Outcome State Fault Refusal :=
  word plain false (State.vInt (fun _ a b => a ||| b) d a b k w) s

/-- R134: `vxor`. -/
def execVxor (d a b : VReg) (k : MReg) (w : BitVec 2) (s : State) : Host.Outcome State Fault Refusal :=
  word plain false (State.vInt (fun _ a b => a ^^^ b) d a b k w) s

/-- R134: `vsll`. -/
def execVsll (d a b : VReg) (k : MReg) (w : BitVec 2) (s : State) : Host.Outcome State Fault Refusal :=
  word plain false (State.vInt (fun n a b => a <<< (b.toNat % n)) d a b k w) s

/-- R134: `vsrl`. -/
def execVsrl (d a b : VReg) (k : MReg) (w : BitVec 2) (s : State) : Host.Outcome State Fault Refusal :=
  word plain false (State.vInt (fun n a b => a >>> (b.toNat % n)) d a b k w) s

/-- R134: `vsra`. -/
def execVsra (d a b : VReg) (k : MReg) (w : BitVec 2) (s : State) : Host.Outcome State Fault Refusal :=
  word plain false (State.vInt (fun n a b => a.sshiftRight (b.toNat % n)) d a b k w) s

/-- R134: `vmin`. -/
def execVmin (d a b : VReg) (k : MReg) (w : BitVec 2) (s : State) : Host.Outcome State Fault Refusal :=
  word plain false (State.vInt (fun _ a b => if b.slt a then b else a) d a b k w) s

/-- R134: `vmax`. -/
def execVmax (d a b : VReg) (k : MReg) (w : BitVec 2) (s : State) : Host.Outcome State Fault Refusal :=
  word plain false (State.vInt (fun _ a b => if a.slt b then b else a) d a b k w) s

/-- R134: `vminu`. -/
def execVminu (d a b : VReg) (k : MReg) (w : BitVec 2) (s : State) : Host.Outcome State Fault Refusal :=
  word plain false (State.vInt (fun _ a b => if b.ult a then b else a) d a b k w) s

/-- R134: `vmaxu`. -/
def execVmaxu (d a b : VReg) (k : MReg) (w : BitVec 2) (s : State) : Host.Outcome State Fault Refusal :=
  word plain false (State.vInt (fun _ a b => if a.ult b then b else a) d a b k w) s

/-- R134: `vcmp.eq`. -/
def execVcmpEq (d : MReg) (a b : VReg) (k : MReg) (w : BitVec 2) (s : State) : Host.Outcome State Fault Refusal :=
  word plain false (State.vIntMask (fun _ a b => a == b) d a b k w) s

/-- R134: `vcmp.lt`. -/
def execVcmpLt (d : MReg) (a b : VReg) (k : MReg) (w : BitVec 2) (s : State) : Host.Outcome State Fault Refusal :=
  word plain false (State.vIntMask (fun _ a b => a.slt b) d a b k w) s

/-- R134: `vcmp.ltu`. -/
def execVcmpLtu (d : MReg) (a b : VReg) (k : MReg) (w : BitVec 2) (s : State) : Host.Outcome State Fault Refusal :=
  word plain false (State.vIntMask (fun _ a b => a.ult b) d a b k w) s

/-- A byte under format code 0, INT8, or 1, UINT8 (R135). -/
def dotVal (f w : Nat) : Int := if f = 0 then toSigned 8 w else ((w % 256 : Nat) : Int)

/-- The four-byte dot product of lane `j` (R135). -/
def dot4 (fa fb : Nat) (a b : VWord) (j : Nat) : Int :=
  ((List.range 4).map (fun i => dotVal fa (elemAt a 1 (4 * j + i)) * dotVal fb (elemAt b 1 (4 * j + i)))).sum

/-- R135: `vdot4`. -/
def execVdot4 (d a b : VReg) (k : MReg) (s : State) : Host.Outcome State Fault Refusal :=
  word { fmt := true } false (fun s =>
    let fa := s.me.afmt 0
    let fb := s.me.bfmt 0
    if 1 < fa ∨ 1 < fb then .error (trapOf 0x09)
    else
      let es := (actives (s.m k) 4).map (fun j =>
        (j, (BitVec.ofInt 32 (elemAt (s.v d) 4 j + dot4 fa fb (s.v a) (s.v b) j)).toNat))
      .ok (s.setV d (putElems (s.v d) 4 es)).retire) s

/-! ## Permutes (R146) -/

/-- A permute form: the elements that are active take what `f` gives. -/
def State.permute (f : Nat → Nat → Nat) (d : VReg) (k : MReg) (w : BitVec 2) (s : State) : Run :=
  let n := intWidth w
  .ok (s.setV d (putElems (s.v d) n ((actives (s.m k) n).map (fun i => (i, f n i))))).retire

/-- R146: `vperm`. -/
def execVperm (d a b : VReg) (k : MReg) (w : BitVec 2) (s : State) : Host.Outcome State Fault Refusal :=
  word plain false (fun s => s.permute (fun n i => elemAt (s.v a) n (elemAt (s.v b) n i % (128 / n))) d k w) s

/-- R146: `vslide`. -/
def execVslide (d a : VReg) (b : XReg) (k : MReg) (w : BitVec 2) (s : State) : Host.Outcome State Fault Refusal :=
  word plain false (fun s => s.permute (fun n i =>
    let j : Int := i + (s.xr b).toInt
    if 0 ≤ j ∧ j < ((128 / n : Nat) : Int) then elemAt (s.v a) n j.toNat else 0) d k w) s

/-- R146: `vbcast`. -/
def execVbcast (d : VReg) (a : XReg) (k : MReg) (w : BitVec 2) (s : State) : Host.Outcome State Fault Refusal :=
  word plain false (fun s => s.permute (fun _ _ => (s.xr a).toNat) d k w) s

/-- R146: `vext`. -/
def execVext (d : XReg) (a : VReg) (b : XReg) (w : BitVec 2) (s : State) : Host.Outcome State Fault Refusal :=
  word plain false (fun s =>
    let n := intWidth w
    .ok (s.setXr d (sext (8 * n) (elemAt (s.v a) n ((s.xr b).toNat % (128 / n))))).retire) s

/-! ## Reductions (R147) -/

/-- A signed reduction of the active elements, from a value for none. -/
def State.reduce (f : Int → Int → Int) (none_ : Nat → Int) (d : XReg) (a : VReg) (k : MReg) (w : BitVec 2) (s : State) : Run :=
  let n := intWidth w
  let r := ((actives (s.m k) n).map (fun i => toSigned (8 * n) (elemAt (s.v a) n i))).foldl f (none_ (8 * n))
  .ok (s.setXr d (sext (8 * n) (BitVec.ofInt 64 r).toNat)).retire

/-- R147: `vred.add`. -/
def execVredAdd (d : XReg) (a : VReg) (k : MReg) (w : BitVec 2) (s : State) : Host.Outcome State Fault Refusal :=
  word plain false (State.reduce (· + ·) (fun _ => 0) d a k w) s

/-- R147: `vred.min`. -/
def execVredMin (d : XReg) (a : VReg) (k : MReg) (w : BitVec 2) (s : State) : Host.Outcome State Fault Refusal :=
  word plain false (State.reduce min (fun n => 2 ^ (n - 1) - 1) d a k w) s

/-- R147: `vred.max`. -/
def execVredMax (d : XReg) (a : VReg) (k : MReg) (w : BitVec 2) (s : State) : Host.Outcome State Fault Refusal :=
  word plain false (State.reduce max (fun n => -(2 ^ (n - 1))) d a k w) s

/-! ## Masks (R149) -/

/-- R149: `mand`. -/
def execMand (d a b : MReg) (s : State) : Host.Outcome State Fault Refusal :=
  word plain false (fun s => .ok (s.setM d (s.m a &&& s.m b)).retire) s

/-- R149: `mor`. -/
def execMor (d a b : MReg) (s : State) : Host.Outcome State Fault Refusal :=
  word plain false (fun s => .ok (s.setM d (s.m a ||| s.m b)).retire) s

/-- R149: `mxor`. -/
def execMxor (d a b : MReg) (s : State) : Host.Outcome State Fault Refusal :=
  word plain false (fun s => .ok (s.setM d (s.m a ^^^ s.m b)).retire) s

/-- R149: `mnot`. -/
def execMnot (d a : MReg) (s : State) : Host.Outcome State Fault Refusal :=
  word plain false (fun s => .ok (s.setM d (~~~(s.m a))).retire) s

/-- R149: `msetn`. -/
def execMsetn (d : MReg) (a : XReg) (s : State) : Host.Outcome State Fault Refusal :=
  word plain false (fun s => .ok (s.setM d (BitVec.ofNat 128 (2 ^ Nat.min (s.xr a).toNat 128 - 1))).retire) s

/-- R149: `mpop`. -/
def execMpop (d : XReg) (a : MReg) (s : State) : Host.Outcome State Fault Refusal :=
  word plain false (fun s => .ok (s.setXr d (BitVec.ofNat 64 (countBits 128 (s.m a).toNat))).retire) s

/-- R149: `mfirst`. -/
def execMfirst (d : XReg) (a : MReg) (s : State) : Host.Outcome State Fault Refusal :=
  word plain false (fun s => .ok (s.setXr d (BitVec.ofNat 64 (lowestBit 128 (s.m a).toNat))).retire) s

end Sys2Proof.Machine
end

