-- ==== Sys2Proof/Machine/VectorFp.lean ====
section
/-! DEFINITION. Vector IEEE and elastic operations, and the order-independent reduction (R130, R132, R136-R139, R148). -/

namespace Sys2Proof.Machine

/-! ## IEEE elements (R136-R138) -/

/-- The format code that a WIDTH of major 0x21 names (R129). -/
def vfCode (w : BitVec 3) : Nat := [4, 5, 6, 8, 2, 3].getD w.toNat 4

/-- Width in bytes of an IEEE type. -/
def vfWidth (w : BitVec 3) : Nat := elemSize (vfCode w)

/-- The arithmetic trap of a list of element results, if one is raised (R132). -/
def elementTrap {α : Type} (nte : Bool) (efmt : Word) (rs : List (Nat × Arith α)) : Except Trap Unit :=
  match firstCause nte rs with
  | some (c, i) => .error { cause := c, eidx := BitVec.ofNat 64 i, efmt := efmt }
  | none => .ok ()

/-- The strand that a subnormal element delays forfeits its next 8 fetches (R85). -/
def State.subnormalService (s : State) (served : Bool) : State :=
  if served then s.modMe (fun t => { t with forfeit := t.forfeit + 8 }) else s

/-- A VFLT form with a vector result: every active element, the traps of R132, the flags, and the subnormal service. -/
def State.vFp (f : Fmt → Nat → Bool → Nat → Nat → Nat → Arith Nat) (ar : Nat) (d a b : VReg) (k : MReg) (w : BitVec 3) (s : State) : Run :=
  let c := vfCode w
  let n := vfWidth w
  let m := fmtOf c
  let el : VReg → Nat → Nat := fun r i => elemAt (s.v r) n i
  let rs := (actives (s.m k) n).map (fun i => (i, f m s.me.mode s.me.ovf (el a i) (el b i) (el d i)))
  match elementTrap s.me.nte (efmtOf c (if ar = 1 then 0 else c) c) rs with
  | .error e => .error e
  | .ok _ =>
    let sub := rs.any (fun r => m.subnormal (el a r.1) || (ar != 1 && m.subnormal (el b r.1)) || (ar == 3 && m.subnormal (el d r.1)) ||
      m.subnormal r.2.val || r.2.fl.uf)
    .ok (((s.setV d (putElems (s.v d) n (rs.map (fun r => (r.1, r.2.val))))).accrue (unionFlags rs)).subnormalService sub).retire

/-- R136: `vfadd`. -/
def execVfadd (d a b : VReg) (k : MReg) (w : BitVec 3) (s : State) : Host.Outcome State Fault Refusal :=
  word { fmt := true } false (State.vFp (fun m r v x y _ => ElOp.add.ieee m r v x y 0) 2 d a b k w) s

/-- R136: `vfsub`. -/
def execVfsub (d a b : VReg) (k : MReg) (w : BitVec 3) (s : State) : Host.Outcome State Fault Refusal :=
  word { fmt := true } false (State.vFp (fun m r v x y _ => ElOp.sub.ieee m r v x y 0) 2 d a b k w) s

/-- R136: `vfmul`. -/
def execVfmul (d a b : VReg) (k : MReg) (w : BitVec 3) (s : State) : Host.Outcome State Fault Refusal :=
  word { fmt := true } false (State.vFp (fun m r v x y _ => ElOp.mul.ieee m r v x y 0) 2 d a b k w) s

/-- R136: `vfdiv`. -/
def execVfdiv (d a b : VReg) (k : MReg) (w : BitVec 3) (s : State) : Host.Outcome State Fault Refusal :=
  word { fmt := true } false (State.vFp (fun m r v x y _ => ElOp.div.ieee m r v x y 0) 2 d a b k w) s

/-- R136: `vfsqrt`. -/
def execVfsqrt (d a : VReg) (k : MReg) (w : BitVec 3) (s : State) : Host.Outcome State Fault Refusal :=
  word { fmt := true } false (State.vFp (fun m r v x _ _ => ElOp.sqrt.ieee m r v x 0 0) 1 d a 0 k w) s

/-- R136: `vfma`. -/
def execVfma (d a b : VReg) (k : MReg) (w : BitVec 3) (s : State) : Host.Outcome State Fault Refusal :=
  word { fmt := true } false (State.vFp (fun m r v x y z => ElOp.fma.ieee m r v x y z) 3 d a b k w) s

/-- An operand of `vfmin` or `vfmax` unchanged, A made quiet where both are NaNs (R137). -/
def vfPick (big : Bool) (m : Fmt) (x y : Nat) : Arith Nat :=
  let a := m.decode x
  let b := m.decode y
  { val := if a.isNan && b.isNan then m.quiet a else minMax big a b x y, fl := { nv := a.isSnan || b.isSnan } }

/-- R137: `vfmin`. -/
def execVfmin (d a b : VReg) (k : MReg) (w : BitVec 3) (s : State) : Host.Outcome State Fault Refusal :=
  word { fmt := true } false (State.vFp (fun m _ _ x y _ => vfPick false m x y) 2 d a b k w) s

/-- R137: `vfmax`. -/
def execVfmax (d a b : VReg) (k : MReg) (w : BitVec 3) (s : State) : Host.Outcome State Fault Refusal :=
  word { fmt := true } false (State.vFp (fun m _ _ x y _ => vfPick true m x y) 2 d a b k w) s

/-- An IEEE comparison into a mask (R137). `loud` says that any NaN operand sets NV, and not a signalling one alone. -/
def State.vFpMask (f : Val → Val → Bool) (loud : Bool) (d : MReg) (a b : VReg) (k : MReg) (w : BitVec 3) (s : State) : Run :=
  let n := vfWidth w
  let m := fmtOf (vfCode w)
  let is := actives (s.m k) n
  let el : VReg → Nat → Nat := fun r i => elemAt (s.v r) n i
  let nv := is.any (fun i =>
    let x := m.decode (el a i)
    let y := m.decode (el b i)
    x.isSnan || y.isSnan || (loud && (x.isNan || y.isNan)))
  let sub := is.any (fun i => m.subnormal (el a i) || m.subnormal (el b i))
  .ok (((s.setM d (maskOf n (is.filter (fun i => f (m.decode (el a i)) (m.decode (el b i)))))).accrue { nv := nv }).subnormalService
    sub).retire

/-- R137: `vfcmp.eq`. -/
def execVfcmpEq (d : MReg) (a b : VReg) (k : MReg) (w : BitVec 3) (s : State) : Host.Outcome State Fault Refusal :=
  word { fmt := true } false (State.vFpMask (fun x y => x.eqv y) false d a b k w) s

/-- R137: `vfcmp.lt`. -/
def execVfcmpLt (d : MReg) (a b : VReg) (k : MReg) (w : BitVec 3) (s : State) : Host.Outcome State Fault Refusal :=
  word { fmt := true } false (State.vFpMask (fun x y => !x.isNan && !y.isNan && x.lt y) true d a b k w) s

/-- R137: `vfcmp.le`. -/
def execVfcmpLe (d : MReg) (a b : VReg) (k : MReg) (w : BitVec 3) (s : State) : Host.Outcome State Fault Refusal :=
  word { fmt := true } false (State.vFpMask (fun x y => !x.isNan && !y.isNan && !y.lt x) true d a b k w) s

/-- R137: `vfcmp.un`. -/
def execVfcmpUn (d : MReg) (a b : VReg) (k : MReg) (w : BitVec 3) (s : State) : Host.Outcome State Fault Refusal :=
  word { fmt := true } false (State.vFpMask (fun x y => x.isNan || y.isNan) false d a b k w) s

/-- R138: `vfcvt`. -/
def State.vConvert (d a : VReg) (st : BitVec 3) (k : MReg) (w : BitVec 3) (s : State) : Run :=
  let wd := vfWidth w
  let ws := vfWidth st
  let wide := Nat.max wd ws
  let src := fmtOf (vfCode st)
  let dst := fmtOf (vfCode w)
  let is := (List.range (128 / wide)).filter (fun i => bitAt (s.m k).toNat (i * wd))
  let rs := is.map (fun i => (i, ieeeToIeee src dst s.me.mode s.me.ovf (elemAt (s.v a) ws i)))
  match elementTrap s.me.nte (efmtOf (vfCode st) 0 (vfCode w)) rs with
  | .error e => .error e
  | .ok _ =>
    let v := putElems (s.v d) wd (rs.map (fun r => (r.1, r.2.val)))
    let v := if wd < wide then BitVec.ofNat 1024 (v.toNat % 2 ^ (8 * (128 / wide * wd))) else v
    let sub := rs.any (fun r => src.subnormal (elemAt (s.v a) ws r.1) || dst.subnormal r.2.val || r.2.fl.uf)
    .ok (((s.setV d v).accrue (unionFlags rs)).subnormalService sub).retire

/-- R138: `vfcvt`. -/
def execVfcvt (d a : VReg) (st : BitVec 3) (k : MReg) (w : BitVec 3) (s : State) : Host.Outcome State Fault Refusal :=
  word { fmt := true } false (State.vConvert d a st k w) s

/-! ## Elastic lanes (R130, R139) -/

/-- Lanes of an elastic vector at length `p`. -/
def lanes (p : Nat) : Nat := 16 / windowLen p

/-- Width of an elastic lane in bytes. -/
def laneWidth (p : Nat) : Nat := 8 * windowLen p

/-- The active elastic lanes, ascending. -/
def activeLanes (k : MWord) (p : Nat) : List Nat := (List.range (lanes p)).filter (activeAt k (laneWidth p))

/-- The first malformed lane of a list (R132 step 2). The trap leaves EFMT zero: no operand format is at fault (DEDUCED, assumption 104). -/
def lanesOk (v : VWord) (p : Nat) (is : List Nat) : Except Trap Unit :=
  match is.find? (fun i => elBadAt p (elemAt v (laneWidth p) i)) with
  | some i => .error { cause := 0x42, eidx := BitVec.ofNat 64 i }
  | none => .ok ()

/-- A lane's value. -/
def laneVal (v : VWord) (p i : Nat) : Val := elDecode (elemAt v (laneWidth p) i)

/-- Elastic lanes written: granule 15 becomes zero at L = 3 (R130). -/
def putLanes (v : VWord) (p : Nat) (es : List (Nat × Val)) : VWord :=
  let v := putElems v (laneWidth p) (es.map (fun e => (e.1, elEncode p e.2)))
  if windowLen p = 3 then putBits v 960 64 0 else v

/-- A vector elastic form (R139). -/
def State.vElastic (op : ElOp) (third : Bool) (d a b : VReg) (k : MReg) (s : State) : Run :=
  let p := s.me.p
  let is := activeLanes (s.m k) p
  match lanesOk (s.v a) p is with
  | .error e => .error e
  | .ok _ =>
    match lanesOk (s.v b) p is with
    | .error e => .error e
    | .ok _ =>
      match (if third then lanesOk (s.v d) p is else .ok ()) with
      | .error e => .error e
      | .ok _ =>
        let rs := is.map (fun i => (i, op.run p s.me.rm (laneVal (s.v a) p i) (laneVal (s.v b) p i) (laneVal (s.v d) p i)))
        match elementTrap s.me.nte (efmtOf 9 9 9) rs with
        | .error e => .error e
        | .ok _ => .ok ((s.setV d (putLanes (s.v d) p (rs.map (fun r => (r.1, r.2.val))))).accrue (unionFlags rs)).retire

/-- R139: `veadd`. -/
def execVeadd (d a b : VReg) (k : MReg) (s : State) : Host.Outcome State Fault Refusal :=
  word plain false (State.vElastic .add false d a b k) s

/-- R139: `vesub`. -/
def execVesub (d a b : VReg) (k : MReg) (s : State) : Host.Outcome State Fault Refusal :=
  word plain false (State.vElastic .sub false d a b k) s

/-- R139: `vemul`. -/
def execVemul (d a b : VReg) (k : MReg) (s : State) : Host.Outcome State Fault Refusal :=
  word plain false (State.vElastic .mul false d a b k) s

/-- R139: `vefma`. -/
def execVefma (d a b : VReg) (k : MReg) (s : State) : Host.Outcome State Fault Refusal :=
  word plain false (State.vElastic .fma true d a b k) s

/-! ## The order-independent reduction (R148) -/

/-- `vred.ew.el`: the window sum of the active lanes of A and lane 0 of B, into lane 0. -/
def State.sumElastic (d a b : VReg) (k : MReg) (s : State) : Run :=
  let p := s.me.p
  let is := activeLanes (s.m k) p
  match lanesOk (s.v a) p is with
  | .error e => .error e
  | .ok _ =>
    match lanesOk (s.v b) p [0] with
    | .error e => .error e
    | .ok _ =>
      let r := windowSum p s.me.mode (is.map (laneVal (s.v a) p) ++ [laneVal (s.v b) p 0])
      match elementTrap s.me.nte (efmtOf 9 9 9) [(0, r)] with
      | .error e => .error e
      | .ok _ => .ok ((s.setV d (putLanes (s.v d) p [(0, r.val)])).accrue r.fl).retire

/-- `vred.ew` at an IEEE type. -/
def State.sumIeee (d a b : VReg) (k : MReg) (w : BitVec 3) (s : State) : Run :=
  let n := vfWidth w
  let c := vfCode w
  let m := fmtOf c
  let is := actives (s.m k) n
  let r := windowIeee m s.me.mode (is.map (fun i => m.decode (elemAt (s.v a) n i)) ++ [m.decode (elemAt (s.v b) n 0)])
  match elementTrap s.me.nte (efmtOf c c c) [(0, r)] with
  | .error e => .error e
  | .ok _ => .ok ((s.setV d (putElems (s.v d) n [(0, r.val)])).accrue r.fl).retire

/-- R148: `vred.ew`. -/
def execVredEw (d a b : VReg) (k : MReg) (w : BitVec 3) (s : State) : Host.Outcome State Fault Refusal :=
  word { fmt := true } false (fun s => if w = 7 then s.sumElastic d a b k else s.sumIeee d a b k w) s

end Sys2Proof.Machine
end

