-- ==== Sys2Proof/Machine/VectorMem.lean ====
section
/-! DEFINITION. Vector memory access (R140-R145). -/

namespace Sys2Proof.Machine

/-- A trap of element `i` (R142). -/
def Trap.element (e : Trap) (i : Nat) : Trap := { e with eidx := BitVec.ofNat 64 i }

/-- The addresses of a form's active elements: base plus `step` for each. -/
def elementAddrs (k : MWord) (w : Nat) (base : Word) (step : Nat → Word) : List (Nat × Nat) :=
  (actives k w).map (fun i => (i, (base + step i).toNat))

/-- The ranges of the elements' bytes. -/
def elementRanges (w : Nat) (es : List (Nat × Nat)) : List (Nat × Nat) := es.map (fun e => (e.2, e.2 + w))

/-- The offset of a gather or scatter element (R140). -/
def indexStep (v : VWord) (w i : Nat) : Word := sext (8 * w) (elemAt v w i) * BitVec.ofNat 64 w

/-- The checks of one element that is no unit-stride one (R97, R142). -/
def State.elementPlace (s : State) (ea w : Nat) (kind : Access) : Except Trap (Place × State) :=
  if ea % w ≠ 0 then .error (trapAt 0x21 ea)
  else
    match s.reach ea w kind false with
    | .error e => .error e
    | .ok (.reg off, _) => .error (s.regTrap ea off w)
    | .ok (.mem p, s') =>
      match s'.admits p w kind with
      | .error e => .error e
      | .ok _ => .ok (p, s')

/-- Some offset of `n` bytes from one on names no register (R14). -/
def State.unnamed (s : State) (off n : Nat) : Bool := (List.range n).any (fun i => (regNamed s.me.p (off + i) 1).isNone)

/-- The footprint of a vector instruction, one access for the window checks, meets a condition of R14 under which the whole access traps
0x29: an unpopulated part, an offset that names no register, or a window or the register space met only in part. -/
def State.footBad (s : State) (n : Nat) (es : List (Nat × Nat)) : Bool :=
  let ws := es.map (fun e => s.window s.cur e.2 n)
  let regs := fun (x : Window) => match x with | .regs _ => true | _ => false
  ws.contains (.bad 0x29) || (ws.contains .outside && ws.any (fun x => x != .outside)) || (ws.any regs && ws.any (fun x => !regs x)) ||
    ws.any (fun x => match x with | .regs o => s.unnamed o n | _ => false)

/-- The window checks of R14 over the footprint of a strided, gathered or scattered form, or of one of records. Every active element fails
there, so the lowest one is reported, with the failure of its alignment first (R97, R142; DEDUCED, assumption 33). -/
def State.footCheck (s : State) (n al : Nat) (es : List (Nat × Nat)) : Except Trap Unit :=
  match es with
  | [] => .ok ()
  | (i, ea) :: _ => if s.footBad n es then .error ((trapAt (if ea % al = 0 then 0x29 else 0x21) ea).element i) else .ok ()

/-- The checks of every element before any access; the lowest that fails decides (R141, R142). -/
def State.elementPlaces (s : State) (w : Nat) (kind : Access) (es : List (Nat × Nat)) :
    Except Trap (List (Nat × Place) × State) :=
  match es with
  | [] => .ok ([], s)
  | (i, ea) :: rest =>
    match s.elementPlace ea w kind with
    | .error e => .error (e.element i)
    | .ok (p, s1) =>
      match s1.elementPlaces w kind rest with
      | .error e => .error e
      | .ok (ps, s2) => .ok ((i, p) :: ps, s2)

/-- The checks of every element, those of the whole footprint first. -/
def State.footPlaces (s : State) (w : Nat) (kind : Access) (es : List (Nat × Nat)) : Except Trap (List (Nat × Place) × State) :=
  match s.footCheck w w es with
  | .error e => .error e
  | .ok _ => s.elementPlaces w kind es

/-- Loads elements in order, each one access. -/
def State.loadElems (s : State) (w : Nat) (nofwd : Bool) (h : Hints) (ps : List (Nat × Place)) :
    Except Trap (List (Nat × Nat) × State) :=
  match ps with
  | [] => .ok ([], s)
  | (i, p) :: rest =>
    match s.loadMem p w nofwd h with
    | .error e => .error e
    | .ok r =>
      match r.2.loadElems w nofwd h rest with
      | .error e => .error e
      | .ok q => .ok ((i, leNat r.1) :: q.1, q.2)

/-- Stores elements in order, each one access. -/
def State.storeElems (s : State) (w : Nat) (h : Hints) (v : VWord) (ps : List (Nat × Place)) : Run :=
  match ps with
  | [] => .ok s
  | (i, p) :: rest =>
    match s.storeMem p (leBytes w (elemAt v w i)) h with
    | .error e => .error e
    | .ok s' => s'.storeElems w h v rest

/-- The hints of a vector access (R54, R140). -/
def Strand.vHints (t : Strand) : Hints := { l1 := t.hmod != some false }

/-- A load of elements, all or nothing (R141). -/
def State.vLoad (d : VReg) (w : Nat) (es : List (Nat × Nat)) (s : State) : Run :=
  s.unlessHeld (elementRanges w es)
    (match s.footPlaces w .read es with
     | .error e => .error e
     | .ok (ps, s') =>
       match (s'.pin (ps.map (·.2))).loadElems w (s.me.hmod == some true) s.me.vHints ps with
       | .error e => .error e
       | .ok r => .ok (r.2.setV d (putElems (s.v d) w r.1)).retire)

/-- A store of elements, all or nothing (R141). -/
def State.vStore (d : VReg) (w : Nat) (es : List (Nat × Nat)) (s : State) : Run :=
  s.unlessHeld (elementRanges w es)
    (match s.footPlaces w .write es with
     | .error e => .error e
     | .ok (ps, s') => ((s'.pin (ps.map (·.2))).storeElems w s.me.vHints (s.v d) ps).map State.retire)

/-! ## Unit stride (R14, R39, R142, R143) -/

/-- Where the active footprint of a `vld` or `vst` lies. -/
inductive UnitFoot where
  | memory
  | register (name : RegName) (first : Nat)
  | bad (cause : Cause)
  deriving DecidableEq, Repr

/-- The window checks of the whole active footprint (R14, R39, R142). -/
def State.unitFoot (s : State) (w : Nat) (es : List (Nat × Nat)) : UnitFoot :=
  let ws := es.map (fun e => s.window s.cur e.2 w)
  let causes := ws.filterMap (fun x => match x with | .bad c => some c | _ => none)
  if !causes.isEmpty then
    if causes.length = ws.length && !causes.contains 0x29 then .bad 0x28 else .bad 0x29
  else
    let offs := ws.filterMap (fun x => match x with | .regs o => some o | _ => none)
    let cores := ws.filterMap (fun x => match x with | .spad c _ => some c | _ => none)
    match offs with
    | o :: rest =>
      if offs.length = ws.length then
        let last := rest.foldl Nat.max o
        match regNamed s.me.p o (last + w - o) with
        | some (r, i) => .register r i
        | none => .bad 0x29
      else .bad 0x29
    | [] =>
      if cores.isEmpty then .memory
      else if cores.length = ws.length && cores.all (fun c => cores.head? == some c) then .memory else .bad 0x29

/-- Elements of one line become one access (R143): consecutive stores to one line of a cached page are joined. -/
def joinLines (acc : List (Place × List Host.Cell)) (p : Place) (cells : List Host.Cell) : List (Place × List Host.Cell) :=
  match acc.getLast? with
  | some (q, old) =>
    if q.ca = 0 ∧ p.ca = 0 ∧ q.cred = p.cred ∧ q.loc / 64 = p.loc / 64 then acc.dropLast ++ [(q, old ++ cells)] else acc ++ [(p, cells)]
  | none => [(p, cells)]

/-- The elements of a load that lie in one line of a cached page make one access (R143). -/
def lineGroups (w : Nat) (ps : List (Nat × Place)) : List (Place × Nat × List (Nat × Nat)) :=
  ps.foldl (fun acc e =>
    match acc.getLast? with
    | some (q, n, is) =>
      if q.ca = 0 ∧ e.2.ca = 0 ∧ q.cred = e.2.cred ∧ q.loc / 64 = e.2.loc / 64 ∧ q.loc ≤ e.2.loc
      then acc.dropLast ++ [(q, Nat.max n (e.2.loc + w - q.loc), is ++ [(e.1, e.2.loc - q.loc)])]
      else acc ++ [(e.2, w, [(e.1, 0)])]
    | none => [(e.2, w, [(e.1, 0)])]) []

/-- Loads lines in order, each one access: the elements' values. -/
def State.loadLines (s : State) (w : Nat) (nofwd : Bool) (h : Hints) (gs : List (Place × Nat × List (Nat × Nat))) :
    Except Trap (List (Nat × Nat) × State) :=
  match gs with
  | [] => .ok ([], s)
  | (p, n, is) :: rest =>
    match s.loadMem p n nofwd h with
    | .error e => .error e
    | .ok r =>
      match r.2.loadLines w nofwd h rest with
      | .error e => .error e
      | .ok q => .ok (is.map (fun i => (i.1, leNat ((r.1.drop i.2).take w))) ++ q.1, q.2)

/-- Stores lines in order, each one access. -/
def State.storeLines (s : State) (h : Hints) (ls : List (Place × List Host.Cell)) : Run :=
  match ls with
  | [] => .ok s
  | (p, cells) :: rest =>
    match s.storeAt p cells h with
    | .error e => .error e
    | .ok s' => s'.storeLines h rest

/-- The register that a `vld` or `vst` reaches may not be accessed, or the value is refused: the trap's cause, with EIDX and EVA zero as
`csrr` and `csrw` leave them (R39; DESIGN CHOICE, assumption 102). -/
def State.unitRead (s : State) (r : RegName) : Except Trap Nat :=
  match r with
  | .csr k => if csrDenied s.myLevel false k then .error (trapOf 0x06) else .ok (s.regValue r)
  | _ => .ok (s.regValue r)

/-- R141: `vld`. -/
def State.unitLoad (d : VReg) (w : Nat) (es : List (Nat × Nat)) (s : State) : Run :=
  match es with
  | [] => .ok s.retire
  | (i, ea) :: _ =>
    s.unlessHeld (elementRanges w es)
      (if ea % w ≠ 0 then .error ((trapAt 0x21 ea).element i)
       else
         match s.unitFoot w es with
         | .bad c => .error ((trapAt c ea).element i)
         | .register r o =>
           (s.unitRead r).map (fun v =>
             (s.setV d (putElems (s.v d) w (es.map (fun e => (e.1, bitsAt v (8 * (o + (e.2 - ea))) (8 * w)))))).retire)
         | .memory =>
           match s.elementPlaces w .read es with
           | .error e => .error e
           | .ok (ps, s') =>
             match (s'.pin (ps.map (·.2))).loadLines w (s.me.hmod == some true) s.me.vHints (lineGroups w ps) with
             | .error e => .error e
             | .ok r => .ok (r.2.setV d (putElems (s.v d) w r.1)).retire)

/-- R141: `vst`. -/
def State.unitStore (d : VReg) (w : Nat) (es : List (Nat × Nat)) (s : State) : Run :=
  match es with
  | [] => .ok s.retire
  | (i, ea) :: _ =>
    s.unlessHeld (elementRanges w es)
      (if ea % w ≠ 0 then .error ((trapAt 0x21 ea).element i)
       else
         match s.unitFoot w es with
         | .bad c => .error ((trapAt c ea).element i)
         | .register r o =>
           (s.regPut r ((es.map (fun e => cellsAt (o + (e.2 - ea)) (leBytes w (elemAt (s.v d) w e.1)))).flatten)).map State.retire
         | .memory =>
           match s.elementPlaces w .write es with
           | .error e => .error e
           | .ok (ps, s') =>
             let lines := ps.foldl (fun acc e => joinLines acc e.2 (cellsAt e.2.loc (leBytes w (elemAt (s.v d) w e.1)))) []
             ((s'.pin (ps.map (·.2))).storeLines s.me.vHints lines).map State.retire)

/-- R141: `vld`. -/
def execVld (d : VReg) (b : IntReg) (k : MReg) (w : BitVec 2) (s : State) : Host.Outcome State Fault Refusal :=
  word { nofwd := true, l1na := true } false (fun s =>
    s.unitLoad d (intWidth w) (elementAddrs (s.m k) (intWidth w) (s.x b) (fun i => BitVec.ofNat 64 (i * intWidth w)))) s

/-- R141: `vst`. -/
def execVst (d : VReg) (b : IntReg) (k : MReg) (w : BitVec 2) (s : State) : Host.Outcome State Fault Refusal :=
  word { l1na := true } false (fun s =>
    s.unitStore d (intWidth w) (elementAddrs (s.m k) (intWidth w) (s.x b) (fun i => BitVec.ofNat 64 (i * intWidth w)))) s

/-! ## Strided, gathered and scattered (R141) -/

/-- R141: `vlds`. -/
def execVlds (d : VReg) (b c : IntReg) (k : MReg) (w : BitVec 2) (s : State) : Host.Outcome State Fault Refusal :=
  word { nofwd := true, l1na := true } false (fun s =>
    s.vLoad d (intWidth w) (elementAddrs (s.m k) (intWidth w) (s.x b) (fun i => BitVec.ofNat 64 i * s.x c))) s

/-- R141: `vsts`. -/
def execVsts (d : VReg) (b c : IntReg) (k : MReg) (w : BitVec 2) (s : State) : Host.Outcome State Fault Refusal :=
  word { l1na := true } false (fun s =>
    s.vStore d (intWidth w) (elementAddrs (s.m k) (intWidth w) (s.x b) (fun i => BitVec.ofNat 64 i * s.x c))) s

/-- R141: `vgath`. -/
def execVgath (d : VReg) (b : IntReg) (c : VReg) (k : MReg) (w : BitVec 2) (s : State) : Host.Outcome State Fault Refusal :=
  word { nofwd := true } false (fun s =>
    s.vLoad d (intWidth w) (elementAddrs (s.m k) (intWidth w) (s.x b) (indexStep (s.v c) (intWidth w)))) s

/-- R141: `vscat`. -/
def execVscat (d : VReg) (b : IntReg) (c : VReg) (k : MReg) (w : BitVec 2) (s : State) : Host.Outcome State Fault Refusal :=
  word plain false (fun s =>
    s.vStore d (intWidth w) (elementAddrs (s.m k) (intWidth w) (s.x b) (indexStep (s.v c) (intWidth w)))) s

/-! ## `vgath.t` (R145) -/

/-- The checks of an element but for translation: alignment and windows. -/
def State.gatherCheck (s : State) (w ea : Nat) : Except Trap Unit :=
  if ea % w ≠ 0 then .error (trapAt 0x21 ea)
  else
    match s.window s.cur ea w with
    | .bad c => .error (trapAt c ea)
    | .regs off => .error (s.regTrap ea off w)
    | _ => .ok ()

/-- Checks every element but for its translation; the lowest that fails decides. -/
def State.gatherChecks (s : State) (w : Nat) (es : List (Nat × Nat)) : Except Trap Unit :=
  match es with
  | [] => .ok ()
  | (i, ea) :: rest =>
    match s.gatherCheck w ea with
    | .error e => .error (e.element i)
    | .ok _ => s.gatherChecks w rest

/-- The element needs no walk: it lies in a window, or at machine level, or a TLB entry maps it for reading. -/
def State.present (s : State) (w ea : Nat) : Bool :=
  match s.window s.cur ea w with
  | .outside =>
    s.level s.cur == .machine ||
    match s.asid s.cur with
    | none => false
    | some a =>
      decide (ea < 2 ^ 48) &&
      match s.tlbLookup s.cur.core a ea with
      | some r => (leafFault r.1.leaf.toNat .read (s.level s.cur == .user)).isNone
      | none => false
  | _ => true

/-- The element is one that the instruction reads which has made some of its reads: it needs no translation, or has kept its leaf (R145). -/
def State.keptLeaf (s : State) (w ea : Nat) : Bool :=
  s.window s.cur ea w != .outside || s.level s.cur == .machine || (s.pinnedLeaf (some s.cur) ea).isSome

/-- Drops what a TLB holds for an element and starts its walk, unless its page is being walked (R145, R286). An address of 2^48 and above
is never walked (R281). -/
def State.startWalk (s : State) (ea : Nat) : State :=
  let k := clusterOf s.cur.core
  let s := s.dropTlb s.cur.core ea
  match s.asid s.cur with
  | none => s
  | some a =>
    if 2 ^ 48 ≤ ea ∨ (s.cluster k).walks.any (fun w => w.asid == a && w.page == ea / 4096) then s
    else s.modCluster k (fun c => { c with walks := c.walks ++ [{ asid := a, page := ea / 4096, core := s.cur.core, discarded := false }] })

/-- Walks afresh for every element in turn, filling the TLBs where a leaf is found; waits where a walk is held (R145, R327). -/
def State.walkAll (s : State) (es : List (Nat × Nat)) : Run :=
  match s.asid s.cur, es with
  | none, _ => .ok s
  | _, [] => .ok s
  | some a, (_, ea) :: rest =>
    if 2 ^ 48 ≤ ea then s.walkAll rest
    else
      match s.freshTranslate (some s.cur) s.cur.core a ea .read (s.level s.cur == .user) with
      | .ok (_, s') => s'.walkAll rest
      | .error f => if f.held then .error Trap.wait else s.walkAll rest

/-- The elements whose translation is present are read, and the mask names them (R145). -/
def State.gatherDone (d : VReg) (k : MReg) (w : Nat) (done : List (Nat × Nat)) (s : State) : Run :=
  match s.elementPlaces w .read done with
  | .error e => .error e
  | .ok (ps, s') =>
    match (s'.pin (ps.map (·.2))).loadElems w (s.me.hmod == some true) s.me.vHints ps with
    | .error e => .error e
    | .ok r => .ok ((r.2.setV d (putElems (s.v d) w r.1)).setM k (maskOf w (done.map (·.1)))).retire

/-- The first turn of `vgath.t` on its active elements (R145). Where none is present the walks end within the step. -/
def State.gatherFirst (d : VReg) (k : MReg) (w : Nat) (es : List (Nat × Nat)) (s : State) : Run :=
  let done := es.filter (fun e => s.present w e.2)
  let missing := es.filter (fun e => !s.present w e.2)
  if done.isEmpty then
    match s.walkAll missing with
    | .error e => .error e
    | .ok t =>
      let found := es.filter (fun e => t.present w e.2)
      if found.isEmpty then s.gatherDone d k w es else t.gatherDone d k w found
  else (missing.foldl (fun s e => s.startWalk e.2) s).gatherDone d k w done

/-- `vgath.t` on its active elements (R145). Once it has made some of its reads, the elements that it reads are settled. -/
def State.gatherThrough (d : VReg) (k : MReg) (w : Nat) (es : List (Nat × Nat)) (s : State) : Run :=
  if es.isEmpty then .ok s.retire
  else s.unlessHeld (elementRanges w es)
    (match s.footCheck w w es with
     | .error e => .error e
     | .ok _ =>
       match s.gatherChecks w es with
       | .error e => .error e
       | .ok _ =>
         if s.me.got.isEmpty then s.gatherFirst d k w es else s.gatherDone d k w (es.filter (fun e => s.keptLeaf w e.2)))

/-- R145: `vgath.t`. -/
def execVgathT (d : VReg) (b : IntReg) (c : VReg) (k : MReg) (w : BitVec 2) (s : State) : Host.Outcome State Fault Refusal :=
  word { nofwd := true } false (fun s =>
    s.gatherThrough d k (intWidth w) (elementAddrs (s.m k) (intWidth w) (s.x b) (indexStep (s.v c) (intWidth w)))) s

/-! ## Records (R144) -/

/-- Bytes of a record that may not lie in the register space. -/
def State.laneBytes (s : State) (ea n : Nat) : Except Trap (List Byte × State) :=
  match s.reachAll ea n .read false with
  | .error e => .error e
  | .ok (.reg off, _) => .error (s.regTrap ea off n)
  | .ok (.mem parts, s') =>
    match s'.admitsAll (piecesOf parts) .read with
    | .error e => .error e
    | .ok _ => (s'.pin (parts.map (·.1))).loadAll (piecesOf parts) false {}

/-- A lane's record: its value, and the state after its accesses (R126 steps 3 to 8). -/
def State.laneRecord (s : State) (ea : Nat) : Except Trap (Val × State) :=
  match s.ahead.laneBytes ea 4 with
  | .error e => .error e
  | .ok (hd, _) =>
    let n := elN (leNat (s.headerBytes hd))
    if n = 0 ∨ 28 < n then .error (trapAt 0x42 ea)
    else
      match s.laneBytes ea (4 + n) with
      | .error e => .error e
      | .ok (bs, s') => if elBad (leNat bs) then .error (trapAt 0x42 ea) else .ok (elDecode (leNat bs), s')

/-- The records of every active lane, checked in ascending order. -/
def State.laneRecords (s : State) (es : List (Nat × Nat)) : Except Trap (List (Nat × Val) × State) :=
  match es with
  | [] => .ok ([], s)
  | (i, ea) :: rest =>
    match s.laneRecord ea with
    | .error e => .error (e.element i)
    | .ok (v, s1) =>
      match s1.laneRecords rest with
      | .error e => .error e
      | .ok (vs, s2) => .ok ((i, v) :: vs, s2)

/-- The records of every active lane, after the checks of the whole footprint, of which only the headers are known (R14, R144). -/
def State.footRecords (s : State) (es : List (Nat × Nat)) : Except Trap (List (Nat × Val) × State) :=
  match s.footCheck 4 1 es with
  | .error e => .error e
  | .ok _ => s.laneRecords es

/-- The bytes a lane's record occupies, as far as its header can be read: what a fence holds (R169). -/
def State.laneRange (s : State) (ea : Nat) : Nat × Nat :=
  match s.ahead.laneBytes ea 4 with
  | .ok (hd, _) => (ea, ea + 4 + elN (leNat hd))
  | .error _ => (ea, ea + 4)

/-- The addresses of the active elastic lanes at a stride. -/
def laneAddrs (k : MWord) (p : Nat) (base stride : Word) : List (Nat × Nat) :=
  (activeLanes k p).map (fun i => (i, (base + BitVec.ofNat 64 i * stride).toNat))

/-- R144: `vldel`. A 0x40 trap under RX leaves EVA zero: it is no failure of the memory access (DESIGN CHOICE, assumption 103). -/
def State.loadLanes (d : VReg) (es : List (Nat × Nat)) (s : State) : Run :=
  s.unlessHeld (es.map (fun e => (e.2, e.2 + 4)))
    (s.unlessHeld (es.map (fun e => s.laneRange e.2))
      (match s.footRecords es with
       | .error e => .error e
       | .ok (vs, s') =>
         let rs := vs.map (fun e => (e.1, elRound s.me.p s.me.rm e.2))
         match elementTrap s.me.nte (efmtOf 9 0 9) rs with
         | .error e => .error e
         | .ok _ => .ok ((s'.setV d (putLanes (s.v d) s.me.p (rs.map (fun r => (r.1, r.2.val))))).accrue (unionFlags rs)).retire))

/-- R144: `vldel`. -/
def execVldel (d : VReg) (b c : IntReg) (k : MReg) (s : State) : Host.Outcome State Fault Refusal :=
  word plain false (fun s => s.loadLanes d (laneAddrs (s.m k) s.me.p (s.x b) (s.x c))) s

/-- The checks of every lane's footprint for a store, before any write. -/
def State.lanePlaces (s : State) (n : Nat) (es : List (Nat × Nat)) : Except Trap (List (Nat × List (Place × Nat)) × State) :=
  match es with
  | [] => .ok ([], s)
  | (i, ea) :: rest =>
    match s.reachAll ea n .write false with
    | .error e => .error (e.element i)
    | .ok (.reg off, _) => .error ((s.regTrap ea off n).element i)
    | .ok (.mem parts, s1) =>
      match s1.admitsAll parts .write with
      | .error e => .error (e.element i)
      | .ok _ =>
        match s1.lanePlaces n rest with
        | .error e => .error e
        | .ok (ps, s2) => .ok ((i, parts) :: ps, s2)

/-- The places of every lane, after the checks of the whole footprint (R14, R144). -/
def State.footLanes (s : State) (n : Nat) (es : List (Nat × Nat)) : Except Trap (List (Nat × List (Place × Nat)) × State) :=
  match s.footCheck n 1 es with
  | .error e => .error e
  | .ok _ => s.lanePlaces n es

/-- Stores the records of lanes in order. -/
def State.storeLaneRecords (s : State) (bytes : Nat → List Byte) (ps : List (Nat × List (Place × Nat))) : Run :=
  match ps with
  | [] => .ok s
  | (i, parts) :: rest =>
    match s.storeAll (piecesOf parts) (bytes i) {} with
    | .error e => .error e
    | .ok s' => s'.storeLaneRecords bytes rest

/-- R144: `vstel`. -/
def State.storeLanes (d : VReg) (es : List (Nat × Nat)) (s : State) : Run :=
  let p := s.me.p
  let n := 4 + p / 8
  match lanesOk (s.v d) p (es.map (·.1)) with
  | .error e => .error e
  | .ok _ =>
    s.unlessHeld (elementRanges n es)
      (match s.footLanes n es with
       | .error e => .error e
       | .ok (ps, s') =>
         ((s'.pin ((ps.flatMap (·.2)).map (·.1))).storeLaneRecords (fun i => leBytes n (elEncode p (laneVal (s.v d) p i))) ps).map
           State.retire)

/-- R144: `vstel`. -/
def execVstel (d : VReg) (b c : IntReg) (k : MReg) (s : State) : Host.Outcome State Fault Refusal :=
  word plain false (fun s => s.storeLanes d (laneAddrs (s.m k) s.me.p (s.x b) (s.x c))) s

end Sys2Proof.Machine
end

