-- ==== Sys2Proof/Machine/Dispatch.lean ====
section
/-! DEFINITION. The dispatch: one arm for each constructor of Instr, a direct call of its meaning. -/

namespace Sys2Proof.Machine

def exec (i : Instr) (s : State) : Host.Outcome State Fault Refusal :=
  match i with
  | .himm p => Sys2Proof.Machine.execHimm p s
  | .hsched b n u => Sys2Proof.Machine.execHsched b n u s
  | .hmodNofwd => Sys2Proof.Machine.execHmodNofwd s
  | .hmodL1na => Sys2Proof.Machine.execHmodL1na s
  | .fmt a b o r v => Sys2Proof.Machine.execFmt a b o r v s
  | .add d a b => Sys2Proof.Machine.execAdd d a b s
  | .sub d a b => Sys2Proof.Machine.execSub d a b s
  | .and d a b => Sys2Proof.Machine.execAnd d a b s
  | .or d a b => Sys2Proof.Machine.execOr d a b s
  | .xor d a b => Sys2Proof.Machine.execXor d a b s
  | .andn d a b => Sys2Proof.Machine.execAndn d a b s
  | .orn d a b => Sys2Proof.Machine.execOrn d a b s
  | .xnor d a b => Sys2Proof.Machine.execXnor d a b s
  | .sll d a b => Sys2Proof.Machine.execSll d a b s
  | .srl d a b => Sys2Proof.Machine.execSrl d a b s
  | .sra d a b => Sys2Proof.Machine.execSra d a b s
  | .rol d a b => Sys2Proof.Machine.execRol d a b s
  | .ror d a b => Sys2Proof.Machine.execRor d a b s
  | .slt d a b => Sys2Proof.Machine.execSlt d a b s
  | .sltu d a b => Sys2Proof.Machine.execSltu d a b s
  | .min d a b => Sys2Proof.Machine.execMin d a b s
  | .max d a b => Sys2Proof.Machine.execMax d a b s
  | .minu d a b => Sys2Proof.Machine.execMinu d a b s
  | .maxu d a b => Sys2Proof.Machine.execMaxu d a b s
  | .mul d a b => Sys2Proof.Machine.execMul d a b s
  | .mulh d a b => Sys2Proof.Machine.execMulh d a b s
  | .mulhu d a b => Sys2Proof.Machine.execMulhu d a b s
  | .mulhsu d a b => Sys2Proof.Machine.execMulhsu d a b s
  | .div d a b => Sys2Proof.Machine.execDiv d a b s
  | .divu d a b => Sys2Proof.Machine.execDivu d a b s
  | .rem d a b => Sys2Proof.Machine.execRem d a b s
  | .remu d a b => Sys2Proof.Machine.execRemu d a b s
  | .clz d a => Sys2Proof.Machine.execClz d a s
  | .ctz d a => Sys2Proof.Machine.execCtz d a s
  | .popc d a => Sys2Proof.Machine.execPopc d a s
  | .bswap d a => Sys2Proof.Machine.execBswap d a s
  | .sel d a b => Sys2Proof.Machine.execSel d a b s
  | .addi d a i2 => Sys2Proof.Machine.execAddi d a i2 s
  | .andi d a i2 => Sys2Proof.Machine.execAndi d a i2 s
  | .ori d a i2 => Sys2Proof.Machine.execOri d a i2 s
  | .xori d a i2 => Sys2Proof.Machine.execXori d a i2 s
  | .slli d a n => Sys2Proof.Machine.execSlli d a n s
  | .srli d a n => Sys2Proof.Machine.execSrli d a n s
  | .srai d a n => Sys2Proof.Machine.execSrai d a n s
  | .rori d a n => Sys2Proof.Machine.execRori d a n s
  | .lih d a i2 => Sys2Proof.Machine.execLih d a i2 s
  | .slti d a i2 => Sys2Proof.Machine.execSlti d a i2 s
  | .sltiu d a i2 => Sys2Proof.Machine.execSltiu d a i2 s
  | .muli d a i2 => Sys2Proof.Machine.execMuli d a i2 s
  | .ld d b s2 e l p => Sys2Proof.Machine.execLd d b s2 e l p s
  | .pf b e l p => Sys2Proof.Machine.execPf b e l p s
  | .st d b s2 e l p => Sys2Proof.Machine.execSt d b s2 e l p s
  | .ldx d b s2 e l i5 => Sys2Proof.Machine.execLdx d b s2 e l i5 s
  | .pfIndexed b e l i3 => Sys2Proof.Machine.execPfIndexed b e l i3 s
  | .stx d b s2 e l i5 => Sys2Proof.Machine.execStx d b s2 e l i5 s
  | .amoSwap d a b w => Sys2Proof.Machine.execAmoSwap d a b w s
  | .amoCas d a b w => Sys2Proof.Machine.execAmoCas d a b w s
  | .amoAdd d a b w => Sys2Proof.Machine.execAmoAdd d a b w s
  | .amoAnd d a b w => Sys2Proof.Machine.execAmoAnd d a b w s
  | .amoOr d a b w => Sys2Proof.Machine.execAmoOr d a b w s
  | .amoXor d a b w => Sys2Proof.Machine.execAmoXor d a b w s
  | .amoMin d a b w => Sys2Proof.Machine.execAmoMin d a b w s
  | .amoMax d a b w => Sys2Proof.Machine.execAmoMax d a b w s
  | .amoMinu d a b w => Sys2Proof.Machine.execAmoMinu d a b w s
  | .amoMaxu d a b w => Sys2Proof.Machine.execAmoMaxu d a b w s
  | .ldc d a => Sys2Proof.Machine.execLdc d a s
  | .stp a b => Sys2Proof.Machine.execStp a b s
  | .ldf d a => Sys2Proof.Machine.execLdf d a s
  | .feSet a => Sys2Proof.Machine.execFeSet a s
  | .feFill a => Sys2Proof.Machine.execFeFill a s
  | .feProbe d a => Sys2Proof.Machine.execFeProbe d a s
  | .beq a b o => Sys2Proof.Machine.execBeq a b o s
  | .bne a b o => Sys2Proof.Machine.execBne a b o s
  | .blt a b o => Sys2Proof.Machine.execBlt a b o s
  | .bge a b o => Sys2Proof.Machine.execBge a b o s
  | .bltu a b o => Sys2Proof.Machine.execBltu a b o s
  | .bgeu a b o => Sys2Proof.Machine.execBgeu a b o s
  | .j o => Sys2Proof.Machine.execJ o s
  | .call o => Sys2Proof.Machine.execCall o s
  | .jr a => Sys2Proof.Machine.execJr a s
  | .callr a => Sys2Proof.Machine.execCallr a s
  | .ret => Sys2Proof.Machine.execRet s
  | .fadd d a b => Sys2Proof.Machine.execFadd d a b s
  | .fsub d a b => Sys2Proof.Machine.execFsub d a b s
  | .fmul d a b => Sys2Proof.Machine.execFmul d a b s
  | .fdiv d a b => Sys2Proof.Machine.execFdiv d a b s
  | .fsqrt d a => Sys2Proof.Machine.execFsqrt d a s
  | .fma d a b c => Sys2Proof.Machine.execFma d a b c s
  | .fms d a b c => Sys2Proof.Machine.execFms d a b c s
  | .fnma d a b c => Sys2Proof.Machine.execFnma d a b c s
  | .fmin d a b => Sys2Proof.Machine.execFmin d a b s
  | .fmax d a b => Sys2Proof.Machine.execFmax d a b s
  | .ftwosum d a b c => Sys2Proof.Machine.execFtwosum d a b c s
  | .ftwoprod d a b c => Sys2Proof.Machine.execFtwoprod d a b c s
  | .fround d a => Sys2Proof.Machine.execFround d a s
  | .fscale d a b => Sys2Proof.Machine.execFscale d a b s
  | .fmov d a => Sys2Proof.Machine.execFmov d a s
  | .fneg d a => Sys2Proof.Machine.execFneg d a s
  | .fabs d a => Sys2Proof.Machine.execFabs d a s
  | .fld d b p => Sys2Proof.Machine.execFld d b p s
  | .fst d b p => Sys2Proof.Machine.execFst d b p s
  | .fldS d b i2 => Sys2Proof.Machine.execFldS d b i2 s
  | .fstS d b i2 => Sys2Proof.Machine.execFstS d b i2 s
  | .setprec a => Sys2Proof.Machine.execSetprec a s
  | .getprec d => Sys2Proof.Machine.execGetprec d s
  | .setrnd a => Sys2Proof.Machine.execSetrnd a s
  | .fcvtElD d a => Sys2Proof.Machine.execFcvtElD d a s
  | .fcvtElDu d a => Sys2Proof.Machine.execFcvtElDu d a s
  | .fcvtDEl d a => Sys2Proof.Machine.execFcvtDEl d a s
  | .fcvtDuEl d a => Sys2Proof.Machine.execFcvtDuEl d a s
  | .fcvtElDf d a => Sys2Proof.Machine.execFcvtElDf d a s
  | .fcvtDfEl d a => Sys2Proof.Machine.execFcvtDfEl d a s
  | .fcvtElSf d a => Sys2Proof.Machine.execFcvtElSf d a s
  | .fcvtSfEl d a => Sys2Proof.Machine.execFcvtSfEl d a s
  | .fcmpEq d a b => Sys2Proof.Machine.execFcmpEq d a b s
  | .fcmpLt d a b => Sys2Proof.Machine.execFcmpLt d a b s
  | .fcmpLe d a b => Sys2Proof.Machine.execFcmpLe d a b s
  | .fcmpUn d a b => Sys2Proof.Machine.execFcmpUn d a b s
  | .fclass d a => Sys2Proof.Machine.execFclass d a s
  | .vadd d a b k w => Sys2Proof.Machine.execVadd d a b k w s
  | .vsub d a b k w => Sys2Proof.Machine.execVsub d a b k w s
  | .vmul d a b k w => Sys2Proof.Machine.execVmul d a b k w s
  | .vmulh d a b k w => Sys2Proof.Machine.execVmulh d a b k w s
  | .vand d a b k w => Sys2Proof.Machine.execVand d a b k w s
  | .vor d a b k w => Sys2Proof.Machine.execVor d a b k w s
  | .vxor d a b k w => Sys2Proof.Machine.execVxor d a b k w s
  | .vsll d a b k w => Sys2Proof.Machine.execVsll d a b k w s
  | .vsrl d a b k w => Sys2Proof.Machine.execVsrl d a b k w s
  | .vsra d a b k w => Sys2Proof.Machine.execVsra d a b k w s
  | .vmin d a b k w => Sys2Proof.Machine.execVmin d a b k w s
  | .vmax d a b k w => Sys2Proof.Machine.execVmax d a b k w s
  | .vminu d a b k w => Sys2Proof.Machine.execVminu d a b k w s
  | .vmaxu d a b k w => Sys2Proof.Machine.execVmaxu d a b k w s
  | .vcmpEq d a b k w => Sys2Proof.Machine.execVcmpEq d a b k w s
  | .vcmpLt d a b k w => Sys2Proof.Machine.execVcmpLt d a b k w s
  | .vcmpLtu d a b k w => Sys2Proof.Machine.execVcmpLtu d a b k w s
  | .vdot4 d a b k => Sys2Proof.Machine.execVdot4 d a b k s
  | .vfadd d a b k w => Sys2Proof.Machine.execVfadd d a b k w s
  | .vfsub d a b k w => Sys2Proof.Machine.execVfsub d a b k w s
  | .vfmul d a b k w => Sys2Proof.Machine.execVfmul d a b k w s
  | .vfdiv d a b k w => Sys2Proof.Machine.execVfdiv d a b k w s
  | .vfsqrt d a k w => Sys2Proof.Machine.execVfsqrt d a k w s
  | .vfma d a b k w => Sys2Proof.Machine.execVfma d a b k w s
  | .vfmin d a b k w => Sys2Proof.Machine.execVfmin d a b k w s
  | .vfmax d a b k w => Sys2Proof.Machine.execVfmax d a b k w s
  | .vfcmpEq d a b k w => Sys2Proof.Machine.execVfcmpEq d a b k w s
  | .vfcmpLt d a b k w => Sys2Proof.Machine.execVfcmpLt d a b k w s
  | .vfcmpLe d a b k w => Sys2Proof.Machine.execVfcmpLe d a b k w s
  | .vfcmpUn d a b k w => Sys2Proof.Machine.execVfcmpUn d a b k w s
  | .vfcvt d a s2 k w => Sys2Proof.Machine.execVfcvt d a s2 k w s
  | .veadd d a b k => Sys2Proof.Machine.execVeadd d a b k s
  | .vesub d a b k => Sys2Proof.Machine.execVesub d a b k s
  | .vemul d a b k => Sys2Proof.Machine.execVemul d a b k s
  | .vefma d a b k => Sys2Proof.Machine.execVefma d a b k s
  | .vld d b k w => Sys2Proof.Machine.execVld d b k w s
  | .vst d b k w => Sys2Proof.Machine.execVst d b k w s
  | .vlds d b c k w => Sys2Proof.Machine.execVlds d b c k w s
  | .vsts d b c k w => Sys2Proof.Machine.execVsts d b c k w s
  | .vgath d b c k w => Sys2Proof.Machine.execVgath d b c k w s
  | .vgathT d b c k w => Sys2Proof.Machine.execVgathT d b c k w s
  | .vscat d b c k w => Sys2Proof.Machine.execVscat d b c k w s
  | .vldel d b c k => Sys2Proof.Machine.execVldel d b c k s
  | .vstel d b c k => Sys2Proof.Machine.execVstel d b c k s
  | .vperm d a b k w => Sys2Proof.Machine.execVperm d a b k w s
  | .vslide d a b k w => Sys2Proof.Machine.execVslide d a b k w s
  | .vbcast d a k w => Sys2Proof.Machine.execVbcast d a k w s
  | .vext d a b w => Sys2Proof.Machine.execVext d a b w s
  | .vredAdd d a k w => Sys2Proof.Machine.execVredAdd d a k w s
  | .vredMin d a k w => Sys2Proof.Machine.execVredMin d a k w s
  | .vredMax d a k w => Sys2Proof.Machine.execVredMax d a k w s
  | .vredEw d a b k w => Sys2Proof.Machine.execVredEw d a b k w s
  | .mand d a b => Sys2Proof.Machine.execMand d a b s
  | .mor d a b => Sys2Proof.Machine.execMor d a b s
  | .mxor d a b => Sys2Proof.Machine.execMxor d a b s
  | .mnot d a => Sys2Proof.Machine.execMnot d a s
  | .msetn d a => Sys2Proof.Machine.execMsetn d a s
  | .mpop d a => Sys2Proof.Machine.execMpop d a s
  | .mfirst d a => Sys2Proof.Machine.execMfirst d a s
  | .tld t b s2 n => Sys2Proof.Machine.execTld t b s2 n s
  | .tst t b s2 n => Sys2Proof.Machine.execTst t b s2 n s
  | .acld x y b s3 n => Sys2Proof.Machine.execAcld x y b s3 n s
  | .acst x y b s3 n => Sys2Proof.Machine.execAcst x y b s3 n s
  | .tmma a b x y => Sys2Proof.Machine.execTmma a b x y s
  | .tzero t => Sys2Proof.Machine.execTzero t s
  | .aczero x y => Sys2Proof.Machine.execAczero x y s
  | .acmov r c x y => Sys2Proof.Machine.execAcmov r c x y s
  | .tgemm d a b => Sys2Proof.Machine.execTgemm d a b s
  | .tgemmG d a b => Sys2Proof.Machine.execTgemmG d a b s
  | .tbind d a => Sys2Proof.Machine.execTbind d a s
  | .tunbind d => Sys2Proof.Machine.execTunbind d s
  | .tstat d => Sys2Proof.Machine.execTstat d s
  | .gang n => Sys2Proof.Machine.execGang n s
  | .send d a b => Sys2Proof.Machine.execSend d a b s
  | .sendh d a b => Sys2Proof.Machine.execSendh d a b s
  | .sendr d a b => Sys2Proof.Machine.execSendr d a b s
  | .waita d a => Sys2Proof.Machine.execWaita d a s
  | .waitl d a => Sys2Proof.Machine.execWaitl d a s
  | .ffr d a => Sys2Proof.Machine.execFfr d a s
  | .tclr a => Sys2Proof.Machine.execTclr a s
  | .waitc a => Sys2Proof.Machine.execWaitc a s
  | .waitr d => Sys2Proof.Machine.execWaitr d s
  | .fenceR d a => Sys2Proof.Machine.execFenceR d a s
  | .fenceH a n => Sys2Proof.Machine.execFenceH a n s
  | .fenceL a n => Sys2Proof.Machine.execFenceL a n s
  | .publish d a => Sys2Proof.Machine.execPublish d a s
  | .tsend d a b => Sys2Proof.Machine.execTsend d a b s
  | .spawn d a => Sys2Proof.Machine.execSpawn d a s
  | .join a => Sys2Proof.Machine.execJoin a s
  | .exit a => Sys2Proof.Machine.execExit a s
  | .yield => Sys2Proof.Machine.execYield s
  | .steal d => Sys2Proof.Machine.execSteal d s
  | .tcoord d n => Sys2Proof.Machine.execTcoord d n s
  | .grank d a g => Sys2Proof.Machine.execGrank d a g s
  | .spreadwait d => Sys2Proof.Machine.execSpreadwait d s
  | .barInit a n => Sys2Proof.Machine.execBarInit a n s
  | .barArr d a => Sys2Proof.Machine.execBarArr d a s
  | .barWait d a g => Sys2Proof.Machine.execBarWait d a g s
  | .barAw d a => Sys2Proof.Machine.execBarAw d a s
  | .barQuery d a => Sys2Proof.Machine.execBarQuery d a s
  | .csrr d n => Sys2Proof.Machine.execCsrr d n s
  | .csrw d a n => Sys2Proof.Machine.execCsrw d a n s
  | .csrs d a n => Sys2Proof.Machine.execCsrs d a n s
  | .csrc d a n => Sys2Proof.Machine.execCsrc d a n s
  | .trap n => Sys2Proof.Machine.execTrap n s
  | .eret => Sys2Proof.Machine.execEret s
  | .halt => Sys2Proof.Machine.execHalt s
  | .wfe a => Sys2Proof.Machine.execWfe a s
  | .tid d => Sys2Proof.Machine.execTid d s
  | .rdtime d => Sys2Proof.Machine.execRdtime d s
  | .urgent d a k n => Sys2Proof.Machine.execUrgent d a k n s
  | .lret => Sys2Proof.Machine.execLret s
  | .invR d a n => Sys2Proof.Machine.execInvR d a n s
  | .invA d => Sys2Proof.Machine.execInvA d s
  | .invack => Sys2Proof.Machine.execInvack s
  | .probe d a => Sys2Proof.Machine.execProbe d a s
  | .fqReplay a => Sys2Proof.Machine.execFqReplay a s
  | .fqFail a c => Sys2Proof.Machine.execFqFail a c s
  | .chsend d a n => Sys2Proof.Machine.execChsend d a n s
  | .chrecv d n => Sys2Proof.Machine.execChrecv d n s
  | .chpoll d n => Sys2Proof.Machine.execChpoll d n s
  | .vcore d => Sys2Proof.Machine.execVcore d s
  | .nonInstructionWord cause => Sys2Proof.Machine.execNonInstructionWord cause s
  | .takeInterrupt sid => Sys2Proof.Machine.execTakeInterrupt sid s
  | .hostInterruptMessage tid => Sys2Proof.Machine.execHostInterruptMessage tid s
  | .strandWake sid => Sys2Proof.Machine.execStrandWake sid s
  | .standbyUrgentStart core => Sys2Proof.Machine.execStandbyUrgentStart core s
  | .chainMessageStart core => Sys2Proof.Machine.execChainMessageStart core s
  | .nudgeExpiry sid => Sys2Proof.Machine.execNudgeExpiry sid s
  | .starvationToken router waited => Sys2Proof.Machine.execStarvationToken router waited s
  | .retentionEntry core => Sys2Proof.Machine.execRetentionEntry core s
  | .retentionWake core => Sys2Proof.Machine.execRetentionWake core s
  | .wfeDeadline sid => Sys2Proof.Machine.execWfeDeadline sid s
  | .yieldTimeout sid => Sys2Proof.Machine.execYieldTimeout sid s
  | .storeBufferDrain sid => Sys2Proof.Machine.execStoreBufferDrain sid s
  | .leaseExpiry cluster line => Sys2Proof.Machine.execLeaseExpiry cluster line s
  | .fenceSatisfied sid index => Sys2Proof.Machine.execFenceSatisfied sid index s
  | .copyIssue sid => Sys2Proof.Machine.execCopyIssue sid s
  | .copyRead copy offset => Sys2Proof.Machine.execCopyRead copy offset s
  | .copyWrite copy index => Sys2Proof.Machine.execCopyWrite copy index s
  | .copyFault copy => Sys2Proof.Machine.execCopyFault copy s
  | .copyComplete copy => Sys2Proof.Machine.execCopyComplete copy s
  | .packetInject core reply => Sys2Proof.Machine.execPacketInject core reply s
  | .landingPacketArrival copy => Sys2Proof.Machine.execLandingPacketArrival copy s
  | .landingHandlerStart core => Sys2Proof.Machine.execLandingHandlerStart core s
  | .publishFlip copy => Sys2Proof.Machine.execPublishFlip copy s
  | .engineTurnStart engine => Sys2Proof.Machine.execEngineTurnStart engine s
  | .engineEntryAgeing engine index => Sys2Proof.Machine.execEngineEntryAgeing engine index s
  | .kblockBoundary engine => Sys2Proof.Machine.execKblockBoundary engine s
  | .engineCompletion engine => Sys2Proof.Machine.execEngineCompletion engine s
  | .stealRound core => Sys2Proof.Machine.execStealRound core s
  | .spreadFloodAccept group core => Sys2Proof.Machine.execSpreadFloodAccept group core s
  | .pageWalkComplete cluster index => Sys2Proof.Machine.execPageWalkComplete cluster index s
  | .faultPost who => Sys2Proof.Machine.execFaultPost who s
  | .invalidationPoint inv core => Sys2Proof.Machine.execInvalidationPoint inv core s
  | .invalidationAck inv core => Sys2Proof.Machine.execInvalidationAck inv core s
  | .attachCoreReset core => Sys2Proof.Machine.execAttachCoreReset core s
  | .evictSave sid => Sys2Proof.Machine.execEvictSave sid s
  | .swapSave partition => Sys2Proof.Machine.execSwapSave partition s
  | .build => Sys2Proof.Machine.execBuild s
  | .attach => Sys2Proof.Machine.execAttach s
  | .evict => Sys2Proof.Machine.execEvict s
  | .restore => Sys2Proof.Machine.execRestore s
  | .swap => Sys2Proof.Machine.execSwap s
  | .haltCommand => Sys2Proof.Machine.execHaltCommand s
  | .destroy => Sys2Proof.Machine.execDestroy s
  | .qenable => Sys2Proof.Machine.execQenable s
  | .qresume => Sys2Proof.Machine.execQresume s
  | .qdisable => Sys2Proof.Machine.execQdisable s
  | .ttload => Sys2Proof.Machine.execTtload s
  | .ttTableSwitch => Sys2Proof.Machine.execTtTableSwitch s
  | .ttSlotOpen index => Sys2Proof.Machine.execTtSlotOpen index s
  | .ttSlotEnd => Sys2Proof.Machine.execTtSlotEnd s
  | .frontEndRead queue => Sys2Proof.Machine.execFrontEndRead queue s
  | .packetRoot queue => Sys2Proof.Machine.execPacketRoot queue s
  | .packetSpread queue => Sys2Proof.Machine.execPacketSpread queue s
  | .packetUnload queue => Sys2Proof.Machine.execPacketUnload queue s
  | .packetWaitval queue => Sys2Proof.Machine.execPacketWaitval queue s
  | .packetSignal queue => Sys2Proof.Machine.execPacketSignal queue s
  | .packetNop queue => Sys2Proof.Machine.execPacketNop queue s
  | .kload => Sys2Proof.Machine.execKload s
  | .kernelVerify slot => Sys2Proof.Machine.execKernelVerify slot s
  | .kernelInstall slot => Sys2Proof.Machine.execKernelInstall slot s
  | .krelease => Sys2Proof.Machine.execKrelease s
  | .kquery => Sys2Proof.Machine.execKquery s
  | .kpurge => Sys2Proof.Machine.execKpurge s
  | .fuseraise => Sys2Proof.Machine.execFuseraise s
  | .attest => Sys2Proof.Machine.execAttest s
  | .debugset => Sys2Proof.Machine.execDebugset s
  | .debugAccess access => Sys2Proof.Machine.execDebugAccess access s
  | .ratioChange stack code => Sys2Proof.Machine.execRatioChange stack code s
  | .ratioQuiesceEnd stack => Sys2Proof.Machine.execRatioQuiesceEnd stack s
  | .memcfgLocal value => Sys2Proof.Machine.execMemcfgLocal value s
  | .memcfgShways value => Sys2Proof.Machine.execMemcfgShways value s
  | .siltMissFill line => Sys2Proof.Machine.execSiltMissFill line s
  | .siltWriteback line => Sys2Proof.Machine.execSiltWriteback line s
  | .dpctlEnable port enable => Sys2Proof.Machine.execDpctlEnable port enable s
  | .dpctlReset port => Sys2Proof.Machine.execDpctlReset port s
  | .sockidWrite value => Sys2Proof.Machine.execSockidWrite value s
  | .peerDetected port peer => Sys2Proof.Machine.execPeerDetected port peer s
  | .portTrained port lanes => Sys2Proof.Machine.execPortTrained port lanes s
  | .trainingTimeout port => Sys2Proof.Machine.execTrainingTimeout port s
  | .laneFailure port => Sys2Proof.Machine.execLaneFailure port s
  | .flitReceive port flit => Sys2Proof.Machine.execFlitReceive port flit s
  | .portFenceTimeout port => Sys2Proof.Machine.execPortFenceTimeout port s
  | .hostPostedWrite addr bytes relaxed => Sys2Proof.Machine.execHostPostedWrite addr bytes relaxed s
  | .hostRead addr len => Sys2Proof.Machine.execHostRead addr len s
  | .ptpMessage slew => Sys2Proof.Machine.execPtpMessage slew s
  | .blackBoxWrite => Sys2Proof.Machine.execBlackBoxWrite s
  | .bbctlUnfreeze => Sys2Proof.Machine.execBbctlUnfreeze s
  | .cpwrPstate cluster value => Sys2Proof.Machine.execCpwrPstate cluster value s
  | .pstateChangeComplete cluster => Sys2Proof.Machine.execPstateChangeComplete cluster s
  | .cpwrCmax cluster value => Sys2Proof.Machine.execCpwrCmax cluster value s
  | .cstateEntry cluster => Sys2Proof.Machine.execCstateEntry cluster s
  | .clusterWake cluster => Sys2Proof.Machine.execClusterWake cluster s
  | .powerThrottle cluster watts => Sys2Proof.Machine.execPowerThrottle cluster watts s
  | .powerThrottleRelease watts => Sys2Proof.Machine.execPowerThrottleRelease watts s
  | .thermalSample die celsius => Sys2Proof.Machine.execThermalSample die celsius s
  | .refclkLoss clock => Sys2Proof.Machine.execRefclkLoss clock s
  | .railFault rail => Sys2Proof.Machine.execRailFault rail s
  | .coldReset => Sys2Proof.Machine.execColdReset s
  | .warmReset => Sys2Proof.Machine.execWarmReset s
  | .resetRelease => Sys2Proof.Machine.execResetRelease s
  | .bringupPhase failure => Sys2Proof.Machine.execBringupPhase failure s
  | .registerWrite offset value => Sys2Proof.Machine.execRegisterWrite offset value s
  | .fetchFault cause => Sys2Proof.Machine.execFetchFault cause s
  | .softError site => Sys2Proof.Machine.execSoftError site s
  | .translationObtained slot code entries base => Sys2Proof.Machine.execTranslationObtained slot code entries base s

end Sys2Proof.Machine
end

