-- ==== Sys2Proof/Machine/Issue.lean ====
section
/-! DEFINITION. A turn of the machine: a core fetches, decodes and executes a word for one of its strands, or an event happens; words that
have made some of their accesses are whole before anything stops their strands (R27-R31, R60, R111, R133, R360, R362). -/

namespace Sys2Proof.Machine

/-! ## A word -/

/-- The word executes as the instruction it decodes to, or as a word that is none (R60). -/
def runWord (w : IWord) (s : State) : Host.Outcome State Fault Refusal :=
  match decode w with
  | .error c => execNonInstructionWord c s
  | .ok i => exec i s

/-- The strand keeps the word of which it has made some of its accesses. -/
def State.keepWord (s : State) (sid : StrandId) (w : IWord) : State :=
  if (s.strand sid).got.isEmpty then s else s.modStrand sid (fun t => { t with word := some w })

/-- The word at PC is fetched, decoded and executed; a fetch that fails meets the fate the table names for it (R60, R111). -/
def fetchAndRun (sid : StrandId) (s : State) : Host.Outcome State Fault Refusal :=
  match s.fetch sid with
  | .error e => execFetchFault e.cause s
  | .ok (w, s') =>
    match runWord w s' with
    | .next t => .next (t.keepWord sid w)
    | o => o

/-- The strand's word has met a synchronous trap: the strand is Trapped, is with the handler chain, or waits for the pager. -/
def State.hasTrapped (s : State) (sid : StrandId) : Bool :=
  let t := s.strand sid
  t.st == .trapped || t.chained || (match t.wait with | some (.pager ..) => true | _ => false)

/-- A pending interrupt that the strand may take is taken before the word at PC, unless it has become pending in this very cycle and the
word traps (R27; DEDUCED, assumption 127). -/
def takeOrRun (sid : StrandId) (s : State) : Host.Outcome State Fault Refusal :=
  if (s.strand sid).irqAt = s.clk.cycles then
    match fetchAndRun sid s.ahead with
    | .next t => if t.hasTrapped sid then .next t else execTakeInterrupt sid s
    | o => o
  else execTakeInterrupt sid s

/-- The chosen strand issues: the word of which it has made some of its accesses goes on; otherwise it takes an error that has struck it or
a pending interrupt, or runs the word at its PC (R60, R111, R152, R261, R353). -/
def issueStrand (sid : StrandId) (s : State) : Host.Outcome State Fault Refusal :=
  let t := s.strand sid
  match (if t.got.isEmpty then none else t.word) with
  | some w => runWord w s
  | none =>
    match t.struck with
    | some (c, a) => .next ((s.modStrand sid (fun t => { t with struck := none })).strike sid c a.toNat)
    | none => if s.mayTake sid then takeOrRun sid s else fetchAndRun sid s

/-- A core issues for the strand chosen (R28); where none is, a cycle passes. -/
def issue (core : Nat) (s : State) : Host.Outcome State Fault Refusal :=
  let s := s.toIssue core
  match (if s.canFetch core then s.choose core else (none, s)) with
  | (none, _) => .next s.nextCycle
  | (some n, t) => issueStrand { core := core, num := n } (t.startIssue { core := core, num := n })

/-! ## A turn -/

/-- Strands with a pending eviction request are saved as soon as they have parked, or lose it (R266). -/
def State.settleEvictions (s : State) : State :=
  (s.listedStrands.filter (fun sid => (s.strand sid).evictReq)).foldl State.evictSettle s

/-- A turn is over: its limit on accesses, and the accesses made before it, are its own (R152). -/
def turnOver (o : Host.Outcome State Fault Refusal) : Host.Outcome State Fault Refusal :=
  match o with
  | .next s => .next ({ s with cut := none, replay := [] } : State).settleEvictions
  | o => o

/-- Nothing of the device runs: THERMTRIP_N is asserted (R360), or bring-up has failed (R362, R363). -/
def State.standsStill (s : State) : Bool := s.hub.tripped || s.hub.phase == 15

/-- The step is one that the machine takes of itself: not a word, nor what only the fetch of a word leads to (R60, R111). -/
def agendaEvent (i : Instr) : Bool :=
  match i with
  | .nonInstructionWord _ => false
  | .fetchFault _ => false
  | i => i.isEvent

/-- The event may happen now: while the device stands still, only those of its surroundings do (R360, R362). -/
def State.mayHappen (s : State) (ev : Instr) : Bool :=
  agendaEvent ev && (!s.hub.tripped || pastTrip ev) && (s.hub.phase != 15 || pastStop ev)

/-- What a turn does: a core issues, an event happens, or time passes. -/
def turn (t : Turn) (s : State) : Host.Outcome State Fault Refusal :=
  match t with
  | .issue core => if s.standsStill then .next (s.tick 1) else turnOver (issue core s)
  | .event ev => if s.mayHappen ev then turnOver (exec ev s) else .next s
  | .elapse ns => .next (s.passCycles ((ns * 12 + 4) / 5))
  | .partIssue core n => if s.standsStill then .next (s.tick 1) else turnOver (issue core { s with cut := some n })
  | .partEvent ev n => if s.mayHappen ev then turnOver (exec ev { s with cut := some n }) else .next s

/-! ## Words are whole before their strands stop (R133, R152) -/

/-- The strands that have made some accesses of a word, or of an instruction on an engine, and not all. -/
def State.halfWay (s : State) : List StrandId := s.listedStrands.filter (fun sid => !(s.strand sid).got.isEmpty)

/-- A strand has stopped between two states. -/
def State.stops (s t : State) (sid : StrandId) : Bool :=
  let q := s.strand sid
  let r := t.strand sid
  r.uid != q.uid || r.st != q.st || r.pc != q.pc || (r.paused && !q.paused) || (r.chained && !q.chained) || (r.stopped && !q.stopped) ||
    (t.standsStill && !s.standsStill)

/-- The turn, which has led to a state, is one of the strand's own. -/
def State.ownTurn (s r : State) (t : Turn) (sid : StrandId) : Bool :=
  let onEngine : Nat → Bool := fun e => (s.engine e).running.any (fun q => (s.turnStrands q.who).contains sid)
  match t with
  | .issue core | .partIssue core _ => core == sid.core && r.cur == sid
  | .event (.kblockBoundary e) | .partEvent (.kblockBoundary e) _ => onEngine e
  | .event (.engineCompletion e) | .partEvent (.engineCompletion e) _ => onEngine e
  | _ => false

/-- The turn in which a strand makes all the accesses that are left of its word, or of its instruction on an engine. -/
def finishWord (sid : StrandId) (s : State) : Host.Outcome State Fault Refusal :=
  match (s.strand sid).tile.bind (fun c => c.op.map (fun o => (c.engine, o))) with
  | some (e, o) => turnOver (if o.macro then execKblockBoundary e s else execEngineCompletion e s)
  | none => turnOver (issueStrand sid (s.startIssue sid))

/-- A turn, before which every word is finished whose strand it stops half-way: a strand stops only before such an instruction or after it
(R27, R133). A turn that would stop a strand whose word waits for a stack comes later (R327). -/
def wholeTurn (n : Nat) (t : Turn) (s : State) : Host.Outcome State Fault Refusal :=
  match n with
  | 0 => turn t s
  | k + 1 =>
    match turn t s with
    | .next r =>
      match s.halfWay.find? (fun sid => !s.ownTurn r t sid && s.stops r sid) with
      | none => .next r
      | some sid =>
        match finishWord sid s with
        | .next u =>
          if (u.strand sid).got.isEmpty then wholeTurn k t u else .next { s with agenda := s.agenda ++ [t], clk := s.clk.tick 1 }
        | o => o
    | o => o

end Sys2Proof.Machine
end

