-- ==== Sys2Proof/Machine/Step.lean ====
section
/-! DEFINITION. One step of the machine. -/

namespace Sys2Proof.Machine

/-- One step: the next turn of the agenda, or, with none listed, the focus core's issue. -/
def step (s : State) : Host.Outcome State Fault Refusal :=
  match s.agenda with
  | [] => wholeTurn s.halfWay.length (.issue s.focus) s
  | t :: rest => wholeTurn s.halfWay.length t { s with agenda := rest }

/-- The machine with an instruction's word where the next step fetches: the standby strand of core 0 is Running at machine level,
at a physical address of stacked DRAM (R393), where the word is stored under the shared key. -/
def State.withFetchWord (s : State) (nbits w : Nat) : State :=
  let sid : StrandId := { core := 0, num := 5 }
  let pc := 0x10000
  let m := s.mem.write s.free Cred.shared (cellsAt pc (leBytes 4 (w % 2 ^ nbits)))
  let s := { s with mem := { m with marks := m.marks.erase (pc / 4096), poison := removeNat m.poison (pc / 64) },
                    agenda := [], focus := 0, cur := sid, cut := none, replay := [], hub := { s.hub with tripped := false, phase := if s.hub.phase = 15 then 5 else s.hub.phase } }
  let s := (s.modCore 0 (fun k =>
    { k with retained := 0, serving := some .urgent, fetchedAt := none, retiredAt := none, l1i := [(pc / 64, Config.sharedSlot)] })).modCluster 0
    (fun k => { k with changing := none, curc := 0 })
  s.modStrand sid (fun t =>
    { t with st := .running, paused := false, chained := false, pc := BitVec.ofNat 64 pc, sched := false, himm := [], hmod := none,
             wait := none, held := none, gangWait := none, tile := none, fetched := [], got := [], forfeit := 0, struck := none,
             stopped := false, evictReq := false, ssw := putBits (putBits t.ssw 0 2 3) 3 1 0 })

end Sys2Proof.Machine
end

