-- ==== Sys2Proof/Safety.lean ====
section
/-! DEFINITION. What a safe run is, and the terms in which the statements speak: when a word executes, and what it leaves. -/

namespace Sys2Proof.Safety

open Sys2Proof Sys2Proof.Machine

/-- The invariant of the machine: memory is in canonical form. -/
def Inv (s : State) : Prop := s.mem.wf = true

/-- `n` steps from a state all give next states. -/
def Runs (n : Nat) (s : State) : Prop :=
  match n with
  | 0 => True
  | k + 1 => ∃ t, step s = .next t ∧ Runs k t

/-- A word may execute behind what stands in front of it, at the level of its strand: it accepts the `himm` words, the `hmod` and
the prefix, the prefix's fields are valid, and a privileged word is not at user level (R50-R56, R58); none of its accesses has been made
before. -/
def Ready (s : State) (a : Accepts) (privileged : Bool) : Prop :=
  s.me.himm.length ≤ a.himm ∧ (s.me.hmod = some true → a.nofwd = true) ∧ (s.me.hmod = some false → a.l1na = true) ∧
  (s.me.pp = true → a.fmt = true ∧ fmtBad s.me.fmtp.toNat = false) ∧ (privileged = true → s.myLevel ≠ .user) ∧
  s.me.got = []

/-- A step that may make every access of an instruction, none of which was made before (R152): the instruction ends in it. -/
def Whole (s : State) : Prop := s.cut = none ∧ s.replay = []

/-- Only the strand that executes and its core have changed. -/
def Local (s t : State) : Prop :=
  t = { s with strands := t.strands, cores := t.cores } ∧
  (∀ i, StrandId.tid i ≠ StrandId.tid s.cur → t.strand i = s.strand i) ∧ (∀ c, c ≠ s.cur.core → t.core c = s.core c)

/-- A strand whose word has retired and fetches at `pc` next: the `hsched`, `himm` and `hmod` words in front of it are spent, and so is
a pending prefix (R50, R56); the words fetched beyond it stand where it goes on at the next one (R28). -/
def spentAt (t : Strand) (pc : Word) : Strand :=
  { t with pc := pc, sched := false, himm := [], hmod := none, fmtp := if t.pp then 0 else t.fmtp, ssw := putBits t.ssw 3 1 0,
           got := [], ahead := if pc = t.pc + 4 then t.ahead - 1 else 0 }

/-- A strand whose hint word has retired: fetch goes on at the next word, and one word less is fetched and not retired (R28, R50). -/
def passed (t : Strand) : Strand := { t with pc := t.pc + 4, ahead := t.ahead - 1 }

/-- The word has retired at `pc` and changed nothing else. -/
def Went (s t : State) (pc : Word) : Prop :=
  Local s t ∧ t.me = spentAt s.me pc ∧ t.core s.cur.core = s.core s.cur.core

/-- A word has retired at `pc` that writes `v` to the integer register `d`, where `x0` and `s0` discard it, and changes no other
register of any kind and nothing outside the executing strand and the shared registers of its core (R30, R86). -/
def WroteXAt (s t : State) (pc : Word) (d : IntReg) (v : Word) : Prop :=
  Local s t ∧ t.me = { spentAt s.me pc with x := t.me.x } ∧
  t.core s.cur.core = { s.core s.cur.core with s := (t.core s.cur.core).s } ∧
  ∀ r, t.x r = if r = d ∧ d ≠ 0 ∧ d ≠ 32 then v else s.x r

/-- As `WroteXAt`, at the next word. -/
def WroteX (s t : State) (d : IntReg) (v : Word) : Prop := WroteXAt s t (s.me.pc + 4) d v

/-- What the caches of a core hold may have changed, and its prefetch counters with them. -/
def CoreCaches (a b : CoreState) : Prop :=
  b = { a with tlb := b.tlb, l1 := b.l1, pfUseful := b.pfUseful, pfLate := b.pfLate, pfUseless := b.pfUseless }

/-- What the caches of a cluster hold may have changed. -/
def ClusterCaches (a b : ClusterState) : Prop := b = { a with tlb := b.tlb, walkCache := b.walkCache, lines := b.lines }

/-- Only caches have changed: residency, and the prefetch counters. -/
def CacheOnly (s t : State) : Prop :=
  t = { s with cores := t.cores, clusters := t.clusters, caches := t.caches } ∧ (∀ c, CoreCaches (s.core c) (t.core c)) ∧
    ∀ k, ClusterCaches (s.cluster k) (t.cluster k)

/-- Only wakes from retention have changed cores and clusters: a core at depth 3 whose scratchpad is reached is awake, and its cluster with
it (R43, R357). -/
def Woken (s t : State) : Prop :=
  (∀ c, t.core c = s.core c ∨ ((s.core c).retained = 3 ∧ t.core c = { s.core c with retained := 0 })) ∧
    ∀ k, t.cluster k = s.cluster k ∨ t.cluster k = (s.cluster k).wake

/-- What a read or write of a party that is no strand changes in cores and clusters: caches, and a core at depth 3 whose scratchpad is reached
wakes, and its cluster with it (R43, R328, R357). -/
def Reached (s t : State) : Prop :=
  (∀ c, CoreCaches { s.core c with retained := (t.core c).retained } (t.core c) ∧
    ((t.core c).retained = (s.core c).retained ∨ ((s.core c).retained = 3 ∧ (t.core c).retained = 0))) ∧
    ∀ k, ClusterCaches (s.cluster k) (t.cluster k) ∨ ClusterCaches (s.cluster k).wake (t.cluster k)

/-- What finding the place of an access changes: caches, and, before a walk afresh, after one with cached entries has failed, the strand's
older stores have entered T (R153, R285). -/
def Translated (s t : State) : Prop := CacheOnly s t ∨ ∃ u, CacheOnly s u ∧ CacheOnly (u.drain s.cur) t

/-- What a word leaves that has read memory in a state: caches may have changed, the free values drawn from have moved on, and the stores
of siblings that it took are noted; memory, the store buffers and every other register but `x` and the shared ones stand as they did, and
the word has retired. -/
def ReadOnly (s t : State) : Prop :=
  t = { s with strands := t.strands, cores := t.cores, clusters := t.clusters, caches := t.caches, free := t.free } ∧
  (∀ i, StrandId.tid i ≠ StrandId.tid s.cur → t.strand i = s.strand i) ∧
  t.me = { spentAt s.me (s.me.pc + 4) with x := t.me.x, seen := t.me.seen } ∧
  (∀ c, CoreCaches { s.core c with s := (t.core c).s } (t.core c)) ∧ (∀ k, ClusterCaches (s.cluster k) (t.cluster k)) ∧
  (∀ c, c ≠ s.cur.core → (t.core c).s = (s.core c).s)

/-- A word has retired that writes `v` to elastic register `d` at the length in force and accrues flags: every other elastic register,
every other register, and everything outside the executing strand stand (R74, R80, R114). -/
def WroteF (s t : State) (d : FReg) (v : Val) (fl : Flags) : Prop :=
  Local s t ∧ t.me = { spentAt { s.me with ssw := accrueSsw s.me.ssw fl } (s.me.pc + 4) with g := t.me.g } ∧
  t.core s.cur.core = s.core s.cur.core ∧ ∀ j, t.me.fBits j = if j = d.toNat then elEncode s.me.p v else s.me.fBits j

/-- As `WroteX` for a word that also accrues flags. -/
def WroteXFlags (s t : State) (d : IntReg) (v : Word) (fl : Flags) : Prop :=
  WroteX (s.modMe (fun t => { t with ssw := accrueSsw t.ssw fl })) t d v

/-- A word has retired that writes `v` to vector register `d` and accrues flags; a subnormal element may have cost the strand
fetches (R85). Nothing else has changed. -/
def WroteV (s t : State) (d : VReg) (v : VWord) (fl : Flags) : Prop :=
  Local s t ∧ t.me = { spentAt { s.me with ssw := accrueSsw s.me.ssw fl } (s.me.pc + 4) with v := t.me.v, forfeit := t.me.forfeit } ∧
  t.core s.cur.core = s.core s.cur.core ∧ ∀ r, t.v r = if r = d then v else s.v r

/-- As `WroteV` for a mask register, where `m0` discards the write (R30). -/
def WroteM (s t : State) (d : MReg) (v : MWord) (fl : Flags) : Prop :=
  Local s t ∧ t.me = { spentAt { s.me with ssw := accrueSsw s.me.ssw fl } (s.me.pc + 4) with m := t.me.m, forfeit := t.me.forfeit } ∧
  t.core s.cur.core = s.core s.cur.core ∧ ∀ r, t.m r = if r = d ∧ d ≠ 0 then v else s.m r

/-- Element `i` of `n` bytes. -/
def elem (v : VWord) (n i : Nat) : BitVec (8 * n) := v.extractLsb' (8 * n * i) (8 * n)

/-- Element `i` of `n` bytes is active under a mask: the mask's bit at the element's lowest byte (R131). -/
def on (k : MWord) (n i : Nat) : Prop := k.getLsbD (n * i) = true

/-- The vector whose active elements of `n` bytes are `f` and whose others are those of `old` (R131). -/
def Elements (v old : VWord) (k : MWord) (n : Nat) (f : Nat → BitVec (8 * n)) : Prop :=
  ∀ i < 128 / n, (on k n i → elem v n i = f i) ∧ (¬ on k n i → elem v n i = elem old n i)

/-- The mask whose bits are all set for the active elements of `n` bytes that satisfy `f`, and clear for all others (R133). -/
def MaskBits (m k : MWord) (n : Nat) (f : Nat → Bool) : Prop :=
  ∀ j < 128, (m.getLsbD j = true ↔ on k n (j / n) ∧ f (j / n) = true)

/-- No pending fence holds any of a list of ranges (R169). -/
def UnheldAll (s : State) (ranges : List (Nat × Nat)) : Prop := ∀ r ∈ ranges, s.fenced s.cur r.1 r.2 = false

/-- The stores of a word to pages that are no device pages: memory and every strand stand, and the store buffer of the core has grown by stores of
the executing strand that hold exactly the cells listed, in order (R96, R154). -/
def Buffered (s u : State) (cells : List Host.Cell) : Prop :=
  u = { s with cores := u.cores, clusters := u.clusters, caches := u.caches, fresh := u.fresh } ∧
  (∀ c, CoreCaches { s.core c with buffer := (u.core c).buffer } (u.core c)) ∧ (∀ k, ClusterCaches (s.cluster k) (u.cluster k)) ∧
  (∀ c, c ≠ s.cur.core → (u.core c).buffer = (s.core c).buffer) ∧
  ∃ new, (u.core s.cur.core).buffer = (s.core s.cur.core).buffer ++ new ∧ (∀ b ∈ new, b.num = s.cur.num) ∧
    new.flatMap (fun b => b.cells) = cells

/-- The page takes stores through the store buffer: it is no device page (R157). -/
def Plain (p : Place) : Prop := p.ca ≠ 2

/-- No fence that is pending holds an access of the executing strand to `n` bytes at an address (R169). -/
def Unheld (s : State) (ea n : Nat) : Prop := s.fenced s.cur ea (ea + n) = false

/-- A context's key is not in the slot of the shared key (R257, R283). -/
def KeyFits (c : Cred) : Prop := ∀ epoch, c.key ≠ .ctx Config.sharedSlot epoch

/-- A strand has started a task (R233): PC, `x1`, the arguments, `x13` and TCOORD are the record's, and every other register is as it
was; the model notes the task and the time. -/
def Started (old new : Strand) (r : TaskRecord) (link : Word) : Prop :=
  new = { old with pc := r.entry.setWidth 64, st := .running, x := new.x, wait := none, served := none, lastFetch := new.lastFetch, ahead := 0,
                   task := some r, begun := 0, inline := none, tcoord := (0 : BitVec 16) ++ r.tz ++ r.ty ++ r.tx } ∧
  ∀ n, Sparse.at 0 new.x n = if n = 1 then link else if n = 10 then r.arg0.setWidth 64 else if n = 11 then r.arg1.setWidth 64
    else if n = 12 then r.arg2.setWidth 64 else if n = 13 then r.join else Sparse.at 0 old.x n

/-- The security engine runs the mailbox command `op` with operands that name what it needs and set no unused bit (R339, R340). -/
def Asked (s : State) (op : Nat) (args : Sparse Word) : Prop :=
  s.hub.running = some (BitVec.ofNat 8 op, args) ∧ unusedClear op args = true ∧ s.namesOk op args = true

/-- The command has ended with a status and results, the results being 0 unless the status is, and the host has been told (R338, R340). -/
def Answered (s t : State) (status res0 res1 : Nat) : Prop :=
  t = { s with hub := { s.hub with running := none, status := BitVec.ofNat 8 status, done := true,
                                   res0 := if status = 0 then BitVec.ofNat 64 res0 else 0,
                                   res1 := if status = 0 then BitVec.ofNat 64 res1 else 0, msi := s.hub.msi ++ [3] } }

/-- A 6-bit register name of the `x` register that a 5-bit field names. -/
def xName (r : XReg) : IntReg := r.zeroExtend 6

end Sys2Proof.Safety
end

