-- ==== Sys2Proof/Certificates/Slice0/Obligations.lean ====
section
/-! DEFINITION. The statements about the machine. -/

open Sys2Proof Sys2Proof.Machine Sys2Proof.Safety

/-- Register-register operations write the result of R89-R91 (R89, R90, R91). -/
def Obligations.RegisterOperations : Prop :=
  ∀ (s : State) (d a b : IntReg), Ready s plain false →
    let u := s.x a
    let v := s.x b
    ∀ e ∈ [(Instr.add d a b, u + v), (Instr.sub d a b, u - v), (Instr.and d a b, u &&& v), (Instr.or d a b, u ||| v),
        (Instr.xor d a b, u ^^^ v), (Instr.andn d a b, u &&& ~~~v), (Instr.orn d a b, u ||| ~~~v), (Instr.xnor d a b, ~~~(u ^^^ v)),
        (Instr.sll d a b, u <<< (v.toNat % 64)), (Instr.srl d a b, u >>> (v.toNat % 64)),
        (Instr.sra d a b, BitVec.ofInt 64 (u.toInt / 2 ^ (v.toNat % 64))),
        (Instr.rol d a b, (u <<< (v.toNat % 64)) ||| (u >>> (64 - v.toNat % 64))),
        (Instr.ror d a b, (u >>> (v.toNat % 64)) ||| (u <<< (64 - v.toNat % 64))),
        (Instr.slt d a b, if u.toInt < v.toInt then 1 else 0), (Instr.sltu d a b, if u.toNat < v.toNat then 1 else 0),
        (Instr.min d a b, BitVec.ofInt 64 (min u.toInt v.toInt)), (Instr.max d a b, BitVec.ofInt 64 (max u.toInt v.toInt)),
        (Instr.minu d a b, BitVec.ofNat 64 (min u.toNat v.toNat)), (Instr.maxu d a b, BitVec.ofNat 64 (max u.toNat v.toNat)),
        (Instr.mul d a b, BitVec.ofNat 64 (u.toNat * v.toNat)), (Instr.mulh d a b, BitVec.ofInt 64 (u.toInt * v.toInt / 2 ^ 64)),
        (Instr.mulhu d a b, BitVec.ofNat 64 (u.toNat * v.toNat / 2 ^ 64)),
        (Instr.mulhsu d a b, BitVec.ofInt 64 (u.toInt * v.toNat / 2 ^ 64)),
        (Instr.div d a b, if v = 0 then BitVec.ofNat 64 (2 ^ 64 - 1) else BitVec.ofInt 64 (u.toInt.tdiv v.toInt)),
        (Instr.divu d a b, if v = 0 then BitVec.ofNat 64 (2 ^ 64 - 1) else BitVec.ofNat 64 (u.toNat / v.toNat)),
        (Instr.rem d a b, if v = 0 then u else BitVec.ofInt 64 (u.toInt.tmod v.toInt)),
        (Instr.remu d a b, if v = 0 then u else BitVec.ofNat 64 (u.toNat % v.toNat)),
        (Instr.sel d a b, if s.x d ≠ 0 then u else v)],
      ∃ t, exec e.1 s = .next t ∧ WroteX s t d e.2

/-- clz, ctz, popc and bswap count and reverse as R89 says (R89, R30, R86). -/
def Obligations.UnaryOperations : Prop :=
  ∀ (s : State) (d a : IntReg), Ready s plain false →
    (∃ t n, exec (.clz d a) s = .next t ∧ WroteX s t d (BitVec.ofNat 64 n) ∧ n ≤ 64 ∧
      (∀ i, 64 - n ≤ i → (s.x a).getLsbD i = false) ∧ (n < 64 → (s.x a).getLsbD (63 - n) = true)) ∧
    (∃ t n, exec (.ctz d a) s = .next t ∧ WroteX s t d (BitVec.ofNat 64 n) ∧ n ≤ 64 ∧
      (∀ i, i < n → (s.x a).getLsbD i = false) ∧ (n < 64 → (s.x a).getLsbD n = true)) ∧
    (∃ t, exec (.popc d a) s = .next t ∧
      WroteX s t d (BitVec.ofNat 64 ((List.range 64).countP (fun i => (s.x a).getLsbD i)))) ∧
    (∃ t w, exec (.bswap d a) s = .next t ∧ WroteX s t d w ∧
      ∀ i, i < 8 → w.extractLsb' (8 * i) 8 = (s.x a).extractLsb' (56 - 8 * i) 8)

/-- Immediate operations write the result of R92-R94, widened by himm (R92, R93, R94). -/
def Obligations.ImmediateOperations : Prop :=
  ∀ (s : State) (d a : IntReg) (i : BitVec 14) (n : BitVec 6),
    let u := s.x a
    (Ready s { himm := 2 } false →
      let k : Word := match s.me.himm with
        | [] => i.signExtend 64
        | [h] => (h ++ i).signExtend 64
        | h :: g :: _ => (h ++ g ++ i).signExtend 64
      ∀ e ∈ [(Instr.addi d a i, u + k), (Instr.andi d a i, u &&& k), (Instr.ori d a i, u ||| k), (Instr.xori d a i, u ^^^ k),
          (Instr.slti d a i, if u.toInt < k.toInt then 1 else 0), (Instr.sltiu d a i, if u.toNat < k.toNat then 1 else 0),
          (Instr.muli d a i, u * k)],
        ∃ t, exec e.1 s = .next t ∧ WroteX s t d e.2) ∧
    (Ready s plain false →
      ∀ e ∈ [(Instr.slli d a n, u <<< n.toNat), (Instr.srli d a n, u >>> n.toNat), (Instr.srai d a n, u.sshiftRight n.toNat),
          (Instr.rori d a n, (u >>> n.toNat) ||| (u <<< (64 - n.toNat))), (Instr.lih d a i, i ++ u.extractLsb' 0 50)],
        ∃ t, exec e.1 s = .next t ∧ WroteX s t d e.2)

/-- Hint words join the chain in front of the next word; a second of a kind traps 0x08, and one in front that they do not extend 0x07 (R50, R52, R53, R54, R55, R56, R60, R61). -/
def Obligations.HintWords : Prop :=
  ∀ (s : State),
    (∀ p, s.me.himm.length ≤ 1 → s.me.hmod = none → s.me.pp = false →
      exec (.himm p) s = .next (s.setStrand s.cur { passed s.me with himm := s.me.himm ++ [p] })) ∧
    (∀ b n u, s.me.sched = false → s.me.himm = [] → s.me.hmod = none → s.me.pp = false →
      ∃ w, exec (.hsched b n u) s = .next (s.setStrand s.cur { passed s.me with sched := true, nudge := w }) ∧
        (u = 1 → w = some (s.clk.cycles + 64, true)) ∧ (u = 2 → w = some (s.clk.cycles + 64, false)) ∧ (u = 0 → w = s.me.nudge)) ∧
    (s.me.hmod = none → s.me.himm = [] → s.me.pp = false →
      exec .hmodNofwd s = .next (s.setStrand s.cur { passed s.me with hmod := some true }) ∧
      exec .hmodL1na s = .next (s.setStrand s.cur { passed s.me with hmod := some false })) ∧
    (∀ a b o r v, s.me.pp = false → s.me.himm = [] → s.me.hmod = none →
      ∃ t, exec (.fmt a b o r v) s = .next t ∧ t = s.setStrand s.cur t.me ∧ t.me.pp = true ∧
        t.me = { passed s.me with fmtp := (a ++ b ++ o ++ (0 : BitVec 8) ++ r ++ v).zeroExtend 64, ssw := t.me.ssw } ∧
        ∀ k, k ≠ 3 → t.me.ssw.getLsbD k = s.me.ssw.getLsbD k) ∧
    (∀ p, 2 ≤ s.me.himm.length → exec (.himm p) s = .next (s.raise s.cur (trapOf 0x08))) ∧
    (∀ b n u, s.me.sched = true → exec (.hsched b n u) s = .next (s.raise s.cur (trapOf 0x08))) ∧
    (s.me.hmod ≠ none → exec .hmodNofwd s = .next (s.raise s.cur (trapOf 0x08)) ∧
      exec .hmodL1na s = .next (s.raise s.cur (trapOf 0x08))) ∧
    (∀ a b o r v, s.me.pp = true → exec (.fmt a b o r v) s = .next (s.raise s.cur (trapOf 0x08))) ∧
    (∀ p, s.me.himm.length ≤ 1 → s.me.hmod ≠ none ∨ s.me.pp = true → exec (.himm p) s = .next (s.raise s.cur (trapOf 0x07))) ∧
    (∀ b n u, s.me.sched = false → s.me.himm ≠ [] ∨ s.me.hmod ≠ none ∨ s.me.pp = true →
      exec (.hsched b n u) s = .next (s.raise s.cur (trapOf 0x07))) ∧
    (s.me.hmod = none → s.me.himm ≠ [] ∨ s.me.pp = true → exec .hmodNofwd s = .next (s.raise s.cur (trapOf 0x07)) ∧
      exec .hmodL1na s = .next (s.raise s.cur (trapOf 0x07))) ∧
    (∀ a b o r v, s.me.pp = false → s.me.himm ≠ [] ∨ s.me.hmod ≠ none →
      exec (.fmt a b o r v) s = .next (s.raise s.cur (trapOf 0x07)))

/-- Branches, j and call go where R108 and R109 say (R108, R109). -/
def Obligations.ControlTransfers : Prop :=
  ∀ (s : State) (a b : IntReg) (o : BitVec 14) (f : BitVec 26), Ready s plain false →
    let u := s.x a
    let v := s.x b
    (∀ e ∈ [(Instr.beq a b o, decide (u = v)), (Instr.bne a b o, decide (u ≠ v)), (Instr.blt a b o, decide (u.toInt < v.toInt)),
        (Instr.bge a b o, decide (v.toInt ≤ u.toInt)), (Instr.bltu a b o, decide (u.toNat < v.toNat)),
        (Instr.bgeu a b o, decide (v.toNat ≤ u.toNat))],
      ∃ t, exec e.1 s = .next t ∧ Went s t (if e.2 then s.me.pc + 4 * o.signExtend 64 else s.me.pc + 4)) ∧
    (∃ t, exec (.j f) s = .next t ∧ Went s t (s.me.pc + 4 * f.signExtend 64)) ∧
    (∃ t, exec (.call f) s = .next t ∧ WroteXAt s t (s.me.pc + 4 * f.signExtend 64) 1 (s.me.pc + 4))

/-- Register jumps go to the register; a misaligned target, or in translated code one that starts no Gethen instruction, traps 0x0B (R110, R44, R316). Where the spec leaves a point open, this is the model's reading or choice: log entry 49. -/
def Obligations.RegisterJumps : Prop :=
  ∀ (s : State) (a : IntReg), Ready s plain false →
    let lands : Prop := (s.x a).toNat % 4 = 0 ∧ ∀ k, s.translatedHere = some k → (s.x a - k.codeVa).toNat ∈ k.starts
    (lands → (∃ t, exec (.jr a) s = .next t ∧ Went s t (s.x a)) ∧
      ∃ t, exec (.callr a) s = .next t ∧ WroteXAt s t (s.x a) 1 (s.me.pc + 4)) ∧
    ((s.x 1).toNat % 4 = 0 → ∃ t, exec .ret s = .next t ∧ Went s t (s.x 1)) ∧
    (¬ lands → exec (.jr a) s = .next (s.raise s.cur (trapOf 0x0B)) ∧
      exec (.callr a) s = .next (s.raise s.cur (trapOf 0x0B))) ∧
    ((s.x 1).toNat % 4 ≠ 0 → exec .ret s = .next (s.raise s.cur (trapOf 0x0B)))

/-- Scalar loads return their location or register, extended by the size code, and change no memory (R39, R95, R96, R97, R49, R100, R153, R154, R157, R170, R285). Where the spec leaves a point open, this is the model's reading or choice: log entries 10, 111. -/
def Obligations.ScalarLoads : Prop :=
  ∀ (s s' : State),
    (∀ (ea m : Nat) (kind : Access) (hidden : Bool) (g : Target), s.reach ea m kind hidden = .ok (g, s') → Translated s s') ∧
    ∀ (d b i : IntReg) (z : BitVec 3) (e : BitVec 2) (l : BitVec 1) (q : BitVec 8),
    let n := accessSize z.toNat
    let extended : Nat → Word := fun w => if z.toNat % 2 = 0 then (BitVec.ofNat (8 * n) w).signExtend 64 else (BitVec.ofNat (8 * n) w).setWidth 64
    ∀ x ∈ [(Instr.ld d b z e l q, (s.x b + s.me.disp q n).toNat, 1), (Instr.ldx d b z e l i, (s.x b + s.x i * BitVec.ofNat 64 n).toNat, 0)],
      z ≠ 7 → Whole s → Ready s (loadAccepts x.2.2) false → x.2.1 % n = 0 → Unheld s x.2.1 n →
      (∀ p, s.reach x.2.1 n .read false = .ok (.mem p, s') → s'.admits p n .read = .ok () → s'.placeHeld p false = false →
        let alone := s.me.hmod == some true || p.ca == 2
        let u := (s'.settleLoad s.cur p.loc n alone).wakeSpad p.loc
        let bytes := if p.ca = 2 ∧ isHub p.loc = true then u.hubBytes p.loc n
          else (List.range n).map (fun k => if alone then u.mem.read u.free p.cred (p.loc + k) else u.loadByte s.cur p.cred (p.loc + k))
        ∃ t, exec x.1 s = .next t ∧ ReadOnly { u with mem := t.mem } t ∧
          (∀ r, t.x r = if r = d ∧ d ≠ 0 ∧ d ≠ 32 then extended (leNat bytes) else u.x r) ∧
          t.mem = { u.mem with olds := t.mem.olds } ∧ (l = 0 ∨ p.ca ≠ 0 ∨ p.drops = false → t.mem = u.mem)) ∧
      (∀ off, s.reach x.2.1 n .read false = .ok (.reg off, s') →
        (regNamed s.me.p off n = none → exec x.1 s = .next (s.raise s.cur (trapAt 0x29 x.2.1))) ∧
        (∀ r o, regNamed s.me.p off n = some (r, o) → (∀ k, r = .csr k → csrDenied s.myLevel false k = false) →
          ∃ t, exec x.1 s = .next t ∧ WroteX s t d (extended (s.regValue r / 2 ^ (8 * o)))) ∧
        (∀ k o, regNamed s.me.p off n = some (.csr k, o) → csrDenied s.myLevel false k = true →
          exec x.1 s = .next (s.raise s.cur (trapOf 0x06))))

/-- Scalar stores retire into the shared store buffer, act on a device page at once, or write a register of the register space (R39, R95, R96, R97, R100, R103, R154, R157, R170). Where the spec leaves a point open, this is the model's reading or choice: log entries 62, 67. -/
def Obligations.ScalarStores : Prop :=
  ∀ (s s' : State) (d b i : IntReg) (z : BitVec 3) (e : BitVec 2) (l : BitVec 1) (q : BitVec 8),
    let n := accessSize z.toNat
    let byte : Nat → Byte := fun k => (s.x d).extractLsb' (8 * k) 8
    ∀ x ∈ [(Instr.st d b z e l q, (s.x b + s.me.disp q n).toNat, 1), (Instr.stx d b z e l i, (s.x b + s.x i * BitVec.ofNat 64 n).toNat, 0)],
      z.toNat % 2 = 0 → Whole s → Ready s (storeAccepts x.2.2) false → x.2.1 % n = 0 → Unheld s x.2.1 n →
      (∀ p, s.reach x.2.1 n .write false = .ok (.mem p, s') → p.sync = false → p.ca ≠ 2 → s'.placeHeld p true = false →
        ∃ t, exec x.1 s = .next t ∧
          t = { s' with strands := t.strands, cores := t.cores, clusters := t.clusters, caches := t.caches, fresh := s'.fresh + 1 } ∧
          (∀ r, t.x r = s'.x r) ∧ t.me = spentAt s'.me (s'.me.pc + 4) ∧
          (∀ j, StrandId.tid j ≠ StrandId.tid s.cur → t.strand j = s'.strand j) ∧
          (∀ c, CoreCaches { s'.core c with buffer := (t.core c).buffer } (t.core c)) ∧
          (∀ k, ClusterCaches (s'.cluster k) (t.cluster k)) ∧
          (t.core s.cur.core).buffer = (s'.core s.cur.core).buffer ++
            [{ num := s.cur.num, id := s'.fresh, born := if s'.me.got.isEmpty then s'.fresh else s'.me.bornAt, leaf := p.leaf,
               cells := (List.range n).map (fun k => (p.loc + k, byte k)), cred := p.cred, pair := p.pair,
               last := if l = 1 ∧ p.cached = true ∧ isDram p.loc = true then some p.drops else none }] ∧
          (∀ c, c ≠ s.cur.core → (t.core c).buffer = (s'.core c).buffer)) ∧
      (∀ p, s.reach x.2.1 n .write false = .ok (.mem p, s') → p.sync = false → p.ca = 2 →
        let u := if isHub p.loc then (s'.drain s.cur).hubStores n p.loc ((List.range n).map byte)
          else (s'.drain s.cur).store p.cred ((List.range n).map (fun k => (p.loc + k, byte k)))
        ∃ t, exec x.1 s = .next t ∧ Went u t (u.me.pc + 4)) ∧
      (∀ p, s.reach x.2.1 n .write false = .ok (.mem p, s') → p.sync = true → exec x.1 s = .next (s.raise s.cur (trapAt 0x80 p.va))) ∧
      (∀ off, s.reach x.2.1 n .write false = .ok (.reg off, s') →
        (regNamed s.me.p off n = none → exec x.1 s = .next (s.raise s.cur (trapAt 0x29 x.2.1))) ∧
        (∀ r o, regNamed s.me.p off n = some (r, o) →
          let w := mergeBytes (s.regValue r) ((List.range n).map (fun k => (o + k, byte k)))
          (∀ k, r = .x k → ∃ t, exec x.1 s = .next t ∧ WroteX s t (BitVec.ofNat 6 k) (BitVec.ofNat 64 w)) ∧
          (∀ k, r = .s k → ∃ t, exec x.1 s = .next t ∧ WroteX s t (BitVec.ofNat 6 (k + 32)) (BitVec.ofNat 64 w)) ∧
          (∀ k, r = .m k → ∃ t, exec x.1 s = .next t ∧ WroteM s t (BitVec.ofNat 3 k) (BitVec.ofNat 128 w) {}) ∧
          (∀ k, r = .v k → ∃ t, exec x.1 s = .next t ∧ WroteV s t (BitVec.ofNat 5 k) (BitVec.ofNat 1024 w) {}) ∧
          (∀ k, r = .csr k → csrDenied s.myLevel true k = true → exec x.1 s = .next (s.raise s.cur (trapOf 0x06))) ∧
          (∀ k u, r = .csr k → csrDenied s.myLevel true k = false → k ≠ 0 → k ≠ 0x0C → s.csrWrite k (BitVec.ofNat 64 w) = .ok u →
            ∃ t, exec x.1 s = .next t ∧ Went u t (u.me.pc + 4))))

/-- The oldest buffered store of a strand enters memory: its bytes, its words full, and no other byte (R5, R98, R100, R154, R155, R170, R269). Where the spec leaves a point open, this is the model's reading or choice: log entries 1, 5, 62, 67. -/
def Obligations.StoreEntersMemory : Prop :=
  ∀ (s : State) (sid : StrandId) (b : BufStore) (rest : List BufStore),
    takeFirst (fun b => b.num == sid.num) (s.core sid.core).buffer = some (b, rest) →
    (∀ a ∈ (s.core sid.core).buffer.takeWhile (fun a => a.id != b.id), s.readBoth sid.core a b = false) →
    s.waiters = [] → KeyFits b.cred → (∀ e ∈ b.placed s.mem, ∀ e' ∈ b.placed s.mem, e.1 = e'.1 → e = e') →
    let cells := (b.placed s.mem).filterMap s.fieldCell
    ∃ t, exec (.storeBufferDrain sid) s = .next t ∧ (t.core sid.core).buffer = rest ∧
      (b.last ≠ some true →
        (∀ e ∈ cells, t.mem.read t.free b.cred e.1 = e.2 ∧ t.mem.rawFull e.1 = true) ∧
        (∀ a, (∀ e ∈ cells, e.1 ≠ a) → s.mem.sight b.cred a ≠ .stale → t.mem.read t.free b.cred a = s.mem.read s.free b.cred a) ∧
        (∀ a, (∀ e ∈ cells, e.1 / 8 ≠ a / 8) → s.mem.sight b.cred a ≠ .stale → s.mem.full s.free b.cred a = t.mem.full t.free b.cred a)) ∧
      (∀ e ∈ cells, t.mem.raw e.1 = e.2) ∧
      t = { s with cores := t.cores, clusters := t.clusters, caches := t.caches, mem := t.mem } ∧
      (∀ c, t.core c = { s.core c with buffer := (t.core c).buffer, retained := (t.core c).retained } ∧
        (c ≠ sid.core → (t.core c).buffer = (s.core c).buffer) ∧
        ((t.core c).retained = (s.core c).retained ∨ ((s.core c).retained = 3 ∧ (t.core c).retained = 0 ∧
          ∃ e ∈ cells, isSpad e.1 = true ∧ spadCore e.1 = c)))

/-- Atomics read, compute and write at the home, and D takes the old value sign-extended (R101, R102, R103). -/
def Obligations.AtomicOperations : Prop :=
  ∀ (s s' : State) (d a b : IntReg) (w : BitVec 1) (p : Place),
    let n : Nat := if w = 1 then 8 else 4
    let ea := (s.x a).toNat
    Ready s plain false → Unheld s ea n → s.reachHome ea n = .ok (p, s') →
    let old : BitVec (8 * n) := BitVec.ofNat (8 * n) (s'.mem.readNat s'.free p.cred p.loc n)
    let v : BitVec (8 * n) := BitVec.ofNat (8 * n) (s.x b).toNat
    let c : BitVec (8 * n) := BitVec.ofNat (8 * n) (s.x d).toNat
    ∀ x ∈ [(Instr.amoSwap d a b w, some v), (Instr.amoCas d a b w, if old = c then some v else none), (Instr.amoAdd d a b w, some (old + v)),
        (Instr.amoAnd d a b w, some (old &&& v)), (Instr.amoOr d a b w, some (old ||| v)), (Instr.amoXor d a b w, some (old ^^^ v)),
        (Instr.amoMin d a b w, some (if old.toInt ≤ v.toInt then old else v)), (Instr.amoMax d a b w, some (if v.toInt ≤ old.toInt then old else v)),
        (Instr.amoMinu d a b w, some (if old.toNat ≤ v.toNat then old else v)), (Instr.amoMaxu d a b w, some (if v.toNat ≤ old.toNat then old else v))],
      let u : State := match x.2 with
        | some new => s'.store p.cred ((List.range n).map (fun k => (p.loc + k, new.extractLsb' (8 * k) 8)))
        | none => s'
      ∃ t, exec x.1 s = .next t ∧ WroteX { u with free := u.free + 1 } t d (old.signExtend 64)

/-- Full/empty operations serve a word whose bit is as they wait for, and otherwise wait at its home (R104, R105, R106). Where the spec leaves a point open, this is the model's reading or choice: log entry 81. -/
def Obligations.FullEmptyOperations : Prop :=
  ∀ (s s' : State) (d a b : IntReg) (p : Place),
    let ea := (s.x a).toNat
    Ready s plain false → Unheld s ea 8 → s.reachHome ea 8 = .ok (p, s') → s'.waiters = [] → s.cur.num < 4 → p.loc % 8 = 0 → KeyFits p.cred →
    (∀ k < 8, ∀ v, s'.fieldCell (p.loc + k, v) = some (p.loc + k, v)) →
    let full := s'.mem.full s'.free p.cred p.loc
    let word : Word := BitVec.ofNat 64 (s'.mem.readNat s'.free p.cred p.loc 8)
    (full = true →
      (∃ t, exec (.ldf d a) s = .next t ∧ WroteX { s' with free := s'.free + 1 } t d word) ∧
      (∃ t u, exec (.ldc d a) s = .next t ∧ WroteX u t d word ∧ u.mem.rawFull p.loc = false ∧
        u = { s' with free := s'.free + 1, mem := u.mem, caches := u.caches } ∧
        ∃ t, exec (.stp a b) s = .next t ∧ t.me.st = .parked ∧ t.mem = s'.mem ∧
          t.waiters = [{ who := s.cur, wait := .word .stp 0 p.loc, data := s.x b, cred := p.cred, pair := p.pair }])) ∧
    (full = false →
      (∃ t u, exec (.stp a b) s = .next t ∧ Went u t (s.me.pc + 4) ∧ u = { s' with free := s'.free + 1, mem := u.mem, caches := u.caches } ∧
        u.mem.rawFull p.loc = true ∧ ∀ k < 8, u.mem.read u.free p.cred (p.loc + k) = (s.x b).extractLsb' (8 * k) 8) ∧
      (∃ t, exec (.ldc d a) s = .next t ∧ t.me.st = .parked ∧ t.mem = s'.mem ∧ t.x d = s'.x d ∧
        t.waiters = [{ who := s.cur, wait := .word .ldc d p.loc, data := 0, cred := p.cred, pair := p.pair }]) ∧
      (∃ t, exec (.ldf d a) s = .next t ∧ t.me.st = .parked ∧ t.mem = s'.mem ∧ t.x d = s'.x d ∧
        t.waiters = [{ who := s.cur, wait := .word .ldf d p.loc, data := 0, cred := p.cred, pair := p.pair }])) ∧
    (∃ t u, exec (.feSet a) s = .next t ∧ Went u t (s.me.pc + 4) ∧ u.mem.rawFull p.loc = false ∧
      u = { s' with mem := u.mem, caches := u.caches }) ∧
    (∃ t u, exec (.feFill a) s = .next t ∧ Went u t (s.me.pc + 4) ∧ u.mem.rawFull p.loc = true ∧
      u = { s' with mem := u.mem, caches := u.caches }) ∧
    (∃ t, exec (.feProbe d a) s = .next t ∧ WroteX { s' with free := s'.free + 1 } t d (if full then 1 else 0))

/-- A misaligned scalar access, atomic or full/empty operation traps 0x21 with EVA its address, whatever else is wrong (R97, R103, R106, R112). -/
def Obligations.AccessChecks : Prop :=
  ∀ (s : State) (d b i : IntReg) (z : BitVec 3) (e : BitVec 2) (l w : BitVec 1) (q : BitVec 8), z ≠ 7 →
    let n := accessSize z.toNat
    let m : Nat := if w = 1 then 8 else 4
    let disp := (s.x b + s.me.disp q n).toNat
    let idx := (s.x b + s.x i * BitVec.ofNat 64 n).toNat
    let at_ := (s.x b).toNat
    ∀ x ∈ [(Instr.ld d b z e l q, disp, n, loadAccepts 1), (Instr.ldx d b z e l i, idx, n, loadAccepts 0),
        (Instr.st d b z e l q, disp, n, storeAccepts 1), (Instr.stx d b z e l i, idx, n, storeAccepts 0),
        (Instr.amoSwap d b i w, at_, m, plain), (Instr.amoCas d b i w, at_, m, plain), (Instr.amoAdd d b i w, at_, m, plain),
        (Instr.amoAnd d b i w, at_, m, plain), (Instr.amoOr d b i w, at_, m, plain), (Instr.amoXor d b i w, at_, m, plain),
        (Instr.amoMin d b i w, at_, m, plain), (Instr.amoMax d b i w, at_, m, plain), (Instr.amoMinu d b i w, at_, m, plain),
        (Instr.amoMaxu d b i w, at_, m, plain), (Instr.ldc d b, at_, 8, plain), (Instr.ldf d b, at_, 8, plain), (Instr.stp b i, at_, 8, plain),
        (Instr.feSet b, at_, 8, plain), (Instr.feFill b, at_, 8, plain), (Instr.feProbe d b, at_, 8, plain)],
      Ready s x.2.2.2 false → x.2.1 % x.2.2.1 ≠ 0 → Unheld s x.2.1 x.2.2.1 →
      exec x.1 s = .next (s.raise s.cur (trapAt 0x21 x.2.1))

/-- Elastic forms write their result at the length in force and accrue its flags (R113, R114, R115, R116, R74, R80, R119, R118, R117, R77). Where the spec leaves a point open, this is the model's reading or choice: log entry 28. -/
def Obligations.ElasticArithmetic : Prop :=
  (∀ (s : State) (d e a b c : FReg) (k : XReg) (x y z : Val), Ready s plain false →
    let p := s.me.p
    let rm := s.me.rm
    let o : Val := .zero false
    let done (i : Instr) (r : Arith Val) : Prop := r.cause s.me.nte = none → ∃ t, exec i s = .next t ∧ WroteF s t d r.val r.fl
    (s.me.sources [d] [a] = .ok [x] →
      done (.fsqrt d a) (ElOp.sqrt.run p rm x o o) ∧ done (.fround d a) (integral p rm x) ∧
      done (.fscale d a k) (scaled p rm x (s.x (xName k)).toInt) ∧ done (.fmov d a) { val := x } ∧ done (.fneg d a) { val := x.negate } ∧
      done (.fabs d a) { val := x.withSign false }) ∧
    (s.me.sources [d] [a, b] = .ok [x, y] →
      done (.fadd d a b) (ElOp.add.run p rm x y o) ∧ done (.fsub d a b) (ElOp.sub.run p rm x y o) ∧
      done (.fmul d a b) (ElOp.mul.run p rm x y o) ∧ done (.fdiv d a b) (ElOp.div.run p rm x y o) ∧
      done (.fmin d a b) { val := minMax false x y x y } ∧ done (.fmax d a b) { val := minMax true x y x y }) ∧
    (s.me.sources [d] [a, b, c] = .ok [x, y, z] →
      done (.fma d a b c) (ElOp.fma.run p rm x y z) ∧ done (.fms d a b c) (ElOp.fms.run p rm x y z) ∧
      done (.fnma d a b c) (ElOp.fnma.run p rm x y z)) ∧
    (s.me.sources [d, e] [a, b] = .ok [x, y] →
      ∀ f ∈ [(Instr.ftwosum d a b e, twoResult false p x y), (Instr.ftwoprod d a b e, twoResult true p x y)],
        f.2.1.cause s.me.nte = none →
        ∃ t, exec f.1 s = .next t ∧ Local s t ∧ t.core s.cur.core = s.core s.cur.core ∧
          t.me = { spentAt { s.me with ssw := accrueSsw (accrueSsw s.me.ssw f.2.1.fl) f.2.2.fl } (s.me.pc + 4) with g := t.me.g } ∧
          ∀ j, t.me.fBits j = if j = e.toNat then elEncode p f.2.2.val else if j = d.toNat then elEncode p f.2.1.val else s.me.fBits j)) ∧
  (∀ (mode : Nat) (neg : Bool) (mag : Nat) (exp u : Int), mode ≤ 5 →
    let k := (u - exp).toNat
    let v := if u ≤ exp then mag * 2 ^ (exp - u).toNat else mag
    let t := v / 2 ^ k
    let rest := v % 2 ^ k
    let up : Prop := rest ≠ 0 ∧ ((mode = 0 ∧ (2 ^ k < 2 * rest ∨ (2 * rest = 2 ^ k ∧ t % 2 = 1))) ∨ (mode = 1 ∧ 2 ^ k ≤ 2 * rest) ∨
      (mode = 3 ∧ neg = false) ∨ (mode = 4 ∧ neg = true))
    (up → roundAt mode neg mag exp u = (t + 1, true)) ∧ (¬ up → roundAt mode neg mag exp u = (t, decide (rest ≠ 0))))

/-- Elastic comparisons, fclass and conversions to integer registers write D and accrue their flags (R120, R121, R122, R79, R68). -/
def Obligations.ElasticComparisons : Prop :=
  ∀ (s : State) (d : XReg) (a b : FReg) (x y : Val),
    let bit (c : Bool) : Word := if c then 1 else 0
    let un := x.isNan || y.isNan
    (Ready s plain false → s.me.sources [] [a, b] = .ok [x, y] →
      ∀ e ∈ [(Instr.fcmpEq d a b, bit (x.eqv y), ({} : Flags)), (Instr.fcmpLt d a b, bit (!un && x.lt y), ({ nv := un } : Flags)),
          (Instr.fcmpLe d a b, bit (!un && (x.lt y || x.eqv y)), ({ nv := un } : Flags)), (Instr.fcmpUn d a b, bit un, ({} : Flags))],
        ∃ t, exec e.1 s = .next t ∧ WroteXFlags s t (xName d) e.2.1 e.2.2) ∧
    (Ready s plain false → s.me.sources [] [a] = .ok [x] →
      ∃ t, exec (.fclass d a) s = .next t ∧ WroteX s t (xName d) (BitVec.ofNat 64 (classWord x))) ∧
    (Ready s { fmt := true } false → s.me.sources [] [a] = .ok [x] →
      ∀ e ∈ [(Instr.fcvtDEl d a, intResult (toInt s.me.mode (-(2 ^ 63)) (2 ^ 63 - 1) x)),
          (Instr.fcvtDuEl d a, intResult (toInt s.me.mode 0 (2 ^ 64 - 1) x)), (Instr.fcvtDfEl d a, bitsResult (elToIeee (fmtOf 8) s.me.mode false x)),
          (Instr.fcvtSfEl d a, bitsResult (elToIeee (fmtOf 6) s.me.mode false x))],
        e.2.cause s.me.nte = none → ∃ t, exec e.1 s = .next t ∧ WroteXFlags s t (xName d) e.2.val e.2.fl)

/-- Conversions into elastic registers, setprec, getprec and setrnd (R122, R79, R123, R124). -/
def Obligations.ElasticFromIntegers : Prop :=
  ∀ (s : State) (d : FReg) (a : XReg),
    (Ready s { fmt := true } false → s.me.sources [d] [] = .ok [] →
      ∀ e ∈ [(Instr.fcvtElD d a, elRound s.me.p s.me.mode (Val.ofInt (s.x (xName a)).toInt)),
          (Instr.fcvtElDu d a, elRound s.me.p s.me.mode (Val.ofInt (s.x (xName a)).toNat)),
          (Instr.fcvtElDf d a, ieeeToEl (fmtOf 8) s.me.p s.me.mode (s.x (xName a)).toNat),
          (Instr.fcvtElSf d a, ieeeToEl (fmtOf 6) s.me.p s.me.mode ((s.x (xName a)).toNat % 2 ^ 32))],
        e.2.cause s.me.nte = none → ∃ t, exec e.1 s = .next t ∧ WroteF s t d e.2.val e.2.fl) ∧
    (Ready s plain false →
      (∃ t, exec (.getprec a) s = .next t ∧ WroteX s t (xName a) (BitVec.ofNat 64 (s.me.prec.toNat % 256))) ∧
      ((s.x (xName a)).toNat ≤ 5 → ∃ t, exec (.setrnd a) s = .next t ∧ t.me.rm = (s.x (xName a)).toNat ∧
        t = s.setStrand s.cur t.me ∧ t.me = { spentAt s.me (s.me.pc + 4) with ssw := t.me.ssw } ∧
        ∀ k, k < 3 ∨ 6 < k → t.me.ssw.getLsbD k = s.me.ssw.getLsbD k) ∧
      (5 < (s.x (xName a)).toNat → exec (.setrnd a) s = .next (s.raise s.cur (trapOf 0x0A))) ∧
      (let q := (s.x (xName a)).toNat
       (q < 8 ∨ 224 < q ∨ q % 8 ≠ 0 → exec (.setprec a) s = .next (s.raise s.cur (trapOf 0x41))) ∧
       ∀ vs fl, 8 ≤ q → q ≤ 224 → q % 8 = 0 → s.me.relay q (min (elCount s.me.p) (elCount q)) = .ok (vs, fl) →
        ∃ t, exec (.setprec a) s = .next t ∧ t = s.setStrand s.cur t.me ∧ t.me.p = q ∧
          t.me = { spentAt { s.me with ssw := accrueSsw s.me.ssw fl } (s.me.pc + 4) with prec := BitVec.ofNat 64 q, g := t.me.g } ∧
          (∀ i (h : i < vs.length), t.me.fBits i = elEncode q vs[i]) ∧
          ∀ i, vs.length ≤ i → i < elCount q → t.me.fBits i = elEncode q (elNan 6)))

/-- fld and fld.s read a record at the length in force; fst and fst.s store the register at its own length (R125, R126, R127, R72, R73, R142, R154, R96, R327). Where the spec leaves a point open, this is the model's reading or choice: log entries 34, 111. -/
def Obligations.ElasticRecords : Prop :=
  (∀ (s s1 s2 : State) (d : FReg) (b i : IntReg) (q : BitVec 12) (hd bs : List Byte) (v : Val),
    let nofwd := s.me.hmod == some true
    let n := elN (leNat (hd.take 4))
    let r := elRound s.me.p s.me.rm (elDecode (leNat bs))
    (∀ x ∈ [(Instr.fld d b q, (s.x b + s.me.disp12 q), 1), (Instr.fldS d b i, (s.x b + s.x i), 0)],
      let ea := x.2.1.toNat
      Whole s → Ready s { himm := x.2.2, nofwd := true } false → s.me.existF [d.toNat] = .ok () → Unheld s ea 4 →
      s.recordBytes ea 4 nofwd = .ok (hd, s1) →
      (n = 0 ∨ 28 < n → exec x.1 s = .next (s.raise s.cur (trapAt 0x42 ea))) ∧
      (1 ≤ n → n ≤ 28 → Unheld s ea (4 + n) → s.recordBytes ea (4 + n) nofwd = .ok (bs, s2) →
        (elBad (leNat bs) = true → exec x.1 s = .next (s.raise s.cur (trapAt 0x42 ea))) ∧
        (elBad (leNat bs) = false → r.cause s2.me.nte = none → s2.me.p = s.me.p → ∃ t, exec x.1 s = .next t ∧ WroteF s2 t d r.val r.fl))) ∧
    (∀ x ∈ [(Instr.fst d b q, (s.x b + s.me.disp12 q), 1), (Instr.fstS d b i, (s.x b + s.x i), 0)],
      let ea := x.2.1.toNat
      let len := 4 + s.me.p / 8
      Ready s { himm := x.2.2 } false → s.me.sources [] [d] = .ok [v] → Unheld s ea len →
      s.storeBytes ea (leBytes len (elEncode s.me.p v)) = .ok s1 → ∃ t, exec x.1 s = .next t ∧ Went s1 t (s1.me.pc + 4))) ∧
  (∀ (parts : List (Place × Nat)) (s : State) (bs : List Byte), Whole s → (∀ e ∈ parts, Plain e.1) → bs.length = (parts.map (·.2)).sum →
    (∀ u, s.storeAll parts bs {} = .ok u →
      Buffered s u ((parts.flatMap (fun e => (List.range e.2).map (fun k => e.1.loc + k))).zip bs)) ∧
    (s.hub.busy = 0 → ∃ u, s.storeAll parts bs {} = .ok u))

/-- Vector integer forms compute each active element and keep the others (R129, R131, R133, R134). -/
def Obligations.VectorIntegers : Prop :=
  ∀ (s : State) (d a b : VReg) (c k : MReg) (w : BitVec 2), Ready s plain false →
    let n := 2 ^ w.toNat
    let x : Nat → BitVec (8 * n) := elem (s.v a) n
    let y : Nat → BitVec (8 * n) := elem (s.v b) n
    (∀ e ∈ [(Instr.vadd d a b k w, fun i => x i + y i), (Instr.vsub d a b k w, fun i => x i - y i), (Instr.vmul d a b k w, fun i => x i * y i),
        (Instr.vmulh d a b k w, fun i => BitVec.ofInt (8 * n) ((x i).toInt * (y i).toInt / 2 ^ (8 * n))),
        (Instr.vand d a b k w, fun i => x i &&& y i), (Instr.vor d a b k w, fun i => x i ||| y i), (Instr.vxor d a b k w, fun i => x i ^^^ y i),
        (Instr.vsll d a b k w, fun i => x i <<< ((y i).toNat % (8 * n))), (Instr.vsrl d a b k w, fun i => x i >>> ((y i).toNat % (8 * n))),
        (Instr.vsra d a b k w, fun i => (x i).sshiftRight ((y i).toNat % (8 * n))),
        (Instr.vmin d a b k w, fun i => if (x i).toInt ≤ (y i).toInt then x i else y i),
        (Instr.vmax d a b k w, fun i => if (x i).toInt ≤ (y i).toInt then y i else x i),
        (Instr.vminu d a b k w, fun i => if (x i).toNat ≤ (y i).toNat then x i else y i),
        (Instr.vmaxu d a b k w, fun i => if (x i).toNat ≤ (y i).toNat then y i else x i)],
      ∃ t v, exec e.1 s = .next t ∧ WroteV s t d v {} ∧ Elements v (s.v d) (s.m k) n e.2) ∧
    (∀ e ∈ [(Instr.vcmpEq c a b k w, fun i => decide (x i = y i)), (Instr.vcmpLt c a b k w, fun i => decide ((x i).toInt < (y i).toInt)),
        (Instr.vcmpLtu c a b k w, fun i => decide ((x i).toNat < (y i).toNat))],
      ∃ t v, exec e.1 s = .next t ∧ WroteM s t c v {} ∧ MaskBits v (s.m k) n e.2)

/-- vdot4, vperm, vslide, vbcast and vext move and add elements as R135 and R146 say (R135, R146). -/
def Obligations.VectorDotAndPermutes : Prop :=
  ∀ (s : State) (d a b : VReg) (r q : XReg) (k : MReg) (w : BitVec 2),
    (Ready s { fmt := true } false →
      let fa := s.me.afmt 0
      let fb := s.me.bfmt 0
      let byte (f : Nat) (v : VWord) (i : Nat) : Int := if f = 0 then (elem v 1 i).toInt else (elem v 1 i).toNat
      (fa ≤ 1 → fb ≤ 1 → ∃ t v, exec (.vdot4 d a b k) s = .next t ∧ WroteV s t d v {} ∧
        Elements v (s.v d) (s.m k) 4 (fun j => elem (s.v d) 4 j + BitVec.ofInt 32
          (byte fa (s.v a) (4 * j) * byte fb (s.v b) (4 * j) + byte fa (s.v a) (4 * j + 1) * byte fb (s.v b) (4 * j + 1) +
           byte fa (s.v a) (4 * j + 2) * byte fb (s.v b) (4 * j + 2) + byte fa (s.v a) (4 * j + 3) * byte fb (s.v b) (4 * j + 3)))) ∧
      (1 < fa ∨ 1 < fb → exec (.vdot4 d a b k) s = .next (s.raise s.cur (trapOf 0x09)))) ∧
    (Ready s plain false →
      let n := 2 ^ w.toNat
      let x : Nat → BitVec (8 * n) := elem (s.v a) n
      (∃ t v, exec (.vperm d a b k w) s = .next t ∧ WroteV s t d v {} ∧
        Elements v (s.v d) (s.m k) n (fun i => x ((elem (s.v b) n i).toNat % (128 / n)))) ∧
      (∃ t v, exec (.vslide d a r k w) s = .next t ∧ WroteV s t d v {} ∧
        Elements v (s.v d) (s.m k) n (fun i =>
          let j : Int := i + (s.x (xName r)).toInt
          if 0 ≤ j ∧ j < (128 / n : Nat) then x j.toNat else 0)) ∧
      (∃ t v, exec (.vbcast d r k w) s = .next t ∧ WroteV s t d v {} ∧
        Elements v (s.v d) (s.m k) n (fun _ => (s.x (xName r)).extractLsb' 0 (8 * n))) ∧
      ∃ t, exec (.vext q a r w) s = .next t ∧ WroteX s t (xName q) ((x ((s.x (xName r)).toNat % (128 / n))).signExtend 64))

/-- Reductions fold the active elements; mask operations act on all 128 bits (R147, R149). -/
def Obligations.VectorReductionsAndMasks : Prop :=
  ∀ (s : State) (d a b : MReg) (r q : XReg) (v : VReg) (k : MReg) (w : BitVec 2), Ready s plain false →
    let n := 2 ^ w.toNat
    let act := (List.range (128 / n)).filter (fun i => (s.m k).getLsbD (n * i))
    let x (i : Nat) : Int := (elem (s.v v) n i).toInt
    (∃ t, exec (.vredAdd r v k w) s = .next t ∧ WroteX s t (xName r) ((BitVec.ofInt (8 * n) (act.map x).sum).signExtend 64)) ∧
    (∃ t m, exec (.vredMin r v k w) s = .next t ∧ WroteX s t (xName r) (BitVec.ofInt 64 m) ∧
      (∀ i ∈ act, m ≤ x i) ∧ (m = 2 ^ (8 * n - 1) - 1 ∨ ∃ i ∈ act, m = x i)) ∧
    (∃ t m, exec (.vredMax r v k w) s = .next t ∧ WroteX s t (xName r) (BitVec.ofInt 64 m) ∧
      (∀ i ∈ act, x i ≤ m) ∧ (m = -(2 ^ (8 * n - 1)) ∨ ∃ i ∈ act, m = x i)) ∧
    (∀ e ∈ [(Instr.mand d a b, s.m a &&& s.m b), (Instr.mor d a b, s.m a ||| s.m b), (Instr.mxor d a b, s.m a ^^^ s.m b), (Instr.mnot d a, ~~~(s.m a))],
      ∃ t, exec e.1 s = .next t ∧ WroteM s t d e.2 {}) ∧
    (∃ t m, exec (.msetn d r) s = .next t ∧ WroteM s t d m {} ∧ ∀ j < 128, m.getLsbD j = decide (j < (s.x (xName r)).toNat)) ∧
    (∃ t, exec (.mpop q a) s = .next t ∧ WroteX s t (xName q) (BitVec.ofNat 64 ((List.range 128).countP (fun j => (s.m a).getLsbD j)))) ∧
    (∃ t j, exec (.mfirst q a) s = .next t ∧ WroteX s t (xName q) (BitVec.ofNat 64 j) ∧ j ≤ 128 ∧
      (∀ i < j, (s.m a).getLsbD i = false) ∧ (j < 128 → (s.m a).getLsbD j = true))

/-- Vector IEEE forms compute each active element, accrue the union of the flags, and keep the others (R136, R137, R138, R132, R80, R85). Where the spec leaves a point open, this is the model's reading or choice: log entries 29, 30, 34, 112. -/
def Obligations.VectorFloats : Prop :=
  ∀ (s : State) (d a b : VReg) (c k : MReg) (w st : BitVec 3), w.toNat ≤ 5 → st.toNat ≤ 5 → Ready s { fmt := true } false →
    let n := vfWidth w
    let f := fmtOf (vfCode w)
    let x (i : Nat) : Nat := (elem (s.v a) n i).toNat
    let y (i : Nat) : Nat := (elem (s.v b) n i).toNat
    let z (i : Nat) : Nat := (elem (s.v d) n i).toNat
    let r := s.me.mode
    let o := s.me.ovf
    let act := (List.range (128 / n)).filter (fun i => (s.m k).getLsbD (n * i))
    (∀ e ∈ [(Instr.vfadd d a b k w, fun i => ElOp.add.ieee f r o (x i) (y i) 0), (Instr.vfsub d a b k w, fun i => ElOp.sub.ieee f r o (x i) (y i) 0),
        (Instr.vfmul d a b k w, fun i => ElOp.mul.ieee f r o (x i) (y i) 0), (Instr.vfdiv d a b k w, fun i => ElOp.div.ieee f r o (x i) (y i) 0),
        (Instr.vfsqrt d a k w, fun i => ElOp.sqrt.ieee f r o (x i) 0 0), (Instr.vfma d a b k w, fun i => ElOp.fma.ieee f r o (x i) (y i) (z i)),
        (Instr.vfmin d a b k w, fun i => vfPick false f (x i) (y i)), (Instr.vfmax d a b k w, fun i => vfPick true f (x i) (y i))],
      (∀ i ∈ act, (e.2 i).cause s.me.nte = none) →
      ∃ t v, exec e.1 s = .next t ∧ WroteV s t d v (unionFlags (act.map (fun i => (i, e.2 i)))) ∧
        Elements v (s.v d) (s.m k) n (fun i => BitVec.ofNat (8 * n) (e.2 i).val)) ∧
    (∀ e ∈ [(Instr.vfcmpEq c a b k w, fun (p q : Val) => p.eqv q, false), (Instr.vfcmpLt c a b k w, fun p q => !p.isNan && !q.isNan && p.lt q, true),
        (Instr.vfcmpLe c a b k w, fun p q => !p.isNan && !q.isNan && (p.lt q || p.eqv q), true),
        (Instr.vfcmpUn c a b k w, fun p q => p.isNan || q.isNan, false)],
      ∃ t v, exec e.1 s = .next t ∧ MaskBits v (s.m k) n (fun i => e.2.1 (f.decode (x i)) (f.decode (y i))) ∧
        WroteM s t c v { nv := act.any (fun i => (f.decode (x i)).isSnan || (f.decode (y i)).isSnan ||
          (e.2.2 && ((f.decode (x i)).isNan || (f.decode (y i)).isNan))) }) ∧
    (let m := vfWidth st
     let wide := max n m
     let on := (List.range (128 / wide)).filter (fun i => (s.m k).getLsbD (i * n))
     let cv (i : Nat) := ieeeToIeee (fmtOf (vfCode st)) f r o (elem (s.v a) m i).toNat
     (∀ i ∈ on, (cv i).cause s.me.nte = none) →
      ∃ t v, exec (.vfcvt d a st k w) s = .next t ∧ WroteV s t d v (unionFlags (on.map (fun i => (i, cv i)))) ∧
        (∀ i < 128 / wide, elem v n i = if i ∈ on then BitVec.ofNat (8 * n) (cv i).val else elem (s.v d) n i) ∧
        ∀ i < 128 / n, 128 / wide ≤ i → elem v n i = 0)

/-- Vector elastic forms round each active lane at PREC.P, and vred.ew sums its terms in one window (R130, R132, R139, R148, R82). Where the spec leaves a point open, this is the model's reading or choice: log entries 31, 34. -/
def Obligations.VectorElastic : Prop :=
  ∀ (s : State) (d a b : VReg) (k : MReg) (w : BitVec 3),
    let p := s.me.p
    let l := laneWidth p
    let act := (List.range (lanes p)).filter (fun i => (s.m k).getLsbD (l * i))
    let x (r : VReg) (i : Nat) : Val := elDecode (elem (s.v r) l i).toNat
    let good (r : VReg) (is : List Nat) : Prop := ∀ i ∈ is, elBadAt p (elem (s.v r) l i).toNat = false
    (Ready s plain false → good a act → good b act →
      ∀ e ∈ [(Instr.veadd d a b k, fun i => ElOp.add.run p s.me.rm (x a i) (x b i) (x d i), false),
          (Instr.vesub d a b k, fun i => ElOp.sub.run p s.me.rm (x a i) (x b i) (x d i), false),
          (Instr.vemul d a b k, fun i => ElOp.mul.run p s.me.rm (x a i) (x b i) (x d i), false),
          (Instr.vefma d a b k, fun i => ElOp.fma.run p s.me.rm (x a i) (x b i) (x d i), true)],
        (e.2.2 = true → good d act) → (∀ i ∈ act, (e.2.1 i).cause s.me.nte = none) →
        ∃ t v, exec e.1 s = .next t ∧ WroteV s t d v (unionFlags (act.map (fun i => (i, e.2.1 i)))) ∧
          ∀ i < lanes p, elem v l i = if i ∈ act then BitVec.ofNat (8 * l) (elEncode p (e.2.1 i).val) else elem (s.v d) l i) ∧
    (Ready s { fmt := true } false →
      (good a act → good b [0] →
        let r := windowSum p s.me.mode (act.map (x a) ++ [x b 0])
        r.cause s.me.nte = none →
        ∃ t v, exec (.vredEw d a b k 7) s = .next t ∧ WroteV s t d v r.fl ∧ elem v l 0 = BitVec.ofNat (8 * l) (elEncode p r.val) ∧
          ∀ i < lanes p, i ≠ 0 → elem v l i = elem (s.v d) l i) ∧
      (w.toNat < 4 →
        let n := vfWidth w
        let f := fmtOf (vfCode w)
        let on := (List.range (128 / n)).filter (fun i => (s.m k).getLsbD (n * i))
        let r := windowIeee f s.me.mode (on.map (fun i => f.decode (elem (s.v a) n i).toNat) ++ [f.decode (elem (s.v b) n 0).toNat])
        r.cause s.me.nte = none →
        ∃ t v, exec (.vredEw d a b k w) s = .next t ∧ WroteV s t d v r.fl ∧ elem v n 0 = BitVec.ofNat (8 * n) r.val ∧
          ∀ i < 128 / n, i ≠ 0 → elem v n i = elem (s.v d) n i))

/-- Vector loads are all or nothing: every active element is checked, then read, and the others stand (R140, R141, R142, R143, R145, R169). Where the spec leaves a point open, this is the model's reading or choice: log entries 33, 66, 90, 111. -/
def Obligations.VectorLoads : Prop :=
  ∀ (s s' : State) (d c : VReg) (b g : IntReg) (k : MReg) (w : BitVec 2) (ps : List (Nat × Place)) (r : List (Nat × Nat) × State),
    let n := 2 ^ w.toNat
    let act := (List.range (128 / n)).filter (fun i => (s.m k).getLsbD (n * i))
    let nofwd := s.me.hmod == some true
    let addrs (f : Nat → Word) : List (Nat × Nat) := act.map (fun i => (i, (s.x b + f i).toNat))
    let unit := addrs (fun i => BitVec.ofNat 64 (i * n))
    let index := addrs (fun i => (elem (s.v c) n i).signExtend 64 * BitVec.ofNat 64 n)
    let filled (v : VWord) (got : List (Nat × Nat)) : Prop := ∀ i < 128 / n, elem v n i = match Sparse.get? got i with
      | some x => BitVec.ofNat (8 * n) x
      | none => elem (s.v d) n i
    (Ready s { nofwd := true, l1na := true } false → s.unitFoot n unit = .memory → UnheldAll s (elementRanges n unit) → unit ≠ [] →
      s.elementPlaces n .read unit = .ok (ps, s') → (s'.pin (ps.map (·.2))).loadLines n nofwd s.me.vHints (lineGroups n ps) = .ok r →
      ∃ t v, exec (.vld d b k w) s = .next t ∧ WroteV r.2 t d v {} ∧ filled v r.1) ∧
    (∀ e ∈ [(Instr.vlds d b g k w, addrs (fun i => BitVec.ofNat 64 i * s.x g), ({ nofwd := true, l1na := true } : Accepts)),
        (Instr.vgath d b c k w, index, { nofwd := true })],
      Ready s e.2.2 false → UnheldAll s (elementRanges n e.2.1) → s.footPlaces n .read e.2.1 = .ok (ps, s') →
      (s'.pin (ps.map (·.2))).loadElems n nofwd s.me.vHints ps = .ok r → ∃ t v, exec e.1 s = .next t ∧ WroteV r.2 t d v {} ∧ filled v r.1) ∧
    (Ready s { nofwd := true } false → UnheldAll s (elementRanges n index) → s.footCheck n n index = .ok () → s.gatherChecks n index = .ok () →
      let done := index.filter (fun e => s.present n e.2)
      let u := (index.filter (fun e => !s.present n e.2)).foldl (fun s e => s.startWalk e.2) s
      done ≠ [] → u.elementPlaces n .read done = .ok (ps, s') → (s'.pin (ps.map (·.2))).loadElems n nofwd s.me.vHints ps = .ok r →
      ∃ t v m, exec (.vgathT d b c k w) s = .next t ∧ WroteM (r.2.setV d v) t k m {} ∧ filled v r.1 ∧
        MaskBits m (s.m k) n (fun i => (done.map (·.1)).contains i))

/-- Vector stores are all or nothing: every active element is checked, then exactly the active elements' bytes are stored (R140, R141, R142, R143, R144, R131). Where the spec leaves a point open, this is the model's reading or choice: log entries 32, 33, 111. -/
def Obligations.VectorStores : Prop :=
  ∀ (s s' : State) (d c : VReg) (b g : IntReg) (k : MReg) (w : BitVec 2) (ps : List (Nat × Place)),
    let n := 2 ^ w.toNat
    let act := (List.range (128 / n)).filter (fun i => (s.m k).getLsbD (n * i))
    let addrs (f : Nat → Word) : List (Nat × Nat) := act.map (fun i => (i, (s.x b + f i).toNat))
    let unit := addrs (fun i => BitVec.ofNat 64 (i * n))
    (∀ e ∈ [(Instr.vst d b k w, unit, ({ l1na := true } : Accepts)),
        (Instr.vsts d b g k w, addrs (fun i => BitVec.ofNat 64 i * s.x g), { l1na := true }),
        (Instr.vscat d b c k w, addrs (fun i => (elem (s.v c) n i).signExtend 64 * BitVec.ofNat 64 n), plain)],
      Whole s → Ready s e.2.2 false → (e.1 = Instr.vst d b k w → s.unitFoot n unit = .memory) →
      (e.1 ≠ Instr.vst d b k w → s.footCheck n n e.2.1 = .ok ()) → UnheldAll s (elementRanges n e.2.1) →
      s.elementPlaces n .write e.2.1 = .ok (ps, s') → (∀ q ∈ ps, Plain q.2) → e.2.1 ≠ [] → s.hub.busy = 0 →
      ∃ t u, exec e.1 s = .next t ∧ Went u t (s.me.pc + 4) ∧
        Buffered s' u (ps.flatMap (fun q => (List.range n).map (fun j => (q.2.loc + j, (elem (s.v d) n q.1).extractLsb' (8 * j) 8))))) ∧
    (act = [] → (Ready s { nofwd := true, l1na := true } false → ∃ t, exec (.vld d b k w) s = .next t ∧ Went s t (s.me.pc + 4)) ∧
      (Ready s { l1na := true } false → ∃ t, exec (.vst d b k w) s = .next t ∧ Went s t (s.me.pc + 4)) ∧
      (Ready s { nofwd := true } false → ∃ t, exec (.vgathT d b c k w) s = .next t ∧ Went s t (s.me.pc + 4)) ∧
      (Whole s → (Ready s { l1na := true } false → ∃ t, exec (.vsts d b g k w) s = .next t ∧ Went s t (s.me.pc + 4)) ∧
        (Ready s plain false → ∃ t, exec (.vscat d b c k w) s = .next t ∧ Went s t (s.me.pc + 4)) ∧
        (Ready s { nofwd := true, l1na := true } false → ∃ t, exec (.vlds d b g k w) s = .next t ∧ WroteV s t d (s.v d) {}) ∧
        (Ready s { nofwd := true } false → ∃ t, exec (.vgath d b c k w) s = .next t ∧ WroteV s t d (s.v d) {})))

/-- vldel and vstel read and write one record for each active lane (R144, R126, R130). Where the spec leaves a point open, this is the model's reading or choice: log entries 32, 34, 111. -/
def Obligations.VectorRecords : Prop :=
  ∀ (s s' : State) (d : VReg) (b c : IntReg) (k : MReg) (vs : List (Nat × Val)) (ps : List (Nat × List (Place × Nat))), Whole s → Ready s plain false →
    let p := s.me.p
    let l := laneWidth p
    let n := 4 + p / 8
    let act := (List.range (lanes p)).filter (fun i => (s.m k).getLsbD (l * i))
    let es := act.map (fun i => (i, (s.x b + BitVec.ofNat 64 i * s.x c).toNat))
    let rs := vs.map (fun e => (e.1, elRound p s.me.rm e.2))
    (UnheldAll s (es.map (fun e => (e.2, e.2 + 4))) → UnheldAll s (es.map (fun e => s.laneRange e.2)) →
      s.footRecords es = .ok (vs, s') → (∀ r ∈ rs, r.2.cause s.me.nte = none) →
      ∃ t v, exec (.vldel d b c k) s = .next t ∧ WroteV s' t d v (unionFlags rs) ∧
        ∀ i < lanes p, elem v l i = match Sparse.get? rs i with
          | some r => BitVec.ofNat (8 * l) (elEncode p r.val)
          | none => elem (s.v d) l i) ∧
    ((∀ i ∈ act, elBadAt p (elem (s.v d) l i).toNat = false) → UnheldAll s (elementRanges n es) →
      s.footLanes n es = .ok (ps, s') → (∀ e ∈ ps, ∀ q ∈ e.2, Plain q.1) → s.hub.busy = 0 →
      ∃ t u, exec (.vstel d b c k) s = .next t ∧ Went u t (s.me.pc + 4) ∧
        Buffered s' u (ps.flatMap (fun e => ((piecesOf e.2).flatMap (fun q => (List.range q.2).map (fun j => q.1.loc + j))).zip
          (leBytes n (elEncode p (elDecode (elem (s.v d) l e.1).toNat))))))

/-- tbind, tunbind and tstat bind, free and describe the tile context (R174, R176, R177, R175, R199). Where the spec leaves a point open, this is the model's reading or choice: log entry 37. -/
def Obligations.TileBinding : Prop :=
  ∀ (s : State) (d a : IntReg), Ready s plain false →
    let e := (s.x a).toNat
    (s.me.tile ≠ none → ∃ t, exec (.tbind d a) s = .next t ∧ WroteX s t d 2) ∧
    (s.me.tile = none →
      (767 < e ∨ e / 4 ≠ s.cur.core % 1024 / 4 → ∃ t, exec (.tbind d a) s = .next t ∧ WroteX s t d 3) ∧
      (e ≤ 767 → e / 4 = s.cur.core % 1024 / 4 →
        (6 ≤ (s.engine e).bound.length → ∃ t, exec (.tbind d a) s = .next t ∧ WroteX s t d 1) ∧
        ((s.engine e).bound.length < 6 → ∃ t u, exec (.tbind d a) s = .next t ∧ WroteX u t d 0 ∧
          u.me = { s.me with tile := some (TileCtx.bound e), tstep := 0 } ∧ s.me.uid ∈ (u.engine e).bound ∧
          (∀ k, k ∈ (u.engine e).bound ↔ k = s.me.uid ∨ k ∈ (s.engine e).bound) ∧ (∀ f, f ≠ e → u.engine f = s.engine f) ∧
          u.engine e = { s.engine e with bound := (u.engine e).bound } ∧
          u = { s with strands := u.strands, engines := u.engines } ∧ ∀ i, StrandId.tid i ≠ StrandId.tid s.cur → u.strand i = s.strand i))) ∧
    (s.me.tile = none → ∃ t, exec (.tunbind d) s = .next t ∧ WroteX s t d 1) ∧
    (∀ c, s.me.tile = some c → ∀ g : List StrandId, g = c.gang.getD [] → c.op = none → (∀ p ∈ g, p.core < absentBase) →
      ((s.cur :: g).map StrandId.tid).Nodup →
      ∃ t u, exec (.tunbind d) s = .next t ∧ WroteX u t d 0 ∧ u = { s with strands := u.strands, engines := u.engines } ∧
        u.me = { s.me with tile := none } ∧
        (∀ p ∈ g, (s.strand p).gangNames s.cur = true → u.strand p = { s.strand p with
          got := if (s.strand p).tile.any (fun e => e.op.any TileOp.ganged) then [] else (s.strand p).got,
          tile := (s.strand p).tile.map (fun e => { e with broken := true, op := if e.op.any TileOp.ganged then none else e.op }) }) ∧
        (∀ p ∈ g, (s.strand p).gangNames s.cur = false → u.strand p = s.strand p) ∧
        (∀ i, StrandId.tid i ∉ (s.cur :: g).map StrandId.tid → u.strand i = s.strand i) ∧
        s.me.uid ∉ (u.engine c.engine).bound ∧ (∀ k, k ≠ s.me.uid → (k ∈ (u.engine c.engine).bound ↔ k ∈ (s.engine c.engine).bound)) ∧
        (g = [] → (∀ f, f ≠ c.engine → u.engine f = s.engine f) ∧
          u.engine c.engine = { s.engine c.engine with
            bound := (u.engine c.engine).bound, queue := (s.engine c.engine).queue.filter (fun q => q.who != s.cur),
            running := if (s.engine c.engine).running.any (fun q => q.who == s.cur) then none else (s.engine c.engine).running })) ∧
    (s.me.tile = none → ∃ t, exec (.tstat d) s = .next t ∧ WroteX { s with free := s.free + 1 } t d 0) ∧
    (∀ c, s.me.tile = some c → c.engine < 1024 → (s.engine c.engine).bound.length < 8 →
      let occ := (s.engine c.engine).queue.length + (if (s.engine c.engine).running.isSome then 1 else 0)
      ∃ t w pend, exec (.tstat d) s = .next t ∧ WroteX { s with free := s.free + 1 } t d w ∧ pend ≤ 16 ∧ pend ≤ 32 - occ ∧
        w.getLsbD 0 = true ∧ w.extractLsb' 1 10 = BitVec.ofNat 10 c.engine ∧
        w.extractLsb' 11 3 = BitVec.ofNat 3 (s.engine c.engine).bound.length ∧ w.extractLsb' 14 6 = BitVec.ofNat 6 (min 32 (occ + pend)) ∧
        w.extractLsb' 20 5 = BitVec.ofNat 5 pend ∧ w.getLsbD 25 = c.gang.isSome ∧ w.extractLsb' 26 6 = 0 ∧
        ∀ i < 8, w.extractLsb' (32 + 4 * i) 4 = (c.tile i).tag)

/-- A tile word of a free engine does its work in one turn and retires; of a busy one it enters the queue (R180, R181, R183, R184, R185, R186, R187, R192). Where the spec leaves a point open, this is the model's reading or choice: log entries 28, 36, 37. -/
def Obligations.TileWords : Prop :=
  ∀ (s u : State) (c : TileCtx) (t p q : TReg) (b g : IntReg) (n : BitVec 4) (x y r k : BitVec 3),
    let rows := n.toNat + 1
    let fl := s.me.afmt 0
    let fs := s.me.afmt (c.tile t.toNat).tag.toNat
    let fo := s.me.ofmt 15
    let fa := s.me.afmt (c.tile p.toNat).tag.toNat
    let fb := s.me.bfmt (c.tile q.toNat).tag.toNat
    ∀ e ∈ [(Instr.tld t b g n, TileOp.tld t (s.x b) (s.x g) rows fl, rowRanges (s.x b) (s.x g) rows (tileFoot fl), true, decide (fl ≠ 9)),
        (Instr.tst t b g n, TileOp.tst t (s.x b) (s.x g) rows fs, rowRanges (s.x b) (s.x g) rows (tileFoot fs), true, decide (fs ≠ 9)),
        (Instr.acld x y b g n, TileOp.acld x y (s.x b) (s.x g) rows fo s.me.q s.me.mode, rowRanges (s.x b) (s.x g) rows (accFoot fo), true,
          decide (fo ≠ 7 ∧ fo ≠ 9)),
        (Instr.acst x y b g n, TileOp.acst x y (s.x b) (s.x g) rows fo s.me.mode s.me.ovf, rowRanges (s.x b) (s.x g) rows (accFoot fo), true,
          decide (fo ≠ 7 ∧ fo ≠ 9)),
        (Instr.tmma p q x y, TileOp.tmma p q x y fa fb s.me.q s.me.mode, [], true, (pairK fa fb).isSome && decide (fo = 0 ∨ fo = 15)),
        (Instr.tzero t, TileOp.tzero t, [], false, true), (Instr.aczero x y, TileOp.aczero x y, [], false, true),
        (Instr.acmov r k x y, TileOp.acmov r k x y, [], false, true)],
      Whole s → Ready s { fmt := e.2.2.2.1 } false →
      (s.me.tile = none → exec e.1 s = .next (s.raise s.cur (trapOf 0x60))) ∧
      (s.me.tile = some c → e.2.2.2.2 = false → exec e.1 s = .next (s.raise s.cur (trapOf 0x61))) ∧
      (s.me.tile = some c → e.2.2.2.2 = true → UnheldAll s e.2.2.1 →
        let en := s.engine c.engine
        (en.running = none → en.queue = [] → s.tileDo c e.2.1 = .ok u →
          exec e.1 s = .next ((u.modEngine c.engine (fun k => { k with last := StrandId.tid u.cur })).retireTo (u.me.pc + 4))) ∧
        (en.running ≠ none ∨ en.queue ≠ [] →
          (32 ≤ en.queue.length + (if en.running.isSome then 1 else 0) → exec e.1 s = .next s) ∧
          (en.queue.length + (if en.running.isSome then 1 else 0) < 32 →
            ∃ v, exec e.1 s = .next v ∧ v = { s with strands := v.strands, engines := v.engines } ∧
              v.me = { s.me with tile := some { c with op := some e.2.1 } } ∧
              v.engine c.engine = { en with queue := en.queue ++
                [{ who := s.cur, prio := s.me.epri, base := s.me.epri, since := s.clk.cycles }] })))

/-- What the tile words do to tiles, accumulator cells and memory (R82, R183, R184, R185, R187, R188). Where the spec leaves a point open, this is the model's reading or choice: log entries 35, 36, 111, 112. -/
def Obligations.TileArithmetic : Prop :=
  ∀ (s : State) (c : TileCtx) (t p q : TReg) (x y r k : BitVec 3) (fa fb len rm : Nat), x.toNat < 4 → y.toNat < 4 → r.toNat < 4 → k.toNat < 4 →
    let inside (i j : Nat) : Prop := i / 16 = x.toNat ∧ j / 16 = y.toNat
    (∃ e, s.tileDo c (.tzero t) = .ok (s.modMe (fun m => { m with tile := some e })) ∧ e = { c with tiles := e.tiles } ∧
      ∀ i, e.tile i = if i = t.toNat then { c.tile i with bytes := 0, side := 0 } else c.tile i) ∧
    (∃ e, s.tileDo c (.aczero x y) = .ok (s.modMe (fun m => { m with tile := some e })) ∧ e = { c with acc := e.acc } ∧
      ∀ i j, i < 64 → j < 64 → (inside i j → e.cell i j = cellZero) ∧ (¬ inside i j → e.cell i j = c.cell i j)) ∧
    (∃ e, s.tileDo c (.acmov r k x y) = .ok (s.modMe (fun m => { m with tile := some e })) ∧ e = { c with acc := e.acc } ∧
      ∀ i j, i < 64 → j < 64 → e.cell i j = if i / 16 = r.toNat ∧ j / 16 = k.toNat then c.cell (16 * x.toNat + i % 16) (16 * y.toNat + j % 16)
        else c.cell i j) ∧
    (let n := (pairK fa fb).getD 0
     let sum (i j : Nat) := (cellSum (decide (fa ≤ 1)) len rm (rowVals (c.tile p.toNat) (i % 16) fa n) (rowVals (c.tile q.toNat) (j % 16) fb n)
       (cellVal (c.cell i j))).1
     (∀ i j, i < 64 → j < 64 → inside i j → (sum i j).cause s.me.nte = none) →
      ∃ e fl, s.tileDo c (.tmma p q x y fa fb len rm) = .ok (s.modMe (fun m => { m with tile := some e, ssw := accrueSsw m.ssw fl })) ∧
        e = { c with acc := e.acc } ∧
        ∀ i j, i < 64 → j < 64 → (inside i j → e.cell i j = cellOf len (sum i j).val) ∧ (¬ inside i j → e.cell i j = c.cell i j)) ∧
    (∀ (b g : Word) (n f : Nat) (ps : List (List (Place × Nat))) (s1 : State) (got : List (List Byte) × State),
      s.checkRows b g (tileFoot f) (rowAlign f) .read 0 n = .ok (ps, s1) → s1.readRows ps = .ok got →
      ∃ e, s.tileDo c (.tld t b g n f) = .ok (got.2.modMe (fun m => { m with tile := some e })) ∧ e = { c with tiles := e.tiles } ∧
        ∀ i, e.tile i = if i = t.toNat then tileOfRows f got.1 else c.tile i) ∧
    (∀ (b g : Word) (n f q mode : Nat) (ps : List (List (Place × Nat))) (s1 : State) (got : List (List Byte) × State),
      s.checkRows b g (accFoot f) (rowAlign f) .read 0 n = .ok (ps, s1) → s1.readRows ps = .ok got →
      let w := elemSize f
      let raw (i j : Nat) : Nat := leNat (((got.1.getD i []).drop (w * j)).take w)
      let loaded (e : TileCtx) (v : Nat → Nat → Cell96) : Prop := e = { c with acc := e.acc } ∧ ∀ i j, i < 64 → j < 64 →
        (inside i j → e.cell i j = if i % 16 < n then v (i % 16) (j % 16) else cellZero) ∧ (¬ inside i j → e.cell i j = c.cell i j)
      (f = 15 →
        ((∀ i < 16, ∀ j < 16, i < n → cellBad (raw i j) = false) →
          ∃ e, s.tileDo c (.acld x y b g n f q mode) = .ok (got.2.modMe (fun m => { m with tile := some e })) ∧
            loaded e (fun i j => BitVec.ofNat 96 (raw i j % 2 ^ (32 + 8 * elN (raw i j))))) ∧
        (∀ i j, i < 16 → j < 16 → i < n → cellBad (raw i j) = true → (∀ h k, h < 16 → k < 16 → 16 * h + k < 16 * i + j → cellBad (raw h k) = false) →
          s.tileDo c (.acld x y b g n f q mode) = .error (({ cause := 0x42, eidx := BitVec.ofNat 64 i, eva := BitVec.ofNat 64 (rowAddr b g i + 12 * j) } : Trap).onEngine c.engine))) ∧
      (f ≠ 15 → (∀ i < 16, ∀ j < 16, i < n → (cellFrom f q mode (raw i j)).cause got.2.me.nte = none) →
        ∃ e fl, s.tileDo c (.acld x y b g n f q mode) = .ok (got.2.modMe (fun m => { m with tile := some e, ssw := accrueSsw m.ssw fl })) ∧
          loaded e (fun i j => cellOf q (cellFrom f q mode (raw i j)).val))) ∧
    (∀ (b g : Word) (n f : Nat) (ps : List (List (Place × Nat))) (s1 : State),
      s.checkRows b g (tileFoot f) (rowAlign f) .write 0 n = .ok (ps, s1) →
      let row (i : Nat) : List Byte := (List.range 64).map (fun j => (c.tile t.toNat).bytes.extractLsb' (512 * i + 8 * j) 8) ++
        if f = 7 then (List.range 4).map (fun j => (c.tile t.toNat).side.extractLsb' (32 * i + 8 * j) 8) else []
      ∀ u, s1.putRows ps ((List.range n).map row) = .ok u → s.tileDo c (.tst t b g n f) = .ok u) ∧
    (∀ (b g : Word) (n f mode : Nat) (ovf : Bool) (ps : List (List (Place × Nat))) (s1 : State),
      s.checkRows b g (accFoot f) (rowAlign f) .write 0 n = .ok (ps, s1) →
      let cell (i j : Nat) : Cell96 := c.cell (16 * x.toNat + i) (16 * y.toNat + j)
      let conv1 (i j : Nat) : Arith Nat := cellTo f mode ovf (cellVal (cell i j))
      (f = 15 → ∀ u, s1.putRows ps ((List.range n).map (fun i =>
          (List.range 16).flatMap (fun j => (List.range 12).map (fun k => (cell i j).extractLsb' (8 * k) 8)))) = .ok u →
        s.tileDo c (.acst x y b g n f mode ovf) = .ok u) ∧
      (f ≠ 15 → (∀ i < n, ∀ j < 16, (conv1 i j).cause s.me.nte = none) →
        ∀ u, s1.putRows ps ((List.range n).map (fun i => (List.range 16).flatMap (fun j => leBytes (elemSize f) (conv1 i j).val))) = .ok u →
        ∃ fl, s.tileDo c (.acst x y b g n f mode ovf) = .ok (u.modMe (fun m => { m with ssw := accrueSsw m.ssw fl })))) ∧
    (∀ (ps : List (List (Place × Nat))) (data : List (List Byte)) (cr : Cred) (u : State),
      let cells := (ps.zip data).flatMap (fun e => ((piecesOf e.1).flatMap (fun q => (List.range q.2).map (fun j => q.1.loc + j))).zip e.2)
      Whole s → s.waiters = [] → (∀ r ∈ ps, ∀ q ∈ r, q.1.cred = cr ∧ isHub q.1.loc = false) → (cells.map (·.1)).Nodup →
      (∀ e ∈ cells, ∀ v, s.fieldCell (e.1, v) = some (e.1, v)) →
      (∀ e ∈ ps.zip data, e.2.length = ((e.1).map (·.2)).sum) → s.putRows ps data = .ok u →
      (∀ e ∈ cells, u.mem.raw e.1 = e.2) ∧ u.me = s.me)

/-- tgemm runs its k-blocks from TSTEP on and retires after the last with TSTEP 0; one k-block adds a window sum to each of the 4096 cells and advances TSTEP (R189, R190, R191, R194, R175, R187, R188, R82). Where the spec leaves a point open, this is the model's reading or choice: log entries 38, 113. -/
def Obligations.MacroMultiply : Prop :=
  (∀ (s u : State) (c : TileCtx) (d a b : IntReg), Whole s → Ready s { fmt := true } false → s.me.tile = some c →
    let fa := s.me.afmt 0
    let fb := s.me.bfmt 0
    let m : MacroParams := { ctl := s.x d, a := s.x a, b := s.x b, fa := fa, fb := fb, q := s.me.q, rm := s.me.mode }
    let nb := blocksOf m.ctl fa fb
    let op : TileOp := .tgemm false m.ctl m.a m.b fa fb m.q m.rm
    ∀ kb, checkPair fa fb (s.me.ofmt 15) = .ok kb →
    (m.ctl.toNat % 2 ^ 32 = 0 ∨ m.ctl.toNat % 2 ^ 32 % kb ≠ 0 → exec (.tgemm d a b) s = .next (s.raise s.cur (trapOf 0x64))) ∧
    (macroChecks s.cur.core false m.ctl m.a m.b fa fb = .ok () → UnheldAll s (macroRanges s.me.tstep.toNat m.ctl m.a m.b fa fb) →
      (nb ≤ s.me.tstep.toNat → exec (.tgemm d a b) s = .next (s.setStrand s.cur { spentAt s.me (s.me.pc + 4) with tstep := 0 })) ∧
      (s.me.tstep.toNat < nb → (s.engine c.engine).running = none → (s.engine c.engine).queue = [] → s.kblock c m = .ok u →
        ∃ t, exec (.tgemm d a b) s = .next t ∧
          (nb ≤ u.me.tstep.toNat → t.me = { spentAt u.me (u.me.pc + 4) with tstep := 0 } ∧ (t.engine c.engine).running = none) ∧
          (u.me.tstep.toNat < nb → t.me = { u.me with tile := u.me.tile.map (fun e => { e with op := some op }) } ∧
            (t.engine c.engine).running.any (fun q => q.who == s.cur && q.ran) = true)) ∧
      (s.me.tstep.toNat < nb → ((s.engine c.engine).running ≠ none ∨ (s.engine c.engine).queue ≠ []) →
        exec (.tgemm d a b) s = .next (s.enqueue c op)))) ∧
  (∀ (s u : State) (c : TileCtx) (m : MacroParams), Whole s → s.kblock c m = .ok u →
    let step := s.me.tstep.toNat
    let n := (pairK m.fa m.fb).getD 1
    ∃ rows v, s.kread m = .ok (rows, v) ∧ rows.length = 128 ∧
    let ta (i : Nat) := tileOfRows m.fa ((rows.drop (16 * i)).take 16)
    let tb (i : Nat) := tileOfRows m.fb ((rows.drop (64 + 16 * i)).take 16)
    u.me.tstep = BitVec.ofNat 64 ((step + 1) % 2 ^ 32) ∧ u.mem = v.mem ∧ u.me.pc = s.me.pc ∧
    ∃ e, u.me.tile = some e ∧ (∀ i < 4, e.tile i = ta i ∧ e.tile (4 + i) = tb i) ∧
      ∀ i j, i < 64 → j < 64 → e.cell i j = cellOf m.q (cellSum (decide (m.fa ≤ 1)) m.q m.rm (rowVals (ta (i / 16)) (i % 16) m.fa n)
        (rowVals (tb (j / 16)) (j % 16) m.fb n) (cellVal (c.cell i j))).1.val)

/-- A free engine starts its best entry, ages the others, completes what it runs, and runs k-blocks (R180, R191, R192, R193, R194, R190). Where the spec leaves a point open, this is the model's reading or choice: log entry 24. -/
def Obligations.EngineEvents : Prop :=
  ∀ (s : State) (n : Nat), s.swapStops n = false →
    ((s.engine n).running = none → ∀ q, s.nextEntry n = some q → s.gangOp q.who = none →
      q ∈ (s.engine n).queue ∧ (∀ r ∈ (s.engine n).queue, s.entryReady r = true → r.precedes (s.engine n).last q = false) ∧
      ∃ t, exec (.engineTurnStart n) s = .next t ∧ t = { s with engines := t.engines } ∧ (∀ m, m ≠ n → t.engine m = s.engine m) ∧
        t.engine n = { s.engine n with running := some q, queue := (s.engine n).queue.filter (fun r => r.who != q.who), last := StrandId.tid q.who }) ∧
    (∀ i q, (s.engine n).queue[i]? = some q → (∀ j < i, ∀ r, (s.engine n).queue[j]? = some r → r.who ≠ q.who) → q.prio < 3 →
      q.since + 1756 ≤ s.clk.cycles → ∃ t, exec (.engineEntryAgeing n i) s = .next t ∧
        (t.engine n).queue = (s.engine n).queue.set i { q with prio := q.prio + 1, since := q.since + 1756 } ∧ t = { s with engines := t.engines }) ∧
    (∀ q c op u, (s.engine n).running = some q → (s.strand q.who).tile = some c → c.op = some op → (∀ g k a b f h l m, op ≠ .tgemm g k a b f h l m) →
      (s.strand q.who).paused = false → ({ s with cur := q.who, replay := (s.strand q.who).got }).tileDo c op = .ok u → u.cur = q.who →
      ∃ t, exec (.engineCompletion n) s = .next t ∧ t.cur = s.cur ∧ t.mem = u.mem ∧
        t.strand q.who = spentAt { u.strand q.who with tile := (u.strand q.who).tile.map (fun c => { c with op := none }) } ((u.strand q.who).pc + 4) ∧
        (∀ e, (u.strand q.who).tile = some e → (t.engine e.engine).running.any (fun r => r.who == q.who) = false)) ∧
    (∀ (q : EngineEntry) (c : TileCtx) (m : MacroParams), (s.engine n).running = some q → (s.strand q.who).tile = some c → c.engine = n →
      c.op = some (.tgemm false m.ctl m.a m.b m.fa m.fb m.q m.rm) →
      let k := s.strand q.who
      let nb := blocksOf m.ctl m.fa m.fb
      let boundary : Prop := (q.ran = true ∨ nb ≤ k.tstep.toNat) ∧ k.got = []
      let passed : Prop := ∃ r ∈ (s.engine n).queue, q.base ≤ r.prio ∧ (s.gangOp r.who = none ∨ s.gangHere r.who = true)
      let without := { k with tile := some { c with op := none } }
      (boundary → s.mayTake q.who = true → ∃ t, exec (.kblockBoundary n) s = .next t ∧ t = { s with strands := t.strands, engines := t.engines } ∧
        t.strand q.who = without ∧ (t.engine n).running = none) ∧
      (s.mayTake q.who = false → nb ≤ k.tstep.toNat → k.paused = false → ∃ t, exec (.kblockBoundary n) s = .next t ∧
        t = { s with strands := t.strands, engines := t.engines } ∧ t.strand q.who = { spentAt without (k.pc + 4) with tstep := 0 } ∧
        (t.engine n).running = none) ∧
      (s.mayTake q.who = false → k.tstep.toNat < nb → boundary → passed → ∃ t, exec (.kblockBoundary n) s = .next t ∧
        t = { s with engines := t.engines } ∧ 
          t.engine n = { s.engine n with running := none, queue := (s.engine n).queue ++ [{ q with prio := q.base, since := s.clk.cycles, ran := false }] }) ∧
      (k.tstep.toNat < nb → (¬ boundary ∨ (s.mayTake q.who = false ∧ ¬ passed)) →
        (∀ u, ({ s with cur := q.who, replay := k.got }).kblock c m = .ok u → (u.strand q.who).tstep ≠ k.tstep →
          exec (.kblockBoundary n) s = .next (({ u with cur := s.cur }).modEngine n (fun e =>
            { e with running := e.running.map (fun (r : EngineEntry) => { r with ran := true }), last := StrandId.tid q.who }))) ∧
        (∀ e, ({ s with cur := q.who, replay := k.got }).kblock c m = .error e → e.resume = none → e.stall = false → e.drains = false → e.drop = none → e.caches = none →
          exec (.kblockBoundary n) s = .next (({ (({ s.leaveEngine q.who with cur := q.who }).raise q.who (e.onEngine n)) with cur := s.cur }).ranSince s n q.who))))

/-- gang joins the first arrivals of the four cores, and tgemm.g waits for its partners (R190, R197, R198, R199). Where the spec leaves a point open, this is the model's reading or choice: log entry 69. -/
def Obligations.Gangs : Prop :=
  ∀ (s : State) (c : TileCtx), s.me.tile = some c →
    (∀ n : BitVec 3, Ready s plain false → c.engine = s.cur.core % 1024 → c.gang = none →
      let k := clusterOf s.cur.core
      let waiting := ((s.cluster k).gangs.get? n.toNat).getD [] ++ [s.cur]
      (gangRound (clusterCores s.cur.core) waiting = none → ∃ t, exec (.gang n) s = .next t ∧ t.me = { s.me with gangWait := some n.toNat } ∧
        (t.cluster k).gangs.get? n.toNat = some waiting) ∧
      (∀ round, gangRound (clusterCores s.cur.core) waiting = some round → (round.map StrandId.tid).Nodup →
        ∃ t, exec (.gang n) s = .next t ∧ t.cur = s.cur ∧ t.mem = s.mem ∧
          ∀ w ∈ round, t.strand w = spentAt { s.strand w with gangWait := none, tile := (s.strand w).tile.map (fun c =>
            { c with gang := some (round.filter (fun v => v != w)), broken := false }) } ((s.strand w).pc + 4))) ∧
    (∀ d a b : IntReg, Ready s { fmt := true } false →
      (c.gang = none → exec (.tgemmG d a b) s = .next (s.raise s.cur (trapOf 0x66))) ∧
      (∀ g kb, c.gang = some g → c.broken = false →
        let fa := s.me.afmt 0
        let fb := s.me.bfmt 0
        let t := s.enqueue c (.tgemm true (s.x d) (s.x a) (s.x b) fa fb s.me.q s.me.mode)
        let sids := s.cur :: g
        checkPair fa fb (s.me.ofmt 15) = .ok kb → macroChecks s.cur.core true (s.x d) (s.x a) (s.x b) fa fb = .ok () →
        UnheldAll s (macroRanges s.me.tstep.toNat (s.x d) (s.x a) (s.x b) fa fb) → c.op = none →
        (s.engine c.engine).queue.length + (if (s.engine c.engine).running.isSome then 1 else 0) < 32 →
        ((∃ p ∈ sids, t.gangOp p = none) → exec (.tgemmG d a b) s = .next t ∧ t.gangOp s.cur ≠ none) ∧
        ((sids.map StrandId.tid).Nodup → (∀ p ∈ sids, t.gangOp p ≠ none ∧ t.gangAgrees s.cur p = true ∧ t.gangDone p = true) →
          ∃ u, exec (.tgemmG d a b) s = .next u ∧ u.mem = s.mem ∧ ∀ p ∈ sids, (u.strand p).tstep = 0 ∧ (u.strand p).pc = (s.strand p).pc + 4 ∧
            ∀ e, (u.strand p).tile = some e → e.gang = none ∧ e.op = none) ∧
        ((sids.map StrandId.tid).Nodup → (∀ p ∈ sids, t.gangOp p ≠ none) → (∃ p ∈ sids, t.gangAgrees s.cur p = false) →
          (∀ p ∈ sids, isGeneral p = true ∧ s.level p = .user ∧ s.contextOf p.core ≠ none) →
          ∃ u, exec (.tgemmG d a b) s = .next u ∧ u.mem = s.mem ∧ ∀ p ∈ sids, (u.strand p).st = .trapped ∧ (u.strand p).cause = 0x65 ∧
            (u.strand p).epc = (s.strand p).start ∧ (u.strand p).tstep = (s.strand p).tstep ∧
            ∀ e, (u.strand p).tile = some e → e.gang = none ∧ e.op = none)) ∧
      (c.gang ≠ none → c.broken = true →
        exec (.tgemmG d a b) s = .next ((s.leaveGang s.cur).raise s.cur (trapOf 0x67)))) ∧
    (∀ (n : Nat) (q : EngineEntry) (gs : List GangPart) (t : State),
      (s.engine n).running = some q → q.ran = false → s.gangOp q.who ≠ none → s.swapStops n = false →
      let sids := s.gangOf q.who
      (sids.map StrandId.tid).Nodup → (∃ p ∈ sids, s.gangDone p = false) →
      (∀ p ∈ sids, s.gangOp p ≠ none ∧ (s.engine (s.engineOf p)).running.any (fun r => r.who == p) = true) →
      s.gangRead sids = .ok (gs, t) → (∀ g ∈ gs, t.gangFails g = none) →
      ∃ u, exec (.kblockBoundary n) s = .next u ∧ u.mem = t.mem ∧ ∀ p ∈ sids, ∃ g ∈ gs, g.who = p ∧
        (u.strand p).tstep = BitVec.ofNat 64 (((s.strand p).tstep.toNat + 1) % 2 ^ 32) ∧
        ∃ e, (u.strand p).tile = some e ∧ (∀ i < 8, e.tile i = g.ts.getD i Tile.zero) ∧
          ∀ i j, i < 64 → j < 64 → e.cell i j = cellOf g.args.q (cellSum (decide (g.args.fa ≤ 1)) g.args.q g.args.rm
            (rowVals (g.ts.getD (i / 16) Tile.zero) (i % 16) g.args.fa ((pairK g.args.fa g.args.fb).getD 1))
            (rowVals (g.ts.getD (4 + j / 16) Tile.zero) (j % 16) g.args.fb ((pairK g.args.fa g.args.fb).getD 1)) (cellVal (g.ctx.cell i j))).1.val)

/-- A copy word whose checks pass captures its operands and issues, or is held with nothing captured (R201, R203, R204, R205, R206, R215, R216, R219, R224). Where the spec leaves a point open, this is the model's reading or choice: log entries 43, 44, 82, 106. -/
def Obligations.CopyWords : Prop :=
  ∀ (s s1 s2 : State) (d a b : IntReg) (v : VReg) (bs : List Byte) (addr r : Nat), Ready s plain false →
    let ctl := s.x a
    let w := ctl.toNat
    let goal := (s.x d).toNat
    let from_ := (s.x b).toNat
    let len := bitsAt w 0 32
    let near := (spadOwner s.cur.core goal).getD s.cur.core
    let box := Box.ofNat (leNat bs)
    let spans := boxSpans r box goal
    let data : Plan :=
      { op := .send, cls := spanClass from_ goal, source := (from_, len), dest := (goal, len),
        todo := if len = 0 then [] else [{ src := from_, dst := goal, len := len }], ctl := ctl, tagCore := near, packet := none }
    let pkt (o : CopyOp) : Plan :=
      { op := o, cls := .send, source := (0, 0), dest := (0, 0), todo := [], ctl := ctl, tagCore := goal,
        packet := some { target := goal, lidx := BitVec.ofNat 8 w, plen := bitsAt w 8 9, payload := s.payload v.toNat (bitsAt w 8 9),
                         user := BitVec.ofNat 24 (w / 2 ^ 40), sender := s.cur, reply := o == .sendr } }
    let tensor : Plan :=
      { op := .tsend, cls := spanClass (sourceSpan spans).1 goal, source := sourceSpan spans,
        dest := (goal, spans.foldl (fun n p => n + p.len) 0), todo := spans, ctl := ctl, tagCore := near, packet := none }
    let flip : Plan :=
      { op := .publish, cls := .pub, source := (0, 0), dest := (goal, w), todo := (s.flipsFor goal w).1, ctl := 0, tagCore := s.cur.core,
        packet := none }
    let member (o : CopyOp) : Prop := s.checkCopy o ctl = .ok () ∧ s.coreExists goal = true ∧ s.inGroup s.cur.core goal = true ∧
      (s.cur.num = 4 → s.queueFree o = true)
    (∀ e ∈ [(Instr.send d a b, data, s, b, s.checkCopy .send ctl = .ok () ∧ s.checkSpans data.source data.dest = .ok ()),
        (Instr.sendh d a v, pkt .sendh, s, v.zeroExtend 6, member .sendh), (Instr.sendr d a v, pkt .sendr, s, v.zeroExtend 6, member .sendr),
        (Instr.tsend d a b, tensor, s2, b, s.checkCopy .tsend ctl = .ok () ∧ s.shapeAddr (bitsAt w 0 12) = .ok addr ∧
          UnheldAll s ((from_, from_ + 32) :: (if (s.shapeCached addr).isNone then [(addr, addr + 64)] else [])) ∧
          s.readSpan from_ 32 8 = .ok (bs, s1) ∧ s1.shapeRead addr = .ok (r, s2) ∧ shapeBad r = false ∧ boxBad r box = false ∧
          s2.checkSpans tensor.source tensor.dest = .ok ()),
        (Instr.publish d a, flip, (s.flipsFor goal w).2, 0, s.checkCopy .publish 0 = .ok () ∧ s.checkSpans (0, 0) (goal, w) = .ok ())],
      e.2.2.2.2 →
      (∀ slots, e.2.2.1.clearToIssue e.2.1 = some slots → exec e.1 s = .next (((e.2.2.1.ringLooked e.2.1).issueCopy e.2.1 slots).retire)) ∧
      (e.2.2.1.clearToIssue e.2.1 = none →
        exec e.1 s = .next ((s.ringLooked e.2.1).modMe (fun t =>
          { t with held := some { op := e.2.1.op, d := d, a := a, b := e.2.2.2.1 }, got := [] })))) ∧
    (∀ p : Plan, ∃ u t, CacheOnly s u ∧ t = { u with cores := t.cores, clusters := t.clusters } ∧ Woken u t ∧ CacheOnly t (s.ringLooked p)) ∧
    (s.cur.num = 4 → ∀ i ∈ [Instr.send d a b, Instr.sendh d a v, Instr.tsend d a b, Instr.publish d a],
      exec i s = .next (s.raise s.cur (trapOf 0x68)))

/-- An issued copy reads a line at a time, writes each word once where it says, flips pages, and ends in error at a fault (R161, R162, R163, R170, R171, R203, R207, R212). Where the spec leaves a point open, this is the model's reading or choice: log entries 24, 44, 45, 106. -/
def Obligations.CopyProgress : Prop :=
  ∀ (s s1 : State) (id off va : Nat) (c : Copy) (q : Place),
    (∀ (sid : StrandId) (h : HeldCopy), (s.strand sid).held = some h → h.b.toNat < 32 →
      let u := s.setStrand sid { s.strand sid with held := none }
      u.runnable sid = true →
      let i := match h.op with
        | .send => Instr.send h.d h.a h.b
        | .sendh => Instr.sendh h.d h.a (h.b.setWidth 5)
        | .sendr => Instr.sendr h.d h.a (h.b.setWidth 5)
        | .tsend => Instr.tsend h.d h.a h.b
        | .publish => Instr.publish h.d h.a
      ∃ t, exec i { (u.toRetire sid.core) with cur := sid, cut := none, replay := (s.strand sid).got } = .next t ∧
        exec (.copyIssue sid) s = .next (if (t.strand sid).held.isSome then s else { t with cur := s.cur })) ∧
    (s.copies.get? id = some c → c.error = none → c.wait = none →
      (c.op ≠ .publish → s.inProgress c id = true → s.storesPast c id = true → todoByte c.todo off = some va → s.spanRead c va 1 = .ok (q, s1) →
        s1.placeHeld q false = false →
        let line := if q.ca = 0 then 64 else 8
        let lo := va / line * line
        (∀ p ∈ c.todo.filterMap (Span.inside lo (lo + line)), s1.mem.poisoned q.cred (q.loc + p.src - va) p.len = false) →
        ∃ t, exec (.copyRead id off) s = .next t ∧ t.mem = s.mem ∧ (∀ i, t.strand i = s.strand i) ∧
          ∃ e, t.copies.get? id = some e ∧ e = { c with todo := e.todo, pieces := e.pieces } ∧
            e.pieces = c.pieces ++ (c.todo.filterMap (Span.inside lo (lo + line))).flatMap (fun p =>
              piecesFor p.dst (s1.rawRead { q with loc := q.loc + p.src - va, va := p.src } p.len)) ∧
            e.todo = c.todo.flatMap (Span.outside lo (lo + line))) ∧
      (∀ p, s.inProgress c id = true → c.pieces[off]? = some p →
        let word := p.dst / 8
        let bytes := pieceBytes c.pieces word
        let dst := (bytes.map (·.1)).headD p.dst
        (∀ r ∈ c.todo, meets r.dst (r.dst + r.len) (word * 8) (word * 8 + 8) = false) → s.pieceWrite c dst = .ok (q, s1) →
        s.syncBelow c dst = false → s1.placeHeld q true = false → (∀ k < bytes.length, ∀ v, s1.fieldCell (q.loc + k, v) = some (q.loc + k, v)) → isHub q.loc = false → s.waiters = [] → KeyFits q.cred →
        ∃ t, exec (.copyWrite id off) s = .next t ∧ t.mem.readBytes t.free q.cred q.loc bytes.length = bytes.map (·.2) ∧
          (∀ k < bytes.length, t.mem.rawFull (q.loc + k) = true) ∧
          (∀ a, (a < q.loc ∨ q.loc + bytes.length ≤ a) → s.mem.sight q.cred a ≠ .stale → t.mem.read t.free q.cred a = s.mem.read s.free q.cred a) ∧
          (∀ i, t.strand i = s.strand i) ∧
          t.copies.get? id = some { c with pieces := c.pieces.filter (fun r => r.dst / 8 != word), written := c.written + bytes.length }) ∧
      (∀ va e, c.op = .publish → (s.flipNext c).1 = some (va, .ok e) → s.olderWrites c id e.base (e.base + e.size) = false → s.waiters = [] →
        let pair := leafFrame e.size e.leaf.toNat + e.size
        ∃ t, exec (.publishFlip id) s = .next t ∧ t = { s with mem := { s.mem with selects := t.mem.selects }, copies := t.copies, cores := t.cores, clusters := t.clusters, caches := t.caches } ∧
          (pair ∈ t.mem.selects ↔ pair ∉ s.mem.selects) ∧ (∀ f, f ≠ pair → (f ∈ t.mem.selects ↔ f ∈ s.mem.selects))) ∧
      (∀ e, c.op.isPacket = false → (c.op = .publish ∨ s.inProgress c id = true) → s.copyTrap c id = some e →
        let queued := c.level == .user && (c.asid.bind (fun a => s.contexts.get? a)).any (fun x => x.pageable)
        ∃ t, exec (.copyFault id) s = .next t ∧ t.mem = s.mem ∧ (∀ i, t.strand i = s.strand i) ∧
          (∀ f, queued = true → e.fault = some f → t.copies.get? id = some { c with wait := some f }) ∧
          (queued = false ∨ e.fault = none →
            t.copies.get? id = some { c with error := some e.cause, wait := none, todo := [], pieces := [] })))

/-- A copy completes: it leaves the table, its class count falls, fences stop waiting for it, its tag is set and its record written (R168, R203, R212, R213, R214, R227, R166, R206). Where the spec leaves a point open, this is the model's reading or choice: log entries 39, 40, 41. -/
def Obligations.CopyCompletion : Prop :=
  (∀ (s : State) (id : Nat) (c : Copy), s.copies.get? id = some c → (c.error ≠ none ∨ (c.op.isPacket = false ∧ c.todo = [] ∧ c.pieces = [])) →
    s.recordReady c = true →
    let away := s.images.any (Image.holds c.tagCore c.group)
    let signals (g k : Nat) : Prop := c.tagEn = true ∧ c.op.isPacket = false ∧ g = c.tagCore ∧ k = c.tag.toNat
    let here : Prop := away = false ∧ (c.group = none ∨ (s.core c.tagCore).group = none ∨ (s.core c.tagCore).group = c.group)
    let forgotten (u t : Strand) : Prop := t = { u with
      slots := c.slots.foldl leaveSlot u.slots, fences := u.fences.map (fun f => { f with waits := removeNat f.waits id }), served := t.served,
      cntIn := if c.cls = .inn then u.cntIn - 1 else u.cntIn, cntOut := if c.cls = .out then u.cntOut - 1 else u.cntOut,
      cntSend := if c.cls = .send then u.cntSend - 1 else u.cntSend, cntPub := if c.cls = .pub then u.cntPub - 1 else u.cntPub }
    let freed (n : Nat) : Prop := c.group = some n ∧ (∃ g, s.groups.get? n = some g ∧ g.st = .releasing) ∧
      ∀ e ∈ s.copies, e.1 ≠ id → e.2.group ≠ some n
    ∃ t, exec (.copyComplete id) s = .next t ∧ t.copies.get? id = none ∧ (∀ k, k ≠ id → t.copies.get? k = s.copies.get? k) ∧
      (∀ g k, k < 64 → ((t.core g).tagw.getLsbD k = true ↔ (s.core g).tagw.getLsbD k = true ∨ (signals g k ∧ here))) ∧
      (∀ n, (freed n → t.groups.get? n = none) ∧ (¬ freed n → t.groups.get? n = s.groups.get? n)) ∧
      (c.record = none →
        t = { s with strands := t.strands, cores := t.cores, groups := t.groups, copies := t.copies, saved := t.saved, images := t.images } ∧
        (∀ i, (s.strand i).uid ≠ c.uid → t.strand i = { s.strand i with served := (t.strand i).served } ∧
          (i.core ≠ c.tagCore → t.strand i = s.strand i)) ∧
        (∀ i u, s.strands.get? (StrandId.tid i) = some u → u.uid = c.uid → forgotten u (t.strand i)) ∧
        (∀ (n : Nat) (x : SavedStrand), s.saved[n]? = some x → ∃ y : SavedStrand, t.saved[n]? = some y ∧ y = { x with strand := y.strand } ∧
          (x.strand.uid = c.uid → forgotten x.strand y.strand) ∧ (x.strand.uid ≠ c.uid → y = x)) ∧
        (∀ (n : Nat) (im : Image), s.images[n]? = some im → ∃ jm : Image, t.images[n]? = some jm ∧ jm = { im with strands := jm.strands, cores := jm.cores } ∧
          (∀ (g : Nat) (x : CoreState), im.cores.get? g = some x → ∃ y : CoreState, jm.cores.get? g = some y ∧ y = { x with tagw := y.tagw } ∧
            ∀ k < 64, (y.tagw.getLsbD k = true ↔ x.tagw.getLsbD k = true ∨ (signals g k ∧ im.holds c.tagCore c.group = true))) ∧
          (∀ k u, im.strands.get? k = some u → ∃ v, jm.strands.get? k = some v ∧ (u.uid = c.uid → forgotten u v) ∧ (u.uid ≠ c.uid → v = u)))) ∧
      (∀ a q, c.record = some (a, q) →
        let may (g : Nat) : Bool := c.level == .machine || g == c.issuer.core || (c.group.isSome && decide ((s.core g).group = c.group))
        (∀ g o, windowOf c.issuer.core a.toNat 1 s.coreExists may = .spad g o → s.waiters = [] →
          (∀ k < 16, ∀ v, s.fieldCell (spadLoc g o + k, v) = some (spadLoc g o + k, v)) →
          t.mem.readBytes t.free c.cred (spadLoc g o) 16 = leBytes 16 (c.recordWord q)) ∧
        (∀ k, windowOf c.issuer.core a.toNat 1 s.coreExists may = .bad k → t.mem = s.mem))) ∧
  (∀ (s : State) (p : Plan) (slots : List Nat × Sparse RangeSlot), s.clearToIssue p = some slots → (p.todo ≠ [] ∨ p.packet ≠ none) →
    let u := s.issueCopy p slots
    let wanted : Bool := ctlRec p.ctl && p.op != .publish
    u = { s with strands := u.strands, cores := u.cores, copies := u.copies, fresh := s.fresh + 1 } ∧
    (∀ i, StrandId.tid i ≠ StrandId.tid s.cur → u.strand i = s.strand i) ∧
    (∀ c, u.core c = if c = s.cur.core then (s.core c).enqueueCopy p.op s.fresh else s.core c) ∧
    u.me = { s.me with slots := slots.2, widx := if wanted then (s.me.widx + 1) % s.me.crn.toNat else s.me.widx,
                       seq := if wanted then s.me.seq + 1 else s.me.seq,
                       cntIn := if p.cls = .inn then s.me.cntIn + 1 else s.me.cntIn, cntOut := if p.cls = .out then s.me.cntOut + 1 else s.me.cntOut,
                       cntSend := if p.cls = .send then s.me.cntSend + 1 else s.me.cntSend,
                       cntPub := if p.cls = .pub then s.me.cntPub + 1 else s.me.cntPub } ∧
    (∀ q ∈ p.parts, q.1 < q.2 → ∃ i ∈ slots.1, i < 8 ∧ ∃ r, slots.2.get? i = some r ∧ r.lo ≤ q.1 ∧ q.2 ≤ r.hi) ∧
    (∀ k, k ≠ s.fresh → u.copies.get? k = s.copies.get? k) ∧
    ∃ c, u.copies.get? s.fresh = some c ∧ c.op = p.op ∧ c.issuer = s.cur ∧ c.uid = s.me.uid ∧ c.level = s.myLevel ∧ c.asid = s.asid s.cur ∧
      c.cls = p.cls ∧ c.slots = slots.1 ∧ c.todo = (if p.op = .publish then p.todo else p.todo.flatMap Span.unwrap) ∧ c.pieces = [] ∧ c.tag = (p.ctl.extractLsb' 32 6) ∧
      c.tagEn = (p.ctl.getLsbD 38 && p.op != .publish) ∧ c.tagCore = p.tagCore ∧ c.error = none ∧ c.wait = none ∧
      c.record = (if wanted then some (s.me.crb + BitVec.ofNat 64 (16 * s.me.widx), s.me.seq + 1) else none) ∧
      c.packet = p.packet.map (fun q => (q, .sendQueue)))

/-- Packets go from send queue to mesh to landing queue to a handler with their words in registers, and lret ends the handler (R208, R209, R211, R216, R236). Where the spec leaves a point open, this is the model's reading or choice: log entries 24, 88. -/
def Obligations.PacketsAndHandlers : Prop :=
  ∀ (s s1 : State) (core id : Nat) (c : Copy) (p : Packet) (g : PacketStage) (q : Place),
    (∀ reply, (if reply = true then (s.core core).sendReply else (s.core core).sendReq).head? = some id → s.copies.get? id = some c →
      c.packet = some (p, g) → s.storesPast c id = true →
      ∃ t, exec (.packetInject core reply) s = .next t ∧ t = { s with copies := t.copies, cores := t.cores } ∧
        t.copies = s.copies.set id { c with packet := some (p, .mesh) } ∧ id ∉ (t.core core).sendReply ∧ id ∉ (t.core core).sendReq) ∧
    (s.copies.get? id = some c → c.packet = some (p, .mesh) → c.error = none →
      (s.packetWelcome c p.target = false → ∃ t, exec (.landingPacketArrival id) s = .next t ∧ t = { s with copies := t.copies } ∧
        t.copies = s.copies.set id { c with error := some 0xA2 }) ∧
      (s.packetWelcome c p.target = true → (if p.reply then (s.core p.target).landReply else (s.core p.target).landReq).length < 16 →
        ∃ t, exec (.landingPacketArrival id) s = .next t ∧ t = { s with copies := t.copies, cores := t.cores } ∧
          t.copies = s.copies.set id { c with packet := some (p, .landingQueue) } ∧
          t.core p.target = (if p.reply then { s.core p.target with landReply := (s.core p.target).landReply ++ [id] }
            else { s.core p.target with landReq := (s.core p.target).landReq ++ [id] }) ∧ ∀ k, k ≠ p.target → t.core k = s.core k)) ∧
    (∀ (r : List Byte × State),
     let sid : StrandId := { core := core, num := 4 }
     let a := ((s.core core).htab.toNat + 8 * p.lidx.toNat) % 2 ^ 64
     (s.strand sid).st = .idle → (s.core core).attaching = false → (s.core core).retained = 0 → (s.core core).nextPacket = some id →
      s.copies.get? id = some c → c.packet = some (p, g) → s.fenced sid a (a + 8) = false → s.recordReady c = true →
      ({ s.ahead with cur := sid } : State).reach a 8 .read false = .ok (.mem q, s1) → s1.mem.poisoned q.cred q.loc 8 = false →
      s1.loadMem q 8 false {} = .ok r →
      let entry := leNat r.1
      entry % 4 = 1 →
      ∃ t, exec (.landingHandlerStart core) s = .next t ∧ (t.strand sid).st = .running ∧ (t.strand sid).pc = BitVec.ofNat 64 (entry - 1) ∧
        (t.strand sid).priv = 0 ∧ (t.strand sid).handler = some (c.tag, c.tagEn) ∧
        (∀ n, Sparse.at 0 (t.strand sid).x n = if n = 10 then BitVec.ofNat 64 p.sender.core else if n = 11 then packetWord p
          else if n = 12 then p.user.setWidth 64 else if n = 13 then BitVec.ofNat 64 ((s.core core).started + 1)
          else Sparse.at 0 (s.strand sid).x n) ∧
        (∀ n, Sparse.at 0 (t.strand sid).v n = if n = 0 then p.payload.extractLsb' 0 1024 else if n = 1 then p.payload.extractLsb' 1024 1024
          else Sparse.at 0 (s.strand sid).v n)) ∧
    (Ready s plain false →
      (s.cur.num ≠ 4 ∨ s.me.handler = none → exec .lret s = .next (s.raise s.cur (trapOf 0x68))) ∧
      (∀ tag en, s.cur.num = 4 → s.me.handler = some (tag, en) → (s.core s.cur.core).nextPacket = none →
        (s.drain s.cur).me.wait = none →
        let u := s.drain s.cur
        ∃ t, exec .lret s = .next t ∧ t = { u with strands := t.strands, cores := t.cores } ∧
          t.me = { spentAt u.me u.me.pc with st := .idle, handler := none, ahead := u.me.ahead } ∧
          (∀ i, StrandId.tid i ≠ StrandId.tid s.cur → t.strand i = { u.strand i with served := (t.strand i).served }) ∧
          (∀ b ∈ (t.core s.cur.core).buffer, b.num ≠ 4) ∧
          (∀ k, k < 64 → ((t.core s.cur.core).tagw.getLsbD k = true ↔ (s.core s.cur.core).tagw.getLsbD k = true ∨ (en = true ∧ k = tag.toNat)))))

/-- Tag waits return the tags they waited for, or park; waitc waits for class counts and waitr for a ring entry (R25, R210, R213, R220, R221, R222). Where the spec leaves a point open, this is the model's reading or choice: log entry 46. -/
def Obligations.TagWaits : Prop :=
  ∀ (s u : State) (d a : IntReg) (b : Nat), Ready s plain false →
    let m := s.x a
    let tags := (s.core s.cur.core).tagw
    let parks (i : Instr) (w : Wait) : Prop :=
      (s.cur.num = 4 → exec i s = .next (s.raise s.cur (trapOf 0x68))) ∧
      (s.cur.num ≠ 4 → exec i s = .next (s.setStrand s.cur { s.me with st := .parked, wait := some w, got := [], ahead := 1 }))
    (m = 0 → (∃ t, exec (.waita d a) s = .next t ∧ WroteX s t d 0) ∧ ∃ t, exec (.waitl d a) s = .next t ∧ WroteX s t d 0) ∧
    (tags &&& m ≠ 0 → ∃ t, exec (.waita d a) s = .next t ∧ WroteX s t d (tags &&& m)) ∧
    (m ≠ 0 → tags &&& m = 0 → parks (.waita d a) (.tagAny d m)) ∧
    (tags &&& m = m → ∃ t, exec (.waitl d a) s = .next t ∧ WroteX s t d m) ∧
    (tags &&& m ≠ m → parks (.waitl d a) (.tagAll d m)) ∧
    (∃ t n, exec (.ffr d a) s = .next t ∧ WroteX s t d (BitVec.ofNat 64 n) ∧ n ≤ 64 ∧ (∀ i < n, (tags &&& m).getLsbD i = false) ∧
      (n < 64 → (tags &&& m).getLsbD n = true)) ∧
    (∃ t, exec (.tclr a) s = .next t ∧ Went (s.modCore s.cur.core (fun k => { k with tagw := tags &&& ~~~m })) t (s.me.pc + 4)) ∧
    (let limit (i : Nat) := (m.extractLsb' (16 * i) 16).toNat
     let met : Prop := (limit 0 = 65535 ∨ s.me.cntIn ≤ limit 0) ∧ (limit 1 = 65535 ∨ s.me.cntOut ≤ limit 1) ∧
       (limit 2 = 65535 ∨ s.me.cntSend ≤ limit 2) ∧ (limit 3 = 65535 ∨ s.me.cntPub ≤ limit 3)
     (met → ∃ t, exec (.waitc a) s = .next t ∧ Went s t (s.me.pc + 4)) ∧ (¬ met → parks (.waitc a) (.classes m))) ∧
    (s.me.crb = 0 → exec (.waitr d) s = .next (s.raise s.cur (trapOf 0x6B))) ∧
    (let head := s.me.crb + BitVec.ofNat 64 (16 * s.me.ridx)
     s.me.crb ≠ 0 → Unheld s head.toNat 1 → s.loadScalar head.toNat 1 false {} = .ok (b, u) →
      (b = 0 → parks (.waitr d) (.ring d)) ∧
      (b ≠ 0 → u.me.crb = s.me.crb → u.me.ridx = s.me.ridx → ∃ t, exec (.waitr d) s = .next t ∧
        WroteX (u.modMe (fun t => { t with ridx := (t.ridx + 1) % t.crn.toNat })) t d head))

/-- A fence becomes pending on the copies counted in slots that meet its items, or is satisfied at once; at most four are pending (R165, R166, R167, R168, R169, R223). Where the spec leaves a point open, this is the model's reading or choice: log entries 42, 114. -/
def Obligations.RangeFences : Prop :=
  ∀ (s : State) (d a : IntReg) (n : BitVec 3), Ready s plain false →
    let retired (u t : State) (given : List (Nat × Nat)) : Prop := ∃ w items, items = given.filter (fun e => decide (e.1 < e.2)) ∧
      (∀ k, k ∈ w ↔ ∃ c, (k, c) ∈ u.copies ∧ c.uid = u.me.uid ∧ ∃ i ∈ c.slots, ∃ r, u.me.slots.get? i = some r ∧
        ∃ e ∈ items, rangesMeet u.cur.core r.lo r.hi e.1 e.2 = true) ∧
      Local u t ∧ t.core u.cur.core = u.core u.cur.core ∧
      (w ≠ [] → t.me = spentAt { u.me with fences := u.me.fences ++ [{ items := items, waits := w }] } (u.me.pc + 4)) ∧
      (w = [] → t.me = { spentAt u.me (u.me.pc + 4) with
        fetched := u.me.fetched.map (fun l => (l.1, { l.2 with barred := l.2.barred ++ items })) })
    (∀ i ∈ [Instr.fenceR d a, Instr.fenceH a n, Instr.fenceL a n],
      (∀ f rest, s.me.fences = f :: rest → 3 ≤ rest.length →
        exec i s = .next (s.setStrand s.cur { s.me with fences := { f with blocks := true } :: rest })) ∧
      (s.me.fences.length < 4 → (∃ f ∈ s.me.fences, f.blocks = true) → exec i s = .next s)) ∧
    (s.me.fences.length < 4 → (∀ f ∈ s.me.fences, f.blocks = false) →
      (∃ t, exec (.fenceR d a) s = .next t ∧ retired s t [((s.x d).toNat, min ((s.x d).toNat + (s.x a).toNat) (2 ^ 64))]) ∧
      (UnheldAll s (s.refreshReads (s.x a) n.toNat) → ∀ items u, s.refresh (s.x a) 0 n.toNat = .ok (items, u) →
        ∃ t, exec (.fenceH a n) s = .next t ∧ retired u t items) ∧
      (Unheld s (s.x a).toNat (16 * n.toNat) → ∀ bs u, s.readSpan (s.x a).toNat (16 * n.toNat) 8 = .ok (bs, u) →
        ∃ t, exec (.fenceL a n) s = .next t ∧ retired u t ((List.range n.toNat).map (fun k =>
          (leNat ((bs.drop (16 * k)).take 8), leNat ((bs.drop (16 * k + 8)).take 8)))))) ∧
    (∀ sid i f, (s.strand sid).fences[i]? = some f → f.waits = [] → ∃ t, exec (.fenceSatisfied sid i) s = .next t ∧
      t = { s with strands := t.strands } ∧ (∀ j, StrandId.tid j ≠ StrandId.tid sid → t.strand j = s.strand j) ∧
      t.strand sid = { s.strand sid with
        fetched := (s.strand sid).fetched.map (fun l => (l.1, { l.2 with barred := l.2.barred ++ f.items })), fences := (s.strand sid).fences.take i ++ (s.strand sid).fences.drop (i + 1) })

/-- spawn pushes a record and counts it, exit counts a task done and ends it, join runs tasks until its counter is zero (R231, R232, R233, R237, R238, R239, R240). Where the spec leaves a point open, this is the model's reading or choice: log entries 22, 126. -/
def Obligations.TaskWords : Prop :=
  ∀ (s s1 s2 : State) (d a : IntReg) (bs : List Byte) (p : Place), Ready s plain false →
    let ea := (s.x a).toNat
    let w := leNat bs
    let r := TaskRecord.ofNat w
    let full (u : State) : Prop := 256 ≤ (u.core s.cur.core).deque.length
    let pushed (u : State) : State := (u.modCore s.cur.core (fun k => { k with deque := k.deque ++ [r.startedBy u.me], searched := [] })).modMe
      (fun q => { q with begun := q.begun + 1 })
    let spawned (u v : State) : Prop :=
      (full u → ∃ t, exec (.spawn d a) s = .next t ∧ WroteX (u.modMe (fun q => { q with begun := q.begun + 1, inline := q.nextVirtual })) t d 0) ∧
      (¬ full u → ∃ t, exec (.spawn d a) s = .next t ∧ WroteX (pushed v) t d 1)
    (4 ≤ s.cur.num → ∀ i ∈ [Instr.spawn d a, Instr.exit a, Instr.join a], exec i s = .next (s.raise s.cur (trapOf 0xA5))) ∧
    (s.cur.num < 4 → UnheldAll s [(ea, ea + 32)] → s.readSpan ea 32 32 = .ok (bs, s1) →
      (taskRejected w = true → exec (.spawn d a) s = .next (s.raise s.cur (trapOf 0xA4))) ∧
      (taskRejected w = false → UnheldAll s r.counterBytes → s1.cur = s.cur →
        (r.join = 0 → spawned s1 (s1.drain s.cur)) ∧
        (r.join ≠ 0 → s1.reachHome r.join.toNat 8 = .ok (p, s2) → s2.cur = s.cur → spawned s2 ((s2.drain s.cur).addAt p 1)))) ∧
    (s.cur.num < 4 →
      let ended (u : State) : Prop :=
        (s.x 1 = 0 → exec (.exit a) s = .next (u.setStrand u.cur
          { spentAt u.me u.me.pc with st := .idle, task := none, begun := 0, inline := none, evictReq := false, ahead := u.me.ahead })) ∧
        (s.x 1 ≠ 0 → ∃ t, exec (.exit a) s = .next t ∧ Went (u.modMe (fun q => { q with inline := none })) t (s.x 1))
      (s.x a = 0 → ((s.x 1).toNat % 4 ≠ 0 → exec (.exit a) s = .next (s.raise s.cur (trapOf 0x0B))) ∧ ((s.x 1).toNat % 4 = 0 → ended s)) ∧
      (s.x a = 0 → ∃ t, exec (.join a) s = .next t ∧ Went s t (s.me.pc + 4)) ∧
      (s.x a ≠ 0 → Unheld s ea 8 → s.reachHome ea 8 = .ok (p, s1) →
        let n := s1.mem.readNat s1.free p.cred p.loc 8
        let u : State := { s1 with free := s1.free + 1 }
        ((s.x 1).toNat % 4 ≠ 0 → exec (.exit a) s = .next (s.raise s.cur (trapOf 0x0B))) ∧
        ((s.x 1).toNat % 4 = 0 → (n = 0 → exec (.exit a) s = .next ((s.drain s.cur).raise s.cur { trapOf 0xA3 with drains := true })) ∧ (n ≠ 0 → ended (s1.addAt p (-1)))) ∧
        (n = 0 → ∃ t, exec (.join a) s = .next t ∧ Went u t (u.me.pc + 4)) ∧
        (n ≠ 0 → u.cur = s.cur → (∀ rest q, (u.core s.cur.core).deque = rest ++ [q] →
            let r := lowestVirtual q (rest ++ [q])
            (q.virtual = none → r = q) ∧ ∃ t, exec (.join a) s = .next t ∧
            t = { u with strands := t.strands, cores := t.cores } ∧
            t.core s.cur.core = { u.core s.cur.core with deque := if r = q then rest else (rest ++ [q]).erase r } ∧
            (∀ c, c ≠ s.cur.core → t.core c = u.core c) ∧ Started (spentAt u.me u.me.pc) t.me r u.me.pc) ∧
          ((u.core s.cur.core).deque = [] →
            let w : Waiter := { who := u.cur, wait := .counter p.loc p.cred, data := 0, cred := p.cred, pair := p.pair }
            exec (.join a) s = .next (({ u with waiters := u.waiters ++ [w] }).setStrand u.cur
              { u.me with st := .parked, wait := some w.wait, got := [], ahead := 1 }))))) ∧
    (∀ (v : State) (k : Word), v.waiters = [] → KeyFits p.cred → p.loc % 8 = 0 → (∀ k < 8, ∀ b, v.fieldCell (p.loc + k, b) = some (p.loc + k, b)) →
      let u := v.addAt p k
      u = { v with mem := u.mem, caches := u.caches, cores := u.cores, clusters := u.clusters, free := v.free + 1 } ∧
      Woken v u ∧
      BitVec.ofNat 64 (u.mem.readNat u.free p.cred p.loc 8) = BitVec.ofNat 64 (v.mem.readNat v.free p.cred p.loc 8) + k ∧
      ∀ b, (b < p.loc ∨ p.loc + 8 ≤ b) → v.mem.sight p.cred b ≠ .stale → u.mem.read v.free p.cred b = v.mem.read v.free p.cred b)

/-- Steal rounds take the top of the first nonempty deque of the nearest level; identity, yield and flood words do what R241 to R244 say (R226, R229, R230, R233, R235, R237, R241, R242, R243, R244). Where the spec leaves a point open, this is the model's reading or choice: log entries 18, 24, 25, 115, 116. -/
def Obligations.TaskRounds : Prop :=
  ∀ (s : State) (d a : IntReg) (n : BitVec 2) (k : BitVec 1), Ready s plain false →
    let home := s.cur.core
    let s0 (core : Nat) := s.modCore core (fun c => { c with victim := victimNext c.victim })
    let near (g : Group) (c : Nat) : Prop := c ∈ g.cores ∧ c ≠ home ∧ g.levels.getLsbD (stealLevel home c) = true
    (∀ g v, match s.findRecord g home v [1, 2, 3, 4] with
      | none => ∀ c, near g c → (s.core c).deque = []
      | some (r, u) => ∃ c rest, near g c ∧ (s.core c).deque = r :: rest ∧ u = s.setCore c { s.core c with deque := rest } ∧
          ∀ e, near g e → stealLevel home e < stealLevel home c → (s.core e).deque = []) ∧
    (4 ≤ s.cur.num → ∀ i ∈ [Instr.steal d, Instr.yield, Instr.spreadwait d], exec i s = .next (s.raise s.cur (trapOf 0xA5))) ∧
    (s.cur.num < 4 →
      (256 ≤ (s.core home).deque.length ∨ s.groupOf home = none → ∃ t, exec (.steal d) s = .next t ∧ WroteX (s0 home) t d 0) ∧
      (∀ g, s.groupOf home = some g → (s.core home).deque.length < 256 →
        match (s0 home).findRecord g home (victimNext (s.core home).victim) [1, 2, 3, 4] with
        | none => ∃ t, exec (.steal d) s = .next t ∧ WroteX (s0 home) t d 0
        | some (r, u) => ∃ t, exec (.steal d) s = .next t ∧
            WroteX (u.modCore home (fun c => { c with deque := c.deque ++ [r], searched := [] })) t d 1) ∧
      (∃ t others, exec .yield s = .next t ∧ Local s t ∧ t.core home = s.core home ∧
        t.me = { spentAt s.me (s.me.pc + 4) with yielding := some (s.clk.cycles, others) } ∧
        ∀ m, m ∈ others ↔ m < 4 ∧ m ≠ s.cur.num ∧ ((s.strand { core := home, num := m }).st = .running ∨ (s.strand { core := home, num := m }).st = .trapped)) ∧
      (∀ g, s.groupOf home = some g → g.spread = true →
        ((∀ f ∈ g.floods, f.gen ≠ g.gen) → ∃ t, exec (.spreadwait d) s = .next t ∧ WroteX s t d (g.gen.setWidth 64)) ∧
        ((∃ f ∈ g.floods, f.gen = g.gen) → exec (.spreadwait d) s =
          .next (s.setStrand s.cur { s.me with st := .parked, wait := some (.flood d), got := [], ahead := 1 }))) ∧
      ((∀ g, s.groupOf home = some g → g.spread = false) → ∃ t, exec (.spreadwait d) s = .next t ∧ WroteX s t d 0)) ∧
    (∃ t, exec (.tcoord d n) s = .next t ∧
      WroteX s t d (if n = 3 then (s.me.tcoord.extractLsb' 0 48).setWidth 64 else (s.me.tcoord.extractLsb' (16 * n.toNat) 16).setWidth 64)) ∧
    (let c := if k = 1 then (s.x a).toNat else home
     (∀ g, s.groupOf home = some g → (c ∈ g.cores → ∃ t, exec (.grank d a k) s = .next t ∧
         WroteX s t d (BitVec.ofNat 64 (g.cores.idxOf c + g.cores.length * 2 ^ 32))) ∧
       (c ∉ g.cores → exec (.grank d a k) s = .next (s.raise s.cur (trapOf 0xA1)))) ∧
     (s.groupOf home = none → (c = home → ∃ t v, exec (.grank d a k) s = .next t ∧ WroteX { s with free := s.free + 1 } t d v) ∧
       (c ≠ home → exec (.grank d a k) s = .next (s.raise s.cur (trapOf 0xA1))))) ∧
    (∀ core sid g, s.idleStrand core = some sid → s.groupOf core = some g → g.st = .active → (s.core core).stealAt ≤ s.clk.cycles →
      match (s0 core).findRecord g core (victimNext (s.core core).victim) [0, 1, 2, 3, 4] with
      | none => exec (.stealRound core) s =
          .next (s.modCore core (fun c => { c with victim := victimNext c.victim, searched := s.idleOnes core, stealAt := s.clk.cycles + 256 }))
      | some (r, u) => ∃ t, exec (.stealRound core) s = .next t ∧ 
          t = { (u.wakeCore core).modCore core (fun c => { c with searched := removeNat c.searched sid.num }) with strands := t.strands } ∧
          Started (s.strand sid) (t.strand sid) r 0 ∧ ∀ i, StrandId.tid i ≠ StrandId.tid sid → t.strand i = s.strand i) ∧
    (∀ group core g f, s.groups.get? group = some g → g.st = .active → (s.core core).attaching = false →
      g.floods.find? (fun f => f.pending.contains core) = some f →
      let v : State := (({ s with groups := s.groups.set group (g.accept f.gen core) }).latchFlood group).wakeCore core
      let r := f.record.atRank (g.rank core)
      (∀ sid, v.idleStrand core = some sid → ∃ t, exec (.spreadFloodAccept group core) s = .next t ∧
        t = { v.modCore core (fun c => { c with searched := removeNat c.searched sid.num }) with strands := t.strands } ∧
        Started (v.strand sid) (t.strand sid) r 0 ∧ ∀ i, StrandId.tid i ≠ StrandId.tid sid → t.strand i = v.strand i) ∧
      (v.idleStrand core = none → (v.core core).deque.length < 256 → exec (.spreadFloodAccept group core) s =
        .next (v.modCore core (fun c => { c with deque := c.deque ++ [r], searched := [] }))) ∧
      (v.idleStrand core = none → 256 ≤ (v.core core).deque.length → exec (.spreadFloodAccept group core) s = .next s)) ∧
    (∀ sid since left, (s.strand sid).yielding = some (since, left) → since + 16 ≤ s.clk.cycles →
      exec (.yieldTimeout sid) s = .next (s.setStrand sid { s.strand sid with yielding := none }))

/-- Barrier words count arrivals, open generations, wake waiters and return what R251 says (R247, R249, R250, R251, R253, R254). Where the spec leaves a point open, this is the model's reading or choice: log entry 46. -/
def Obligations.Barriers : Prop :=
  ∀ (s s1 : State) (d a g : IntReg) (p : Place) (wr : Bool) (c : Option Nat), Ready s plain false →
    let ea := (s.x a).toNat
    Unheld s ea 8 → s.reachBarrier ea wr c = .ok (p, s1) → KeyFits p.cred → p.loc % 8 = 0 →
    (∀ k < 8, ∀ b, s1.fieldCell (p.loc + k, b) = some (p.loc + k, b)) → (∀ q ∈ s1.waiters, q.pair = none ∧ ∃ h r l n, q.wait = .barrier h r l n) →
    let w := s1.mem.readNat s1.free p.cred p.loc 8
    let arrived := w % 2 ^ 16
    let expected := w / 2 ^ 16 % 2 ^ 16
    let gen := w / 2 ^ 32 % 2 ^ 32
    let next := (gen + 1) % 2 ^ 32
    let v : State := { s1 with free := s1.free + 1 }
    let stored (u : State) (n : Nat) : Prop :=
      u = { v with mem := u.mem, caches := u.caches, strands := u.strands, waiters := u.waiters, cores := u.cores, clusters := u.clusters } ∧
      Woken v u ∧ u.mem.rawFull p.loc = true ∧
      u.mem.readNat u.free p.cred p.loc 8 = n ∧
      ∀ b, (b < p.loc ∨ p.loc + 8 ≤ b) → v.mem.sight p.cred b ≠ .stale → u.mem.read u.free p.cred b = v.mem.read v.free p.cred b
    let opened (u : State) (n : Nat) : Prop := stored u (next * 2 ^ 32 + n * 2 ^ 16) ∧
      u.waiters = s1.waiters.filter (fun q => !q.passes p.loc (BitVec.ofNat 32 next)) ∧
      ∀ i, ((∃ q ∈ s1.waiters, StrandId.tid q.who = StrandId.tid i ∧ q.passes p.loc (BitVec.ofNat 32 next) = true) →
          u.strand i = { s1.strand i with served := some (BitVec.ofNat 64 next) }) ∧
        ((∀ q ∈ s1.waiters, StrandId.tid q.who = StrandId.tid i → q.passes p.loc (BitVec.ofNat 32 next) = false) → u.strand i = s1.strand i)
    let counted (u : State) : Prop := stored u ((w + 1) % 2 ^ 64) ∧ u.waiters = s1.waiters ∧ u.strands = s1.strands
    let waits (i : Instr) (u : State) (h : Bool) (n : BitVec 32) : Prop := exec i s =
      .next (({ u with waiters := u.waiters ++ [{ who := u.cur, wait := .barrier h d p.loc n, data := 0, cred := p.cred }] } : State).setStrand u.cur
        { u.me with st := .parked, wait := some (.barrier h d p.loc n), got := [], ahead := 1 })
    (wr = true → c = some (s.x g).toNat → ∃ t u, exec (.barInit a g) s = .next t ∧ opened u (s.x g).toNat ∧ Went u t (u.me.pc + 4)) ∧
    (wr = true → c = none →
      (expected = 0 → ∀ i ∈ [Instr.barArr d a, Instr.barAw d a], exec i s = .next ((s.drain s.cur).raise s.cur { trapAt 0x83 ea with drains := true })) ∧
      (expected ≠ 0 → arrived + 1 = expected →
        (∃ t u, exec (.barArr d a) s = .next t ∧ opened u expected ∧ WroteX u t d (BitVec.ofNat 64 (2 ^ 32 + gen))) ∧
        ∃ t u, exec (.barAw d a) s = .next t ∧ opened u expected ∧ WroteX u t d (BitVec.ofNat 64 next)) ∧
      (expected ≠ 0 → arrived + 1 ≠ expected →
        (∃ t u, exec (.barArr d a) s = .next t ∧ counted u ∧ WroteX u t d (BitVec.ofNat 64 gen)) ∧
        (s1.cur = s.cur → s.cur.num ≠ 4 → ∃ u, counted u ∧ waits (.barAw d a) u true (BitVec.ofNat 32 gen)))) ∧
    (wr = false → c = none →
      (gen ≠ (s.x g).toNat % 2 ^ 32 → ∃ t, exec (.barWait d a g) s = .next t ∧ WroteX v t d (BitVec.ofNat 64 gen)) ∧
      (gen = (s.x g).toNat % 2 ^ 32 → s1.cur = s.cur → s.cur.num ≠ 4 → waits (.barWait d a g) v false (BitVec.ofNat 32 gen)) ∧
      ∃ t, exec (.barQuery d a) s = .next t ∧ WroteX v t d (BitVec.ofNat 64 w))

/-- Channel words queue and take words at mailboxes of sixteen, and act in portable code of a Resident kernel only (R59, R317, R319, R320, R321, R322). In a task that is no virtual core the own number is a free value (log entry 20). Where the spec leaves a point open, this is the model's reading or choice: log entries 20, 46, 59. -/
def Obligations.ChannelWords : Prop :=
  ∀ (s : State) (d a : IntReg) (n : BitVec 8), Ready s plain false →
    (s.chanKernel = none → ∀ i ∈ [Instr.chsend d a n, Instr.chrecv d n, Instr.chpoll d n, Instr.vcore d],
      exec i s = .next (s.raise s.cur (trapOf 0x05))) ∧
    (∀ slot k, s.chanKernel = some (slot, k) →
      let own := s.ownVcore slot k
      let u := s.drain s.cur
      let box (v : Nat) := k.box n.toNat v
      (k.nchan ≤ n.toNat → ∀ i ∈ [Instr.chsend d a n, Instr.chrecv d n, Instr.chpoll d n], exec i s = .next (s.raise s.cur (trapOf 0xA1))) ∧
      (∃ t, exec (.vcore d) s = .next t ∧ WroteX s t d (BitVec.ofNat 64 (k.vcores * 2 ^ 32 + own))) ∧
      (∀ v, v < k.vcores → s.me.inline = some v ∨ (s.me.inline = none ∧ ∃ r, s.me.task = some r ∧ r.role = .virtual v) → own = v) ∧
      (0 < k.vcores → own < k.vcores) ∧
      (n.toNat < k.nchan →
        (k.vcores ≤ (s.x a).toNat → exec (.chsend d a n) s = .next (s.raise s.cur (trapOf 0xA1))) ∧
        ((s.x a).toNat < k.vcores → (s.box (box (s.x a).toNat)).length < 16 → u.waiters = [] →
          ∃ t v, exec (.chsend d a n) s = .next t ∧ Went v t (v.me.pc + 4) ∧ v = { u with boxes := v.boxes } ∧
            ∀ b, v.box b = if b = box (s.x a).toNat then s.box b ++ [s.x d] else s.box b) ∧
        ((s.x a).toNat < k.vcores → 16 ≤ (s.box (box (s.x a).toNat)).length → s.cur.num ≠ 4 →
          exec (.chsend d a n) s = .next (({ u with waiters := u.waiters ++
              [{ who := s.cur, wait := .mailbox false d (box (s.x a).toNat), data := s.x d, cred := s.cred s.cur }] } : State).setStrand s.cur
            { u.me with st := .parked, wait := some (.mailbox false d (box (s.x a).toNat)), got := [], ahead := 1 })) ∧
        (∀ w rest, s.box (box own) = w :: rest → u.waiters = [] →
          ∃ t v, exec (.chrecv d n) s = .next t ∧ WroteX v t d w ∧ v = { u with boxes := v.boxes } ∧
            ∀ b, v.box b = if b = box own then rest else s.box b) ∧
        (s.box (box own) = [] → s.cur.num ≠ 4 →
          exec (.chrecv d n) s = .next (({ u with waiters := u.waiters ++
              [{ who := s.cur, wait := .mailbox true d (box own), data := 0, cred := s.cred s.cur }] } : State).setStrand s.cur
            { u.me with st := .parked, wait := some (.mailbox true d (box own)), got := [], ahead := 1 })) ∧
        ∃ t, exec (.chpoll d n) s = .next t ∧ WroteX u t d (BitVec.ofNat 64 (s.box (box own)).length)))

/-- The control-register words read, write, set and clear the register they name, by its fields and at its levels (R5, R6, R34, R35, R36, R37, R270). Where the spec leaves a point open, this is the model's reading or choice: log entry 3. -/
def Obligations.ControlRegisters : Prop :=
  ∀ (s : State) (d a : IntReg) (n : BitVec 8) (v : Word), Ready s plain false →
    let user : Prop := s.myLevel = .user
    let mayRead : Prop := user → n = 0 ∨ (8 ≤ n.toNat ∧ n.toNat ≤ 15)
    let mayWrite : Prop := user → n = 0 ∨ n = 8
    let old := s.csr n.toNat
    let ends (i : Instr) (r : Run) : Prop := (∀ u, r = .ok u → ∃ t, exec i s = .next t ∧ WroteX u t d old) ∧
      (∀ e, r = .error e → exec i s = .next (s.raise s.cur e))
    (17 < n.toNat → ∀ i ∈ [Instr.csrr d n, Instr.csrw d a n, Instr.csrs d a n, Instr.csrc d a n], exec i s = .next (s.raise s.cur (trapOf 0x02))) ∧
    (n.toNat ≤ 17 →
      (¬ mayRead → exec (.csrr d n) s = .next (s.raise s.cur (trapOf 0x06))) ∧
      (mayRead → ∃ t, exec (.csrr d n) s = .next t ∧ WroteX s t d old) ∧
      (¬ mayWrite → ∀ i ∈ [Instr.csrw d a n, Instr.csrs d a n, Instr.csrc d a n], exec i s = .next (s.raise s.cur (trapOf 0x06))) ∧
      (mayWrite → ends (.csrw d a n) (s.csrWrite n.toNat (s.x a)) ∧
        ends (.csrs d a n) (s.csrWrite n.toNat (if n = 12 then s.x a else old ||| s.x a)) ∧
        (n ≠ 12 → ends (.csrc d a n) (s.csrWrite n.toNat (old &&& ~~~(s.x a)))) ∧
        (n = 12 → ∃ t, exec (.csrc d a n) s = .next t ∧ WroteX s t d old))) ∧
    (∀ e ∈ [(2, v &&& ~~~3), (3, v &&& 0xFF), (4, v), (5, v &&& 0xFFFFFFFFFFFF), (6, v), (7, v &&& 0xFFF), (9, v &&& 0xFFFFFFFF),
        (10, v &&& 0xFFFFFF), (11, v &&& 0xFFFFFFFFFFFF), (12, s.csr 12 &&& ~~~v), (13, v &&& ~~~15), (15, v), (16, v &&& ~~~63), (17, v &&& 3)],
      ∃ u, s.csrWrite e.1 v = .ok u ∧ u.csr e.1 = e.2 ∧ (∀ k < 18, k ≠ e.1 → u.csr k = s.csr k) ∧ u = { s with strands := u.strands, cores := u.cores }) ∧
    (let k := (v.extractLsb' 0 9).toNat
     ((∃ j ≤ 8, k = 2 ^ j) → ∃ u, s.csrWrite 14 v = .ok u ∧ u.csr 14 = BitVec.ofNat 64 k ∧ u.me.widx = 0 ∧ u.me.ridx = 0 ∧ u.me.seq = 0 ∧
       ∀ j < 18, j ≠ 14 → u.csr j = s.csr j) ∧
     ((∀ j ≤ 8, k ≠ 2 ^ j) → s.csrWrite 14 v = .error (trapOf 0x0A))) ∧
    (∀ i ∈ [0, 1], 5 < (v.extractLsb' 4 3).toNat → s.csrWrite i v = .error (trapOf 0x0A)) ∧
    ((v.extractLsb' 4 3).toNat ≤ 5 →
      (∃ u, s.csrWrite 0 v = .ok u ∧ (∀ k < 18, k ≠ 0 → u.csr k = s.csr k) ∧
        ∀ j < 64, j ≠ 13 ∨ ¬ user → (u.csr 0).getLsbD j = if j = 2 ∨ (4 ≤ j ∧ j ≤ 16) then v.getLsbD j else (s.csr 0).getLsbD j) ∧
      (user → ∀ u, s.csrWrite 0 v = .ok u → (u.csr 0).extractLsb' 13 2 = if v.extractLsb' 13 2 = 3 then 2 else v.extractLsb' 13 2) ∧
      ∃ u, s.csrWrite 1 v = .ok u ∧ (∀ k < 18, k ≠ 1 → u.csr k = s.csr k) ∧
        ∀ j, 2 ≤ j → j < 64 → (u.csr 1).getLsbD j = if j ≤ 16 then v.getLsbD j else false) ∧
    (let p := (v.extractLsb' 0 8).toNat
     ((p < 8 ∨ 224 < p ∨ p % 8 ≠ 0) → s.csrWrite 8 v = .error (trapOf 0x41)) ∧
     (∀ u, s.csrWrite 8 v = .ok u → u.csr 8 = BitVec.ofNat 64 p ∧ ∀ k < 18, k ≠ 0 → k ≠ 8 → u.csr k = s.csr k))

/-- trap, eret, halt, wfe, tid, rdtime and urgent have the effects of R271 to R275 (R26, R58, R263, R271, R272, R273, R274, R275). Where the spec leaves a point open, this is the model's reading or choice: log entries 19, 117. -/
def Obligations.SystemWords : Prop :=
  ∀ (s : State) (d a : IntReg) (n : BitVec 8) (k : BitVec 1) (c : BitVec 4),
    (Ready s plain false → s.myLevel = .user → ∀ i ∈ [Instr.eret, Instr.halt, Instr.urgent d a k c], exec i s = .next (s.raise s.cur (trapOf 0x06))) ∧
    (Ready s plain false →
      exec (.trap n) s = .next (s.raise s.cur { cause := 0xE0, eidx := n.setWidth 64, after := true }) ∧
      (∃ t, exec (.tid d) s = .next t ∧ WroteX s t d (BitVec.ofNat 64 (8 * s.cur.core + s.cur.num))) ∧
      (∃ t, exec (.rdtime d) s = .next t ∧ WroteX s t d s.time) ∧
      (let ends : Prop := s.me.woke = true ∨ (s.x a ≠ 0 ∧ (s.x a).toNat ≤ s.time.toNat) ∨ (s.somePending s.cur = true ∧ s.mayTake s.cur = false)
       (ends → ∃ t, exec (.wfe a) s = .next t ∧ Went (s.modMe (fun q => { q with woke := false })) t (s.me.pc + 4)) ∧
       (¬ ends → s.cur.num ≠ 4 → exec (.wfe a) s = .next (s.setStrand s.cur { s.me with st := .parked, wait := some (.event (s.x a)), got := [], ahead := 1 })) ∧
       (¬ ends → s.cur.num = 4 → exec (.wfe a) s = .next (s.raise s.cur (trapOf 0x68))))) ∧
    (Ready s plain true →
      (s.cur.num < 4 → ∃ w, exec .eret s = .next (s.setStrand s.cur
          { s.me with ssw := w, pc := s.me.epc, st := .running, sched := false, himm := [], hmod := none, fetched := [], got := [], ahead := 0 }) ∧
        w.extractLsb' 0 2 = 0 ∧ ∀ j, 2 ≤ j → j < 64 → w.getLsbD j = s.me.eps.getLsbD j) ∧
      (s.cur.num < 4 → ∃ t, exec .halt s = .next t ∧ t.me = { Strand.fresh .halted s.fresh with lastFetch := s.clk.cycles } ∧
        (∀ q ∈ t.waiters, q.who ≠ s.cur) ∧ t.mem = s.mem ∧ t.cur = s.cur) ∧
      (s.cur.num = 5 → exec .halt s = .next (s.raise s.cur (trapOf 0xA5))) ∧
      (s.cur.num = 5 →
        let core := s.cur.core
        let u := s.endStandby core
        (∀ m, (s.core core).serving = some (.chain m) → exec .eret s = .next (u.resolve m ((s.x 10).toNat % 4))) ∧
        ((∀ m, (s.core core).serving ≠ some (.chain m)) → exec .eret s = .next u) ∧
        (u.strand s.cur).st = .parked ∧ (u.core core).serving = none ∧ u.mem = s.mem ∧
        (∀ j < 4, u.strand { core := core, num := j } = { s.strand { core := core, num := j } with paused := false, lastFetch := if (s.strand { core := core, num := j }).paused = true then s.clk.cycles else (s.strand { core := core, num := j }).lastFetch }) ∧
        ∀ m r, ((u.strand m.who).chained = false → u.resolve m r = u) ∧
          ((u.strand m.who).chained = true → m.who.num < 4 →
            (∀ x, 2 ≤ r → u.asid m.who = some x → u.resolve m r = u.haltContext x) ∧
            (r = 0 ∨ (2 ≤ r ∧ u.asid m.who = none) → u.resolve m r = u.setStrand m.who { u.strand m.who with
              chained := false, st := if (u.strand m.who).priv = 0 ∧ (u.strand m.who).st = .trapped then .running else (u.strand m.who).st }) ∧
            (r = 1 → (((u.resolve m r).strand m.who).st = .halted))) ∧
          ((u.strand m.who).chained = true → m.who.num = 4 → r = 0 → u.resolve m r = u.setStrand m.who { u.strand m.who with
            chained := false, st := if (u.strand m.who).st = .trapped then .running else (u.strand m.who).st })) ∧
      (let core := (s.x a).toNat
       let reached : Prop := s.coreExists core = true ∧ s.asid s.cur ≠ none ∧ s.asidOf core = s.asid s.cur
       let u := s.drain s.cur
       (¬ reached → exec (.urgent d a k c) s = .next (s.raise s.cur (trapOf 0xA1))) ∧
       (reached → (k = 1 → 4 ≤ (s.x d).toNat % 8 → exec (.urgent d a k c) s = .next (s.raise s.cur (trapOf 0xA1))) ∧
         (k = 1 → (s.x d).toNat % 8 < 4 → ∃ t, exec (.urgent d a k c) s = .next t ∧
           Went (u.postIrq (core * 8 + (s.x d).toNat % 8) 0xE2) t ((u.postIrq (core * 8 + (s.x d).toNat % 8) 0xE2).me.pc + 4)) ∧
         (k = 0 → ∃ t v, exec (.urgent d a k c) s = .next t ∧ Went v t (v.me.pc + 4) ∧
           v = { u with cores := v.cores, free := v.free } ∧ (∀ e, e ≠ core → v.core e = u.core e) ∧
           let r : UrgentReq := { code := c.toNat, issuer := 8 * s.cur.core + s.cur.num, arg := s.x d }
           ((∀ q ∈ (s.core core).urgentQ, q.code ≠ r.code) → (v.core core).urgentQ = (s.core core).urgentQ ++ [r]) ∧
           ((v.core core).urgentQ.map (fun q => q.code) = (s.core core).urgentQ.map (fun q => q.code) ∨
             ∀ q ∈ (s.core core).urgentQ, q.code ≠ r.code)))))

/-- Traps and interrupts save and enter as R260 says, translation faults of pageable contexts wait, the rest goes to the handler chain (R27, R51, R60, R111, R260, R261, R263, R291). Where the spec leaves a point open, this is the model's reading or choice: log entries 27, 49, 70. -/
def Obligations.TrapsAndInterrupts : Prop :=
  ∀ (s : State) (sid : StrandId) (e : Trap) (c : Context),
    let q := s.strand sid
    let start := q.pc - BitVec.ofNat 64 (4 * (q.himm.length + if q.hmod.isSome then 1 else 0))
    let entered (w : Word) : Prop := w.extractLsb' 0 2 = 1 ∧ w.getLsbD 2 = false ∧ w.getLsbD 3 = false ∧
      ∀ j, 4 ≤ j → j < 64 → w.getLsbD j = q.ssw.getLsbD j
    let took (t : State) (e : Trap) : Prop := ∃ w tile, entered w ∧ t.mem = s.mem ∧
      t.strand sid = { q with eps := q.ssw, epc := if e.after then q.pc + 4 else start, cause := e.cause.setWidth 64, eva := e.eva, eidx := e.eidx,
                              efmt := e.efmt, etile := e.etile, ssw := w, pc := c.hentry, st := .trapped, sched := false, himm := [], hmod := none,
                              got := [], wait := none, served := none, held := none, ahead := 0, tile := tile } ∧
      (∀ i, StrandId.tid i ≠ StrandId.tid sid → t.strand i = s.strand i) ∧
      (q.tile = none → tile = none ∧ t = s.setStrand sid (t.strand sid))
    (sid.num < 4 → s.level sid = .user → s.contextOf sid.core = some c → e.cause.toNat < 0xF0 →
      (c.pageable = false ∨ e.fault = none → ∃ t, s.raise sid e = t ∧ took t e) ∧
      (∀ f, c.pageable = true → e.fault = some f → s.raise sid e = s.setStrand sid
        { q with pc := start, sched := false, himm := [], hmod := none, got := [], ahead := 0, st := .parked, wait := some (.pager f e.engine), lastFetch := s.clk.cycles }) ∧
      (sid = s.cur → ∀ k, k.toNat < 0xF0 → ∃ t, exec (.nonInstructionWord k) s = .next t ∧ took t (trapOf k)) ∧
      (sid = s.cur → s.fetch sid = .error e → e.resume = none → e.stall = false → e.drains = false → e.drop = none → e.caches = none →
        c.pageable = false ∨ e.fault = none → ∃ t, exec (.fetchFault e.cause) s = .next t ∧ took t e)) ∧
    (∀ place entry rest, (sid.num = 4 ∨ (sid.num = 5 ∧ (s.core sid.core).serving = none) ∨ (sid.num < 4 ∧ s.level sid ≠ .user)) → e.cause.toNat < 0xF0 →
      s.chainFor sid = (place, entry) :: rest →
      let k := sid.core / 4 * 4 + place
      ∃ t, s.raise sid e = t ∧ t = { s with strands := t.strands, cores := t.cores } ∧
        t.strand sid = { q with pc := start, sched := false, himm := [], hmod := none, got := [], ahead := 0, chained := true, st := if sid.num = 5 then q.st else .trapped } ∧
        (∀ i, StrandId.tid i ≠ StrandId.tid sid → t.strand i = s.strand i) ∧ (∀ j, j ≠ k → t.core j = s.core j) ∧
        t.core k = { s.core k with chainQ := (s.core k).chainQ ++ [{ who := sid, cause := e.cause, hops := 0, epc := start, eva := e.eva }] }) ∧
    (∀ k, exec (.nonInstructionWord k) s = .next (s.raise s.cur (trapOf k))) ∧
    (s.fetch s.cur = .error e → e.resume = none →
      (e.stall = true → exec (.fetchFault e.cause) s = .next s) ∧
      (e.stall = false → exec (.fetchFault e.cause) s = .next ((s.beforeTrap s.cur e).raise s.cur e))) ∧
    (∀ n, let by_ := ofTid n
      let kept : Prop := s.tidExists n = true ∧ n % 8 < 4 ∧ (s.strand by_).st ≠ .halted ∧ (s.strand by_).st ≠ .evicted ∧
        ∃ x, s.contextOf (n / 8) = some x ∧ x.st ≠ .halted
      let open_ : Prop := s.hub.phase = 4 ∨ s.hub.phase = 5
      (¬ open_ → exec (.hostInterruptMessage n) s = .next s) ∧
      (open_ → kept → exec (.hostInterruptMessage n) s = .next (s.setStrand by_ { s.strand by_ with
        irqHost := true, irqAt := if (s.strand by_).irqHost = true then (s.strand by_).irqAt else s.clk.cycles })) ∧
      (open_ → ¬ kept → exec (.hostInterruptMessage n) s = .next (s.modHub (fun h => { h with bbQueue := h.bbQueue ++
        [{ event := 3, source := BitVec.ofNat 16 (n / 8 % 1024), cause := 0xE3, tag := BitVec.ofNat 32 (s.tagOf by_), addr := 0, aux := 0, arrived := s.clk.cycles * 2 / 3 }] })))) ∧
    (s.contextOf sid.core = some c → s.mayTake sid = true → q.interruptible = true →
      ∃ t w tile, exec (.takeInterrupt sid) s = .next t ∧ entered w ∧ t.mem = s.mem ∧ (∀ x ∈ t.waiters, x.who ≠ sid) ∧
        (∀ i, StrandId.tid i ≠ StrandId.tid sid → t.strand i = s.strand i) ∧
        let irq : Nat := if q.irqTimer = true then 1 else if q.irqPost = true then 2 else 3
        t.strand sid = { q with eps := q.ssw, epc := q.pc, cause := BitVec.ofNat 64 (0xE0 + irq), eva := 0, eidx := 0, efmt := 0, etile := 0, ssw := w,
                                pc := c.hentry, st := .trapped, sched := false, wait := none, served := none, held := none,
                                gangWait := none, woke := true, ahead := 0, tile := tile, fences := q.fences.map Fence.unblock,
                                irqTimer := q.irqTimer && decide (irq ≠ 1), irqPost := q.irqPost && decide (irq ≠ 2),
                                irqHost := q.irqHost && decide (irq ≠ 3) })

/-- Parked strands wake with the values their waits name, standby strands start their work, and cores enter and leave retention (R25, R26, R27, R41, R43, R53, R220, R240, R244, R263, R264, R274). Where the spec leaves a point open, this is the model's reading or choice: log entries 3, 4, 24, 53, 71, 78, 126. -/
def Obligations.StrandEvents : Prop :=
  ∀ (s : State) (sid : StrandId) (core : Nat),
    let q := s.strand sid
    let u : State := { ((s.modCore sid.core (fun k => { k with retiredAt := some s.clk.cycles })).setStrand sid
      { q with st := .running, wait := none, served := none, evictReq := false, lastFetch := s.clk.cycles }) with cur := sid, cut := none, replay := [] }
    let wakes (i : Instr) (r : State → Prop) : Prop := ∃ t, exec i s = .next t ∧ t.cur = s.cur ∧ r { t with cur := sid }
    let ends : (State → Prop) → Prop := wakes (.strandWake sid)
    let returns (d : IntReg) (w : Word) : Prop := ends (fun r => WroteX u r d w)
    let retires : Prop := ends (fun r => Went u r (q.pc + 4))
    let tags := (s.core sid.core).tagw
    let over_ (w : Word) : Prop := q.woke = true ∨ (w ≠ 0 ∧ w.toNat ≤ s.time.toNat) ∨ (s.somePending sid = true ∧ s.mayTake sid = false)
    let waked : Strand := { spentAt q (q.pc + 4) with st := .running, wait := none, served := none, evictReq := false, woke := false, lastFetch := s.clk.cycles }
    (q.st = .parked → q.paused = false → q.chained = false → (s.core sid.core).retained = 0 → s.interruptFirst sid = false → s.stopPending sid = false →
      (s.core sid.core).retiredAt ≠ some s.clk.cycles →
      (∀ d l w, q.served = some w → (q.wait = some (.word .ldc d l) ∨ q.wait = some (.word .ldf d l) ∨ q.wait = some (.mailbox true d l)) → returns d w) ∧
      (∀ d l w, q.served = some w → (q.wait = some (.word .stp d l) ∨ q.wait = some (.mailbox false d l)) → retires) ∧
      (∀ h d l g w, q.served = some w → q.wait = some (.barrier h d l g) → returns d w) ∧
      (∀ d w, q.wait = some (.flood d) → q.served = some w → returns d w) ∧
      (∀ d m, q.wait = some (.tagAny d m) → q.served ≠ none ∨ tags &&& m ≠ 0 → returns d (tags &&& m)) ∧
      (∀ d m, q.wait = some (.tagAll d m) → q.served ≠ none ∨ tags &&& m = m → returns d m) ∧
      (∀ d g, q.wait = some (.flood d) → q.served = none → s.groupOf sid.core = some g → g.spread = true → (∀ f ∈ g.floods, f.gen ≠ g.gen) →
        returns d (g.gen.setWidth 64)) ∧
      (∀ m, q.wait = some (.classes m) → q.classesMet m = true → retires) ∧
      (∀ d, q.wait = some (.ring d) → q.served ≠ none →
        ends (fun r => WroteX (u.modMe (fun k => { k with ridx := (k.ridx + 1) % k.crn.toNat })) r d u.me.ringHead)) ∧
      (∀ d v r0, q.wait = some (.ring d) → q.served = none → Ready u plain false → q.crb ≠ 0 → Unheld u u.me.ringHead.toNat 1 →
        u.loadScalar u.me.ringHead.toNat 1 false {} = .ok (v, r0) → v ≠ 0 → r0.cur = sid → r0.me = u.me →
        ends (fun r => WroteX (r0.modMe (fun k => { k with ridx := (k.ridx + 1) % k.crn.toNat })) r d u.me.ringHead)) ∧
      (∀ l c, q.wait = some (.counter l c) → q.served ≠ none → retires) ∧
      (∀ l c rest r, q.wait = some (.counter l c) → q.served = none → (s.core sid.core).deque = rest ++ [r] →
        let first := lowestVirtual r (rest ++ [r])
        ends (fun t => t = { u with strands := t.strands, cores := t.cores, clusters := t.clusters, waiters := s.waiters.filter (fun w => w.who != sid) } ∧
          Started (spentAt u.me q.pc) t.me first q.pc ∧
          t.core sid.core = { u.core sid.core with deque := if first = r then rest else (rest ++ [r]).erase first } ∧ (∀ c, c ≠ sid.core → t.core c = s.core c) ∧
          ∀ i, StrandId.tid i ≠ StrandId.tid sid → t.strand i = s.strand i)) ∧
      (∀ w, q.wait = some (.event w) → ∀ i ∈ [Instr.strandWake sid, Instr.wfeDeadline sid],
        over_ w → (i = .wfeDeadline sid → w ≠ 0 ∧ w.toNat ≤ s.time.toNat) → wakes i (fun t => t = { u with strands := t.strands } ∧ t.me = waked ∧
          ∀ i, StrandId.tid i ≠ StrandId.tid sid → t.strand i = s.strand i))) ∧
    ((s.core sid.core).retained = 0 → s.interruptFirst sid = false → s.stopPending sid = false → s.woken sid ≠ none →
      ∀ t, (s.toRetire sid.core).woken sid = some t → exec (.strandWake sid) s = .next t) ∧
    ((s.core sid.core).retained ≠ 0 ∨ s.interruptFirst sid = true ∨ s.stopPending sid = true →
      exec (.strandWake sid) s = .next s ∧ exec (.wfeDeadline sid) s = .next s) ∧
    (∀ stop up, q.nudge = some (stop, up) → stop ≤ s.clk.cycles → exec (.nudgeExpiry sid) s = .next (s.setStrand sid { q with nudge := none })) ∧
    (let by_ : StrandId := { core := core, num := 5 }
     let old := s.strand by_
     let started (t : State) (chainQ : List ChainMsg) (urgentQ : List UrgentReq) (entry : Word) (xs : Nat → Option Word) (job : Serving) : Prop :=
       t = { s with strands := t.strands, cores := t.cores, engines := t.engines } ∧
       t.core core = { s.core core with serving := some job, chainQ := chainQ, urgentQ := urgentQ } ∧ (∀ c, c ≠ core → t.core c = s.core c) ∧
       (∃ w x, t.strand by_ = { old with st := .running, pc := entry &&& ~~~3, ssw := w, x := x, lastFetch := s.clk.cycles } ∧
         (∀ j < 64, w.getLsbD j = if j = 3 then false else if j ∈ [0, 1, 13, 14] then true else old.ssw.getLsbD j) ∧
         ∀ n, Sparse.at 0 x n = (xs n).getD (Sparse.at 0 old.x n)) ∧
       (∀ n < 4, let g := s.strand { core := core, num := n }
         t.strand { core := core, num := n } =
           { g with pc := g.pc - BitVec.ofNat 64 (4 * (g.himm.length + if g.hmod.isSome then 1 else 0)),
                    sched := false, himm := [], hmod := none, got := [], ahead := 0, paused := decide (g.st ≠ .halted ∧ g.st ≠ .evicted),
                    tile := g.tile.map (fun c => if c.op.any (fun o => !o.macro) then { c with op := none } else c) }) ∧
       ((∀ n < 4, ∀ c, (s.strand { core := core, num := n }).tile = some c → c.op = none) → t.engines = s.engines) ∧
       ∀ i, StrandId.tid i / 8 ≠ core ∨ StrandId.tid i % 8 = 4 → t.strand i = s.strand i
     (s.core core).serving = none → old.st = .parked → old.wait = none → (s.core core).retained = 0 →
      (∀ n < 4, (s.strand { core := core, num := n }).got = []) →
      (∀ m rest place entry, (s.core core).chainQ = m :: rest → (s.chainFor m.who)[m.hops]? = some (place, entry) →
        ∃ t, exec (.chainMessageStart core) s = .next t ∧
          started t rest (s.core core).urgentQ entry (fun n => if n = 10 then some (BitVec.ofNat 64 (8 * m.who.core + m.who.num))
            else if n = 11 then some (s.chainWord m) else if n = 12 then some m.epc else if n = 13 then some m.eva else none) (.chain m)) ∧
      (∀ r rest entry, (s.core core).chainQ = [] → (s.core core).urgentQ = r :: rest → s.urgentTable.get? r.code = some entry →
        ∃ t, exec (.standbyUrgentStart core) s = .next t ∧
          started t [] rest entry (fun n => if n = 10 then some (BitVec.ofNat 64 r.issuer) else if n = 11 then some (BitVec.ofNat 64 r.code)
            else if n = 12 then some r.arg else none) .urgent)) ∧
    (let depth := ((s.core core).rfsleep.extractLsb' 0 2).toNat
     let v := s.drainCore core
     (∀ n < 6, s.inactive { core := core, num := n } = true) → depth ≠ 0 → (s.core core).retained = 0 →
      exec (.retentionEntry core) s = .next (v.setCore core { v.core core with retained := depth, retainedAt := v.clk.cycles })) ∧
    ((s.core core).retained ≠ 0 → (s.cluster (core % 1024 / 4)).curc = 0 → s.wakesCore core = true →
      ∃ t, exec (.retentionWake core) s = .next t ∧ t = { s with cores := t.cores, clusters := t.clusters } ∧
        t.core core = { s.core core with retained := 0 } ∧ (∀ c, c ≠ core → t.core c = s.core c) ∧ ∀ k, t.cluster k = s.cluster k)

/-- inv.r, inv.a, invack, probe, fq.replay and fq.fail do what R294 to R297 say (R58, R288, R289, R294, R295, R296, R297). Where the spec leaves a point open, this is the model's reading or choice: log entries 48, 50, 80, 92, 122. -/
def Obligations.TranslationWords : Prop :=
  ∀ (s : State) (d a n : IntReg), Ready s plain true →
    let o := s.x d
    let named := (o.extractLsb' 0 16).toNat
    let u := s.drain s.cur
    (∀ e ∈ [(Instr.invR d a n, (s.x a).toNat, min ((s.x a).toNat + (s.x n).toNat) (2 ^ 48)), (Instr.invA d, 0, 2 ^ 48)],
      (o.toNat / 2 ^ 18 ≠ 0 → exec e.1 s = .next (s.raise s.cur (trapOf 0x0A))) ∧
      (o.toNat / 2 ^ 18 = 0 →
        let may : Prop := s.myLevel = .machine ∨ (s.asid s.cur = some named ∧ o.getLsbD 16 = false ∧ o.getLsbD 17 = false)
        (¬ may → exec e.1 s = .next (s.raise s.cur (trapOf 0x06))) ∧
        (may → 8 ≤ s.outstanding s.me.uid → exec e.1 s = .next s) ∧
        (may → s.outstanding s.me.uid < 8 → ∃ t v, exec e.1 s = .next t ∧ Went v t (v.me.pc + 4) ∧
          let fresh_ : Inval :=
            { issuer := some s.me.uid, asid := if o.getLsbD 17 then none else some named, glob := o.getLsbD 16, lo := e.2.1, hi := e.2.2,
              pending := s.packageCores, draining := [] }
          v = { u with fresh := s.fresh + 1, invals := u.invals.set s.fresh fresh_ }))) ∧
    (s.outstanding s.me.uid = 0 → ∃ t, exec .invack s = .next t ∧ Went s t (s.me.pc + 4)) ∧
    (s.outstanding s.me.uid ≠ 0 → exec .invack s = .next s) ∧
    (let va := (s.x a).toNat
     let failed (l : Nat) (c : Cause) : Word := BitVec.ofNat 64 (2 * l) ||| (c.setWidth 64 <<< 56)
     (s.window s.cur va 1 ≠ .outside → ∃ t, exec (.probe d a) s = .next t ∧ WroteX s t d (1 <<< 55)) ∧
     (s.window s.cur va 1 = .outside →
       (s.asid s.cur = none → ∃ t, exec (.probe d a) s = .next t ∧ WroteX s t d (failed 0 0x20)) ∧
       (∀ k, s.asid s.cur = some k → (2 ^ 48 ≤ va → ∃ t, exec (.probe d a) s = .next t ∧ WroteX s t d (failed 0 0x27)) ∧
         (∀ f, va < 2 ^ 48 → s.leafFor (some s.cur) s.cur.core k va = .error f → f.level < 8 →
           (f.held = true → exec (.probe d a) s = .next s) ∧
           (f.held = false → ∃ t, exec (.probe d a) s = .next t ∧ WroteX ((u.afterWalk f).dropTlb s.cur.core va) t d (failed f.level f.cause))) ∧
         (∀ e v, va < 2 ^ 48 → s.leafFor (some s.cur) s.cur.core k va = .ok (e, v) → Translated s v ∧
           ∃ t, exec (.probe d a) s = .next t ∧ WroteX v t d (v.probeWord e va))))) ∧
    (∀ k c, s.asid s.cur = some k → s.contexts.get? k = some c → s.waiters = [] → s.me.wait = none → KeyFits c.cred →
      let i := (s.x a).toNat
      let posted : Prop := c.pageable = true ∧ i < c.fqSize ∧ u.mem.readNat u.free c.cred (c.fqEntry i + 18) 1 = 1
      (¬ posted → ∀ j ∈ [Instr.fqReplay a, Instr.fqFail a n], exec j s = .next (s.raise s.cur (trapOf 0x0A))) ∧
      (posted → (s.x n).toNat ∉ [0x20, 0x23, 0x24, 0x25, 0x26, 0x27, 0x2B] → exec (.fqFail a n) s = .next (s.raise s.cur (trapOf 0x0A))) ∧
      (posted → ∀ e ∈ [(Instr.fqReplay a, 2), (Instr.fqFail a n, 3)],
        (e.2 = 3 → (s.x n).toNat ∈ [0x20, 0x23, 0x24, 0x25, 0x26, 0x27, 0x2B]) →
        ∃ t, exec e.1 s = .next t ∧ t.me.pc = s.me.pc + 4 ∧ t.mem.readNat t.free c.cred (c.fqEntry i + 18) 1 = e.2 ∧
          t.contexts.get? k = some { c with posted := c.posted.filter (fun p => p.index != i) } ∧
          ∀ (sid : StrandId) (q : Strand) (f : PagerFault), s.strands.get? (StrandId.tid sid) = some q → StrandId.tid sid ≠ StrandId.tid s.cur → s.copies.get? q.uid = none →
            (∃ p ∈ c.posted, p.index = i ∧ q.uid ∈ p.who) → q.st = .parked → q.wait = some (.pager f none) →
            t.strand sid = if e.2 = 2 then { q with st := .running, wait := none, served := none, evictReq := false }
              else q.enter q.start (trapAt (BitVec.ofNat 8 (s.x n).toNat) f.va) c.hentry))

/-- Walks end, faults are posted once or merged, and invalidations drop entries core by core and end with the last acknowledgement (R286, R288, R289, R291, R292, R293). Where the spec leaves a point open, this is the model's reading or choice: log entries 24, 47, 48, 50, 125, 128. -/
def Obligations.TranslationEvents : Prop :=
  ∀ (s : State),
    (∀ cluster i w, (s.cluster cluster).walks[i]? = some w →
      (16 ≤ i ∨ s.walkReads none w.asid (w.page * 4096) = none → exec (.pageWalkComplete cluster i) s = .next s) ∧
      (∀ u, i < 16 → s.walkReads none w.asid (w.page * 4096) = some u → CacheOnly s u ∧
        let v := u.modCluster cluster (fun k => { k with walks := k.walks.eraseIdx i })
        (w.discarded = true ∨ (∃ l, v.walk w.asid (w.page * 4096) = .failed l) → exec (.pageWalkComplete cluster i) s = .next v) ∧
        (∀ e ptrs, w.discarded = false → v.walk w.asid (w.page * 4096) = .found e ptrs →
          exec (.pageWalkComplete cluster i) s = .next (v.fillTlb w.core e ptrs)))) ∧
    (∀ who p c, s.postingOf who = some p → s.contexts.get? p.asid = some c → s.waiters = [] → KeyFits c.cred →
      let widx := s.mem.readNat s.free c.cred c.fqPlace 4
      let ridx := s.mem.readNat s.free c.cred (c.fqPlace + 8) 4
      (widx + 2 ^ 32 - ridx) % 2 ^ 32 ≠ c.fqSize →
      (∀ q, c.merging.find? (fun q => q.page == p.fault.va / 4096 && q.cause == p.fault.cause) = some q →
        ∃ t k, exec (.faultPost who) s = .next t ∧ t.contexts.get? p.asid = some k ∧
          k.posted = c.posted.map (fun r => if r.index = q.index then { r with who := r.who ++ [p.name] } else r)) ∧
      (c.merging.find? (fun q => q.page == p.fault.va / 4096 && q.cause == p.fault.cause) = none →
        let i := widx % c.fqSize
        ∃ t k, exec (.faultPost who) s = .next t ∧ t.mem.readNat t.free c.cred (c.fqEntry i) 32 = p.entry widx % 2 ^ 256 ∧
          t.mem.readNat t.free c.cred c.fqPlace 4 = (widx + 1) % 2 ^ 32 ∧ t.contexts.get? p.asid = some k ∧
          k.posted = c.posted ++ [{ index := i, page := p.fault.va / 4096, cause := p.fault.cause, who := [p.name] }])) ∧
    (∀ inv core v, s.invals.get? inv = some v →
      (core ∈ v.pending → ∃ t, exec (.invalidationPoint inv core) s = .next t ∧
        t = { s with cores := t.cores, clusters := t.clusters, invals := t.invals, strands := t.strands, fresh := s.fresh + 1 } ∧
        t.core core = { s.core core with tlb := (s.core core).tlb.filter (fun e => !v.dropsLeaf e), shapes := (s.core core).shapes.filter (fun e => !v.dropsShape e) } ∧
        (∀ c, c ≠ core → t.core c = s.core c) ∧
        (let k := core % 1024 / 4
         t.cluster k = { s.cluster k with tlb := (s.cluster k).tlb.filter (fun e => !v.dropsLeaf e),
                                          walkCache := (s.cluster k).walkCache.filter (fun w => !v.dropsPointer w),
                                          walks := (s.cluster k).walks.map (fun w => if v.dropsWalk w then { w with discarded := true } else w) } ∧
         ∀ j, j ≠ k → t.cluster j = s.cluster j) ∧
        (∀ i, let q := s.strand i
          let again : Prop := StrandId.tid i / 8 = core ∧ q.got ≠ [] ∧ (∃ e ∈ q.pinned, v.dropsLeaf e = true) ∧ ∀ bs ∈ q.got, bs ≠ []
          (again → t.strand i = { q with got := [], word := none }) ∧ (¬ again → t.strand i = q)) ∧
        ∃ w d, t.invals.get? inv = some w ∧ w = { v with pending := w.pending, draining := w.draining } ∧
          (∀ c, c ∈ w.pending ↔ c ∈ v.pending ∧ c ≠ core) ∧ w.draining.get? core = some d ∧ d.since = s.fresh ∧
          ∀ e, e ∈ d.copies ↔ ∃ c, (e.1, c) ∈ s.copies ∧ c.issuer.core = core ∧ (c.op = .publish ∨ s.inProgress c e.1 = true) ∧
            v.workLeft c ≠ 0 ∧ e.2 = v.workLeft c) ∧
      (∀ d, v.draining.get? core = some d →
        (∀ b ∈ (s.core core).buffer, ∀ e, b.leaf = some e → v.dropsLeaf e = true → d.since < b.born) →
        (∀ w ∈ (s.cluster (core % 1024 / 4)).walks, w.discarded = true → w.core = core → v.dropsWalk w = false) →
        (∀ n < 6, let q := s.strand { core := core, num := n }
          q.got = [] ∨ (∀ e ∈ q.pinned, v.dropsLeaf e = false) ∨ d.since < q.bornAt) →
        (∀ e ∈ d.copies, ∀ c, s.copies.get? e.1 = some c → c.error ≠ none ∨ c.wait ≠ none ∨ v.workLeft c < e.2) →
        ∃ t, exec (.invalidationAck inv core) s = .next t ∧ t = { s with invals := t.invals } ∧
          (v.pending = [] → v.draining.keys = [core] → t.invals.get? inv = none) ∧
          (v.pending ≠ [] → ∃ w, t.invals.get? inv = some w ∧ w = { v with draining := w.draining } ∧ w.draining.get? core = none)) ∧
      (∀ d, v.draining.get? core = some d → s.undrained v core d = true → exec (.invalidationAck inv core) s = .next s))

/-- BUILD, ATTACH, HALT and DESTROY make, extend, stop and free contexts, and answer with the status that applies (R226, R227, R228, R256, R257, R258, R259, R290, R340). Where the spec leaves a point open, this is the model's reading or choice: log entries 6, 21, 51, 52. -/
def Obligations.ContextCommands : Prop :=
  ∀ (s : State) (args : Sparse Word),
    (∀ e ∈ [(Instr.build, 1), (.attach, 2), (.evict, 3), (.restore, 4), (.swap, 5), (.haltCommand, 6), (.destroy, 7), (.qenable, 8), (.qresume, 9),
        (.qdisable, 10), (.ttload, 11), (.kload, 12), (.krelease, 13), (.kquery, 14), (.kpurge, 15), (.fuseraise, 16), (.attest, 17), (.debugset, 18)],
      s.hub.running = some (BitVec.ofNat 8 e.2, args) → (unusedClear e.2 args = false ∨ s.namesOk e.2 args = false) →
      ∃ t, exec e.1 s = .next t ∧ Answered s t 0xFE 0 0) ∧
    (Asked s 1 args →
      let at_ := cmdArg args 0
      let d := s.mem.readNat s.free Cred.shared at_ 64
      let bad : Prop := readable at_ 64 = false ∨ descriptorBad d = true ∨ (s.contexts.get? (d % 65536)).isSome = true
      (bad → ∃ t, exec .build s = .next t ∧ Answered s t 3 0 0) ∧
      (¬ bad → (s.hub.mode = 3 ∨ s.freeSlot = none → ∃ t, exec .build s = .next t ∧ Answered s t 1 0 0) ∧
        (∀ n, s.hub.mode ≠ 3 → s.freeSlot = some n → n < 1024 ∧ n ≠ 1023 ∧ (s.keySlot n).inUse = false ∧
          (∀ m < 1023, (s.keySlot m).inUse = false → (s.keySlot n).filled ≤ (s.keySlot m).filled) ∧
          ∃ t u c, exec .build s = .next t ∧ Answered u t 0 c.tagWord 0 ∧
            u = { s with keySlots := u.keySlots, contexts := s.contexts.set (d % 65536) c, fresh := s.fresh + 1,
                         hub := { s.hub with built := true } } ∧
            c = { st := .built, pageable := d.testBit 16, hentry := BitVec.ofNat 64 (d / 2 ^ 64), root := BitVec.ofNat 64 (d / 2 ^ 128),
                  saveBase := BitVec.ofNat 64 (d / 2 ^ 192), fqBase := BitVec.ofNat 64 (d / 2 ^ 256), slot := n,
                  epoch := ((s.keySlot n).epoch + 1) % 2 ^ 22, attached := 0, posted := [], dropLog := none } ∧
            (u.keySlot n).inUse = true ∧ (u.keySlot n).epoch = c.epoch ∧ ∀ m, m ≠ n → u.keySlot m = s.keySlot m))) ∧
    (∀ c, Asked s 2 args → s.contexts.get? (cmdArg args 0) = some c →
      let d := s.mem.readNat s.free Cred.shared (cmdArg args 1) 64
      (c.st = .halted ∨ c.st = .swapped → ∃ t, exec .attach s = .next t ∧ Answered s t 2 0 0) ∧
      (c.st ≠ .halted → c.st ≠ .swapped →
        (readable (cmdArg args 1) 64 = false ∨ s.groupRefused c d = true → ∃ t, exec .attach s = .next t ∧ Answered s t 0xA0 0 0) ∧
        (readable (cmdArg args 1) 64 = true → s.groupRefused c d = false →
          let cores := extentCores (extentsOf d)
          ∃ t u n g, exec .attach s = .next t ∧ Answered u t 0 n 0 ∧ (n ≠ 0 → s.groups.get? n = none) ∧
            u = { s with free := s.free + 1, groups := s.groups.set n g, contexts := u.contexts, cores := u.cores } ∧
            u.contexts.get? (cmdArg args 0) = some { c with st := (if c.st = .built then .ready else c.st), attached := c.attached + cores.length } ∧
            (∀ a, a ≠ cmdArg args 0 → u.contexts.get? a = s.contexts.get? a) ∧
            g = { asid := cmdArg args 0, st := .attached, extents := extentsOf d, levels := BitVec.ofNat 5 d, seed := BitVec.ofNat 32 (d / 2 ^ 32),
                  base := 4 * c.attached, gen := 0, spread := false, floods := [] } ∧
            ∀ k, u.core k = if k ∈ cores then { s.core k with group := some n, attaching := true } else s.core k))) ∧
    (∀ core g, s.groupOf core = some g → (s.core core).attaching = true → (∀ k ∈ g.cores, (s.strand { core := k, num := 4 }).st = .idle) →
      let home : StrandId := { core := core, num := 4 }
      let v := g.seed ^^^ BitVec.ofNat 32 core
      ∃ t, exec (.attachCoreReset core) s = .next t ∧ t.mem = (s.drainCore core).mem ∧
        t.core core = { s.core core with s := [], tagw := 0, htab := 0, deque := [], victim := (if v = 0 then 1 else v), stealAt := 0, searched := [],
                                         attaching := false, buffer := [], landReq := [], landReply := [],
                                         retained := (t.core core).retained } ∧
        (∀ k, k ≠ core → t.core k = { s.core k with retained := (t.core k).retained }) ∧
        (∀ b, (s.strand home).tile = some b → (s.strand home).uid ∉ (t.engine b.engine).bound) ∧
        t.strand home = { Strand.fresh .idle s.fresh with lastFetch := s.clk.cycles }) ∧
    (∀ c, Asked s 6 args → s.contexts.get? (cmdArg args 0) = some c →
      (c.st = .halted → ∃ t, exec .haltCommand s = .next t ∧ Answered s t 2 0 0) ∧
      (c.st ≠ .halted → ∃ t u, exec .haltCommand s = .next t ∧ Answered u t 0 0 0 ∧
        u.contexts.get? (cmdArg args 0) = some { c with st := .halted, posted := [] } ∧ (∀ x ∈ u.saved, x.asid ≠ cmdArg args 0) ∧
        (∀ n g, u.groups.get? n = some g → g.asid = cmdArg args 0 → g.st = .releasing) ∧
        (∀ n q, u.queues.get? n = some q → q.asid = cmdArg args 0 → q.st = .halted) ∧
        (∀ n k, u.kernels.get? n = some k → k.asid ≠ cmdArg args 0) ∧
        u.hub.mode = if s.hub.mode = 2 ∧ s.hub.debugCtx = cmdArg args 0 then 1 else s.hub.mode)) ∧
    (∀ c, Asked s 7 args → s.contexts.get? (cmdArg args 0) = some c →
      (s.hub.destroying = some (cmdArg args 0) →
        ((∃ e ∈ s.invals, e.2.issuer = none) → exec .destroy s = .next s) ∧
        ((∀ e ∈ s.invals, e.2.issuer ≠ none) → ∃ t u, exec .destroy s = .next t ∧ Answered u t 0 0 0 ∧
          let erased : BbEvent := { event := 9, source := 0x3FF, cause := 0, tag := BitVec.ofNat 32 c.tagWord, addr := 0, aux := 0,
                                    arrived := s.clk.cycles * 2 / 3 }
          u = { s with contexts := s.contexts.erase (cmdArg args 0), keySlots := s.keySlots.set c.slot { s.keySlot c.slot with inUse := false },
                       cores := u.cores, clusters := u.clusters,
                       hub := { s.hub with destroying := none, bbQueue := s.hub.bbQueue ++ [erased] } } ∧
          (∀ k, u.core k = { s.core k with tlb := (s.core k).tlb.filter (fun e => e.asid != cmdArg args 0),
                                           shapes := (s.core k).shapes.filter (fun e => e.asid != cmdArg args 0) }) ∧
          ∀ k, u.cluster k = (s.cluster k).forget (cmdArg args 0))) ∧
      (s.hub.destroying ≠ some (cmdArg args 0) →
        (c.st ≠ .halted → ∃ t, exec .destroy s = .next t ∧ Answered s t 2 0 0) ∧
        (c.st = .halted → ∃ v, exec .destroy s = .next
            { s with hub := { s.hub with destroying := some (cmdArg args 0) }, fresh := s.fresh + 1, invals := s.invals.set s.fresh v } ∧
          v = { issuer := none, asid := some (cmdArg args 0), glob := true, lo := 0, hi := 2 ^ 64, pending := s.packageCores, draining := [] })))

/-- EVICT, RESTORE and SWAP save and bring back strands and partitions (R25, R265, R266, R267, R268). Where the spec leaves a point open, this is the model's reading or choice: log entries 53, 54, 55, 56, 88, 121. -/
def Obligations.ContextMoves : Prop :=
  ∀ (s : State) (args : Sparse Word) (sid : StrandId),
    let q := s.strand sid
    let kept (u : State) : Prop := ∀ g c, s.groupOf sid.core = some g → s.contextOf sid.core = some c →
      let place := c.saveBase.toNat + 0x10000 * (g.base + g.cores.idxOf sid.core * 4 + sid.num)
      let d := s.drain sid
      let v := d.writeSave c place
      ∃ l x, u.saved = l ++ [x] ∧ l.length = s.saved.length ∧ x.tid = StrandId.tid sid ∧ x.asid = g.asid ∧ x.place = place ∧
        x.kept = v.mem.region place 0x10000 ∧ x.strand = { v.strand sid with evictReq := false, tile := x.strand.tile } ∧
        (u.strand sid).st = .evicted ∧ (∀ w ∈ u.waiters, w.who ≠ sid) ∧ u.mem = v.mem ∧
        (s.waiters = [] → KeyFits c.cred → ∀ a, (a < place ∨ place + 0x10000 ≤ a) → d.mem.sight c.cred a ≠ .stale →
          v.mem.read v.free c.cred a = d.mem.read d.free c.cred a)
    let owned : Prop := s.groupOf sid.core ≠ none ∧ s.contextOf sid.core ≠ none
    (Asked s 3 args → ofTid (cmdArg args 0) = sid →
      ((4 ≤ sid.num ∨ ∀ c, s.contextOf sid.core = some c → c.st ≠ .active) → ∃ t, exec .evict s = .next t ∧ Answered s t 2 0 0) ∧
      (∀ c, sid.num < 4 → s.contextOf sid.core = some c → c.st = .active →
        (s.canSave sid = true → ∃ t u, exec .evict s = .next t ∧ Answered u t 0 0 0 ∧ kept u) ∧
        (s.canSave sid = false → (q.paused = true ∨ q.st = .running ∨ q.st = .trapped) →
          ∃ t, exec .evict s = .next t ∧ Answered (s.setStrand sid { q with evictReq := true }) t 0 0 0) ∧
        (s.canSave sid = false → q.paused = false → q.st ≠ .running → q.st ≠ .trapped → ∃ t, exec .evict s = .next t ∧ Answered s t 0 0 0))) ∧
    (q.evictReq = true → q.paused = false →
      (s.canSave sid = true → owned → ∃ u, exec (.evictSave sid) s = .next u ∧ kept u) ∧
      (s.canSave sid = false → (q.st = .parked ∨ q.st = .idle ∨ q.st = .halted) →
        exec (.evictSave sid) s = .next (s.setStrand sid { q with evictReq := false }))) ∧
    (Asked s 4 args → cmdArg args 0 = 0 →
      (s.saved.find? (fun x => x.tid == cmdArg args 1) = none → ∃ t, exec .restore s = .next t ∧ Answered s t 2 0 0) ∧
      (∀ x c, s.saved.find? (fun x => x.tid == cmdArg args 1) = some x → s.contexts.get? x.asid = some c → (c.st = .active ∨ c.st = .ready) →
        (s.restorePlace (cmdArg args 1) = none → ∃ t, exec .restore s = .next t ∧ Answered s t 5 0 0) ∧
        (s.restorePlace (cmdArg args 1) = some sid → s.mem.region x.place 0x10000 = x.kept → x.waits = [] → x.strand.tile = none →
          ∃ t u, exec .restore s = .next t ∧ Answered u t 0 0 0 ∧
            u = { s with strands := u.strands, saved := u.saved, cores := u.cores, clusters := u.clusters } ∧
            (∀ k, u.core k = { s.core k with tlb := (u.core k).tlb }) ∧ (∀ e ∈ (u.core sid.core).tlb, e.asid ≠ x.asid) ∧
            u.strand sid = { x.strand with paused := (s.core sid.core).serving.isSome, lastFetch := s.clk.cycles }))) ∧
    (∀ im, Asked s 4 args → cmdArg args 0 = 1 → s.images.find? (fun im => im.partition == cmdArg args 1) = some im →
      let cores := s.clusterCoresOf im.clusters
      (∀ k ∈ cores, (s.core k).group = none ∧ (s.core k).serving = none) → im.waits = [] → Sparse.sortedFrom 0 im.strands = true →
      Sparse.sortedFrom 0 im.bytes = true →
      ∃ t u, exec .restore s = .next t ∧ Answered u t 0 0 0 ∧ (∀ x ∈ u.images, x ∈ s.images ∧ x ≠ im) ∧
        (∀ k r, im.strands.get? k = some r → u.strands.get? k = some { r with lastFetch := s.clk.cycles }) ∧
        (∀ loc, inSpads cores loc = true → u.mem.raw loc = Sparse.at 0 im.bytes loc)) ∧
    (Asked s 5 args →
      (s.hub.swapping ≠ none → exec .swap s = .next s) ∧
      (s.hub.swapping = none →
        (s.swapWrong (cmdArg args 0) = true → ∃ t, exec .swap s = .next t ∧ Answered s t 2 0 0) ∧
        (s.swapWrong (cmdArg args 0) = false → s.shadowFull (cmdArg args 0) = true → ∃ t, exec .swap s = .next t ∧ Answered s t 4 0 0) ∧
        (s.swapWrong (cmdArg args 0) = false → s.shadowFull (cmdArg args 0) = false →
          exec .swap s = .next { s with hub := { s.hub with swapping := some (cmdArg args 0) } }))) ∧
    (∀ p, s.hub.swapping = some p →
      let cores := s.clusterCoresOf (s.partition p)
      (∀ k ∈ cores, (s.core k).serving = none ∧ (s.core k).chainQ = [] ∧ (s.core k).urgentQ = [] ∧
        ∀ n < 5, (s.strand { core := k, num := n }).got = []) →
      (∀ k ∈ s.listedCores, s.sharesContext (cores.filter (fun k => s.listedCores.contains k)) k = true →
        ∀ n < 5, (s.strand { core := k, num := n }).got = []) →
      (∀ e ∈ s.copies, e.2.intoCores (cores.filter (fun k => s.listedCores.contains k)) = false) →
      ∃ t u im, exec (.swapSave p) s = .next t ∧ Answered u t 0 0 0 ∧ u.hub.swapping = none ∧ u.images = s.images ++ [im] ∧ im.partition = p ∧
        (∀ loc, inSpads cores loc = true → u.mem.raw loc = 0) ∧
        (∀ k ∈ cores, k ∈ s.listedCores → ∀ n < 4, (u.strand { core := k, num := n }).st = .evicted))

/-- QENABLE, QRESUME, QDISABLE and TTLOAD change queues and the table, and slots open and end at their times (R299, R300, R302, R305, R306, R307, R313). Where the spec leaves a point open, this is the model's reading or choice: log entries 51, 63. -/
def Obligations.QueueCommands : Prop :=
  ∀ (s : State) (args : Sparse Word), s.waiters = [] →
    let n := cmdArg args 0
    let state (u : State) (q : Queue) (v : Byte) : Prop := u.mem.read u.free Cred.shared (q.block + 16) = v
    (Asked s 8 args →
      let a := cmdArg args 1
      let asid := cmdArg args 2
      let c := ((s.contexts.get? asid).map Context.cred).getD Cred.shared
      let d := s.mem.readNat s.free c a 64
      ((s.queues.get? n).isSome = true → ∃ t, exec .qenable s = .next t ∧ Answered s t 2 0 0) ∧
      (s.queues.get? n = none → blockBad a d = true → ∃ t, exec .qenable s = .next t ∧ Answered s t 3 0 0) ∧
      (s.queues.get? n = none → blockBad a d = false → s.queueContextOk asid (cmdArg args 3) = false →
        ∃ t, exec .qenable s = .next t ∧ Answered s t 6 0 0) ∧
      (s.queues.get? n = none → blockBad a d = false → s.queueContextOk asid (cmdArg args 3) = true →
        let q : Queue := { st := .enabled, block := a, asid := asid, group := cmdArg args 3, liveva := BitVec.ofNat 64 (cmdArg args 4),
                           ring := d / 2 ^ 76 % 2 ^ 40 * 4096, size := 2 ^ (d / 2 ^ 64 % 16 + 4) }
        ∃ t u, exec .qenable s = .next t ∧ Answered u t 0 0 0 ∧ u = { s with queues := s.queues.set n q, mem := u.mem, caches := u.caches, cores := u.cores, clusters := u.clusters } ∧ Reached s u ∧
          state u q 1)) ∧
    (Asked s 9 args →
      ((∀ q, s.queues.get? n = some q → q.st ≠ .halted) → ∃ t, exec .qresume s = .next t ∧ Answered s t 2 0 0) ∧
      (∀ q, s.queues.get? n = some q → q.st = .halted → ∃ t u, exec .qresume s = .next t ∧ Answered u t 0 0 0 ∧
        u = { s with queues := s.queues.set n { q with st := .enabled }, mem := u.mem, caches := u.caches, cores := u.cores, clusters := u.clusters } ∧
        Reached s u ∧ state u q 1)) ∧
    (Asked s 10 args →
      ((∀ q, s.queues.get? n = some q → s.live q ≠ 0) → ∃ t, exec .qdisable s = .next t ∧ Answered s t 2 0 0) ∧
      (∀ q, s.queues.get? n = some q → s.live q = 0 → ∃ t u, exec .qdisable s = .next t ∧ Answered u t 0 0 0 ∧ u.queues.get? n = none ∧
        (∀ m, m ≠ n → u.queues.get? m = s.queues.get? m) ∧ state u q 0)) ∧
    (Asked s 11 args →
      let len := cmdArg args 1
      let cycle := cmdArg args 2
      let words := (List.range len).map (fun i => s.mem.readNat s.free Cred.shared (n + 16 * i) 16)
      let bad : Prop := len = 0 ∨ 1024 < len ∨ cycle < 1000 ∨ 1000000000 < cycle ∨ readable n (16 * len) = false ∨
        (∃ w ∈ words, ttEntryBad cycle w = true) ∨ rising (words.map (fun w => w % 2 ^ 32)) = false
      (bad → ∃ t, exec .ttload s = .next t ∧ Answered s t 3 0 0) ∧
      ((∀ x, s.ttNext = some x → s.clk.time < x.start) → s.switchTable = some s) ∧
      (¬ bad → s.switchTable = none → exec .ttload s = .next s) ∧
      (∀ u, ¬ bad → s.switchTable = some u → ∃ t start, exec .ttload s = .next t ∧
        Answered { u with ttNext := some { entries := words.map ttEntryFrom, cycle := cycle, start := start } } t 0 0 0 ∧
        cmdArg args 3 ≤ start ∧ s.clk.time < start ∧ (start - cmdArg args 3) % cycle = 0 ∧
        ∀ k, s.clk.time < cmdArg args 3 + k * cycle → start ≤ cmdArg args 3 + k * cycle)) ∧
    (∀ tab, s.ttNext = some tab → tab.start ≤ s.clk.time →
      (s.endSlot = none → exec .ttTableSwitch s = .next s) ∧ (s.endSlot ≠ none → ∃ t, exec .ttTableSwitch s = .next t ∧ t.ttable = some tab ∧ t.ttNext = none ∧ t.ttSlot = none)) ∧
    (∀ (slot : TtSlot) (tab : TtTable) (e : TtEntry) (q : Queue) (h : Head) (g : Group), s.ttSlot = some slot → slot.stop ≤ s.clk.time →
      slot.began = true → s.ttable = some tab → tab.entries[slot.index]? = some e → e.kind = 0 → s.ready e.queue = some (q, h, g) →
      let u := s.servePacket e.queue q h g
      ((∃ x, u.ttSlot = some x ∧ x.began = true) → exec .ttSlotEnd s = .next s) ∧
      ((∀ x, u.ttSlot = some x → x.began = false) → ∃ t, exec .ttSlotEnd s = .next t ∧ t.ttSlot = none ∧
        ∀ r, u.queues.get? e.queue = some r → r.st = .enabled →
          t.mem.readNat t.free Cred.shared (r.block + 24) 4 = min 0xFFFFFFFF (u.qField r 24 4 + u.pendingPackets r))) ∧
    (∀ slot, s.ttSlot = some slot → slot.stop ≤ s.clk.time → slot.began = false → ∃ t, exec .ttSlotEnd s = .next t ∧ t.ttSlot = none ∧ t.ttable = s.ttable ∧
      ∀ (tab : TtTable) (e : TtEntry) (q : Queue), s.ttable = some tab → tab.entries[slot.index]? = some e → e.kind = 0 → s.queues.get? e.queue = some q → q.st = .enabled →
        let left := s.pendingPackets q
        t.mem.readNat t.free Cred.shared (q.block + 24) 4 = min 0xFFFFFFFF (s.qField q 24 4 + left) ∧
        (e.skip = true → left ≠ 0 → t.mem.readNat t.free Cred.shared (q.block + 18) 1 = 1 ∧ t.hub.msi = s.hub.msi ++ [0])) ∧
    (∀ (tab : TtTable) (i : Nat) (e : TtEntry), s.ttSlot = none → (∀ x, s.ttNext = some x → s.clk.time < x.start) → s.ttable = some tab → tab.entries[i]? = some e → tab.start ≤ s.clk.time →
      let phase := (s.clk.time - tab.start) % tab.cycle
      let stop := (tab.entries[i + 1]?.map (fun x => x.offset)).getD tab.cycle
      e.offset ≤ phase → phase < stop →
      let u : State := { s with ttSlot := some { index := i, stop := s.clk.time - phase + stop, left := if e.kind = 0 then e.maxpkt else 0 } }
      (e.kind ≠ 1 → exec (.ttSlotOpen i) s = .next u) ∧ (e.kind = 1 → exec (.ttSlotOpen i) s = .next (u.postIrq e.target 0xE1)))

/-- A packet that fails its checks halts its queue; one that passes is dispatched: launches, unloads, waits, signals, nops (R227, R235, R300, R304, R308, R313). Where the spec leaves a point open, this is the model's reading or choice: log entries 22, 24, 60, 61, 83, 123. -/
def Obligations.PacketDispatch : Prop :=
  ∀ (s : State) (n : Nat) (q : Queue) (h : Head) (g : Group), s.waiters = [] →
    let gone (u t : State) : Prop := t = { u with mem := t.mem, caches := t.caches, cores := t.cores, clusters := t.clusters,
                                                   ttSlot := u.ttSlot.map (fun x => { x with left := x.left - 1, began := false }) } ∧ Reached u t ∧
      t.mem.readNat t.free Cred.shared (q.block + 4) 4 = (h.ridx + h.units) % 2 ^ 32 ∧
      t.mem.readNat t.free Cred.shared (q.block + 28) 4 = (u.qField q 28 4 + 1) % 2 ^ 32
    let lives (u t : State) (k : Nat) : Prop := t = { u with mem := t.mem, caches := t.caches, cores := t.cores, clusters := t.clusters } ∧ Reached u t ∧
      t.mem.readNat t.free Cred.shared (q.block + 32) 8 = (u.live q + k) % 2 ^ 64
    let serves (k : Nat) : Prop := s.ready n = some (q, h, g) ∧ h.type = k ∧ s.frontEndHeld q = false ∧ (h.fence = true → s.live q = 0)
    let waits (u : State) : State := { u with ttSlot := u.ttSlot.map (fun x => { x with began := false }) }
    (∀ u, s.served n = some q → s.slotOpen = true → s.frontEndHeld q = false → s.headOf q = some h → (s.frontEndTouch q).packetWalk q h = some u →
      u = { s with caches := u.caches, cores := u.cores, clusters := u.clusters } ∧ Reached s u ∧
      (s.fate n q h = none → ∃ t, exec (.frontEndRead n) s = .next t ∧ t = { u with ttSlot := s.ttSlot.map (fun x => { x with began := true }) }) ∧
      (∀ c, s.fate n q h = some c → s.queues.get? n = some q →
        ∃ t, exec (.frontEndRead n) s = .next t ∧ t.queues = s.queues.set n { q with st := .halted } ∧ t.hub.msi = s.hub.msi ++ [0] ∧
          t.mem.readBytes t.free Cred.shared (q.block + 16) 2 = [2, c])) ∧
    (∀ e ∈ [(Instr.packetRoot n, 1), (.packetSpread n, 2), (.packetUnload n, 3), (.packetWaitval n, 4), (.packetSignal n, 5), (.packetNop n, 6)],
      s.ready n = some (q, h, g) →
      (h.type ≠ e.2 → exec e.1 s = .next s) ∧ (s.frontEndHeld q = true → exec e.1 s = .next s) ∧
      (h.type = e.2 → s.frontEndHeld q = false → h.fence = true → s.live q ≠ 0 → exec e.1 s = .next (waits s))) ∧
    (serves 6 → ∃ t, exec (.packetNop n) s = .next t ∧ gone s t) ∧
    (serves 3 → (s.live q = 0 → ∃ t, exec (.packetUnload n) s = .next t ∧ gone (s.dropQueueRef h.kernel n) t) ∧
      (s.live q ≠ 0 → exec (.packetUnload n) s = .next (waits s))) ∧
    (∀ r p, serves 4 → s.packetWalk q h = some r → r.packetPlace q g h.addr .read = .ok p →
      let w := leNat (r.rawRead p 8)
      let a := w &&& h.mask
      let b := h.value &&& h.mask
      let met : Prop := (h.opt % 4 = 0 ∧ a = b) ∨ (h.opt % 4 = 1 ∧ a ≠ b) ∨ (h.opt % 4 = 2 ∧ b ≤ a) ∨ (h.opt % 4 = 3 ∧ a < b)
      let u := r.waitvalRead p
      u = { s with free := s.free + 1, caches := u.caches, cores := u.cores, clusters := u.clusters } ∧ Reached s u ∧
      (r.placeHeld p false = true → exec (.packetWaitval n) s = .next r) ∧
      (r.placeHeld p false = false → (met → ∃ t, exec (.packetWaitval n) s = .next t ∧ gone u t) ∧
        (¬ met → exec (.packetWaitval n) s = .next (waits u)))) ∧
    (∀ r, serves 5 → s.packetWalk q h = some r →
      let told (u : State) : State := if h.opt.testBit 1 then { u with hub := { u.hub with msi := u.hub.msi ++ [0] } } else u
      (h.opt.testBit 0 = false → ∃ t, exec (.packetSignal n) s = .next t ∧ gone (told r) t) ∧
      (∀ p, h.opt.testBit 0 = true → r.packetPlace q g h.addr .write = .ok p → r.placeHeld p true = false → isHub p.loc = false → KeyFits p.cred →
        (∀ k < 8, ∀ v, r.fieldCell (p.loc + k, v) = some (p.loc + k, v)) →
        ∃ t u, exec (.packetSignal n) s = .next t ∧
        gone (told u) t ∧ u = { s with mem := u.mem, caches := u.caches, cores := u.cores, clusters := u.clusters } ∧ Reached s u ∧ u.mem.readNat u.free p.cred p.loc 8 = h.value % 2 ^ 64)) ∧
    ((serves 1 ∨ serves 2) → s.groupClear g = false →
      exec (if h.type = 1 then .packetRoot n else .packetSpread n) s = .next (waits s)) ∧
    (serves 2 → s.groupClear g = true → s.groups.get? q.group = some g →
      ∃ t u v w x, exec (.packetSpread n) s = .next t ∧ u = s.activateGroup q.group g ∧ v = u.takeRef n h ∧ lives v w g.cores.length ∧ gone x t ∧
        x = { w with groups := x.groups } ∧ ∃ e, x.groups.get? q.group = some e ∧ e.st = (if g.st = .attached then .active else g.st) ∧
          e.gen = g.gen + 1 ∧ e.spread = true ∧
          e.floods = g.floods ++ [{ gen := g.gen + 1, record := { TaskRecord.ofNat h.record with join := q.liveva, role := s.launchRole h g.cores.length }, pending := g.cores }]) ∧
    (serves 1 → s.groupClear g = true → s.groups.get? q.group = some g →
      let u := s.activateGroup q.group g
      let core := if h.any then (g.cores.find? (fun c => (u.idleStrand c).isSome)).getD (g.cores.headD 0) else h.core
      let r : TaskRecord := { TaskRecord.ofNat h.record with join := q.liveva, role := s.launchRole h 1 }
      (∀ sid, u.idleStrand core = some sid → ∃ t w x, exec (.packetRoot n) s = .next t ∧ lives (u.takeRef n h) w 1 ∧ gone x t ∧
        x = { (w.wakeCore core).modCore core (fun k => { k with searched := removeNat k.searched sid.num }) with strands := x.strands } ∧
        Started (u.strand sid) (x.strand sid) r 0 ∧ ∀ i, StrandId.tid i ≠ StrandId.tid sid → x.strand i = u.strand i) ∧
      (u.idleStrand core = none → (u.core core).deque.length < 256 → ∃ t w, exec (.packetRoot n) s = .next t ∧ lives (u.takeRef n h) w 1 ∧
        gone ((w.wakeCore core).modCore core (fun k => { k with deque := k.deque ++ [r], searched := [] })) t) ∧
      (u.idleStrand core = none → 256 ≤ (u.core core).deque.length → exec (.packetRoot n) s = .next (waits s))) ∧
    (g.st = .attached →
      let u := s.activateGroup n g
      u = { s with groups := s.groups.set n { g with st := .active }, strands := u.strands, fresh := u.fresh } ∧
      (∀ c ∈ g.cores, ∀ i < 4, (u.strand { core := c, num := i }).st = .idle) ∧
      (∀ c i, c ∉ g.cores → i < 8 → u.strand { core := c, num := i } = s.strand { core := c, num := i }))

/-- Kernels load, are verified, translated and installed, and go when their last reference does (R309, R310, R311, R312, R313, R314, R317, R318). Where the spec leaves a point open, this is the model's reading or choice: log entries 15, 22, 58, 59, 110. -/
def Obligations.Kernels : Prop :=
  ∀ (s : State) (args : Sparse Word),
    let n := cmdArg args 0
    (Asked s 12 args →
      (∀ k, s.kernels.get? n = some k →
        ((k.st = .loading ∨ k.st = .verified ∨ k.st = .translated) → exec .kload s = .next s) ∧
        (k.st ≠ .loading → k.st ≠ .verified → k.st ≠ .translated → ∃ t, exec .kload s = .next t ∧ Answered s t 2 0 0)) ∧
      (∀ c, s.kernels.get? n = none → s.contexts.get? (cmdArg args 1) = some c →
        (c.loads = false → ∃ t, exec .kload s = .next t ∧ Answered s t 6 0 0) ∧
        (c.loads = true → readable (cmdArg args 2) (cmdArg args 3) = false → ∃ t, exec .kload s = .next t ∧ Answered s t 3 0 0) ∧
        (c.loads = true → readable (cmdArg args 2) (cmdArg args 3) = true → ∃ k, exec .kload s = .next { s with kernels := s.kernels.set n k } ∧
          k.st = .loading ∧ k.asid = cmdArg args 1 ∧ k.image = s.mem.readBytes s.free c.cred (cmdArg args 2) (cmdArg args 3) ∧
          k.codePa = cmdArg args 4 ∧ k.codeLen = cmdArg args 6 ∧ k.dataPa = cmdArg args 7 ∧ k.dataLen = cmdArg args 9 ∧ k.refs = 0))) ∧
    (∀ m k, s.kernels.get? m = some k →
      (k.st = .loading →
        (s.kernelRefusal k = 0 → exec (.kernelVerify m) s = .next { s with kernels := s.kernels.set m { k with st := .verified } }) ∧
        (s.kernelRefusal k ≠ 0 → ∃ t, exec (.kernelVerify m) s = .next t ∧ Answered { s with kernels := s.kernels.erase m } t (s.kernelRefusal k) 0 0)) ∧
      (k.st = .verified → k.portable = true → ∀ code entries base,
        let takes (x : Translation) : Prop := ∃ t, exec (.translationObtained m code entries base) s = .next t ∧
          t = { s with kernels := s.kernels.set m { k with st := .translated, code := x.code, entries := x.entries, starts := x.starts },
                       transCache := t.transCache } ∧ x ∈ t.transCache ∧ ∀ y ∈ t.transCache, y = x ∨ y ∈ s.transCache
        (∀ x, s.cached k = some x → x ∈ s.transCache ∧ x.digest = Config.sha512 k.image ∧ x.svn = k.svn ∧ x.sig = Config.identitySign x.signed ∧ takes x) ∧
        (s.cached k = none → code = none → k.gethen.any modifierWord = true → ∃ t, exec (.translationObtained m code entries base) s = .next t ∧
          Answered { s with kernels := s.kernels.erase m } t 9 0 0) ∧
        (∀ w, s.cached k = none → code = some w → k.translates w entries base = true →
          (((w.drop ((base - 4096) / 4)).take k.gethen.length).map (fun x => x.toNat) = k.gethen) ∧
          (k.translation w entries base).digest = Config.sha512 k.image ∧ (k.translation w entries base).svn = k.svn ∧
          (k.translation w entries base).code = w ∧ (k.translation w entries base).entries = entries ∧ takes (k.translation w entries base)) ∧
        (s.cached k = none → (∀ w, code = some w → k.translates w entries base = false) → (code = none → k.gethen.any modifierWord = false) →
          exec (.translationObtained m code entries base) s = .next s)) ∧
      (∀ c, (k.st = .verified ∧ k.portable = false) ∨ k.st = .translated → s.contexts.get? k.asid = some c → KeyFits c.cred → s.waiters = [] →
        let cells := k.image0 ++ k.zeros
        (∀ e ∈ cells, ∀ f ∈ cells, e.1 = f.1 → e = f) →
        ∃ t u, exec (.kernelInstall m) s = .next t ∧ Answered u t 0 0 0 ∧
          u = { s with kernels := s.kernels.set m { k with st := .resident, hostRef := true }, mem := u.mem, caches := u.caches, boxes := u.boxes,
                       cores := u.cores, clusters := u.clusters } ∧ Reached s u ∧
          (∀ e ∈ cells, u.mem.read u.free c.cred e.1 = e.2) ∧
          ∀ f ∈ k.frames, u.mem.marks.get? f = some { slot := m, portable := k.portable })) ∧
    (Asked s 13 args →
      ((∀ k, s.kernels.get? n = some k → k.hostRef = false) → ∃ t, exec .krelease s = .next t ∧ Answered s t 2 0 0) ∧
      (∀ k, s.kernels.get? n = some k → k.hostRef = true → ∃ t u, exec .krelease s = .next t ∧ Answered u t 0 0 0 ∧
        let j : Kernel := { k with hostRef := false }
        ((k.st ≠ .resident ∨ k.queues ≠ []) → u = { s with kernels := s.kernels.set n j }) ∧
        (k.st = .resident → k.queues = [] → ({ s with kernels := s.kernels.set n j } : State).codeInUse j = true → u.kernels.get? n = some { j with st := .withdrawn }) ∧
        (k.st = .resident → k.queues = [] → ({ s with kernels := s.kernels.set n j } : State).codeInUse j = false → u.kernels.get? n = none ∧
          ∀ e ∈ u.mem.marks, e.2.slot ≠ n))) ∧
    (Asked s 14 args →
      (s.kernels.get? n = none → ∃ t, exec .kquery s = .next t ∧ Answered s t 0 0 0) ∧
      (∀ k, s.kernels.get? n = some k → ∃ t, exec .kquery s = .next t ∧
        Answered s t 0 (match k.st with | .loading => 1 | .verified => 2 | .translated => 3 | .resident => 4 | .unloading => 5 | .withdrawn => 6)
          ((if k.hostRef then 1 else 0) + k.queues.length))) ∧
    (Asked s 15 args →
      (∀ k, s.kernels.get? n = some k → k.st = .withdrawn → ∃ t u, exec .kpurge s = .next t ∧ Answered u t 0 0 0 ∧ u.kernels.get? n = none ∧
        (∀ m, m ≠ n → u.kernels.get? m = s.kernels.get? m) ∧ ∀ e ∈ u.mem.marks, e.2.slot ≠ n) ∧
      ((∀ k, s.kernels.get? n = some k → k.st ≠ .withdrawn) → ∃ t, exec .kpurge s = .next t ∧ Answered s t 2 0 0))

/-- Fuses rise, reports are written, debug modes open what they may, and the black box keeps or counts its events (R315, R345, R346, R347, R348, R349, R350, R352). Where the spec leaves a point open, this is the model's reading or choice: log entries 15, 24, 51, 73, 74, 75. -/
def Obligations.TrustEvents : Prop :=
  ∀ (s : State) (args : Sparse Word),
    let n := cmdArg args 0
    let v := cmdArg args 1
    let logged (u : State) (k : BitVec 16) : Prop := ∃ e, u.hub.bbQueue = s.hub.bbQueue ++ [e] ∧ e.event = k
    (Asked s 16 args →
      let now := if n = 0 then s.hub.fwctrNext.toNat else s.hub.kctr.toNat
      (1 < n ∨ v ≤ now ∨ 63 < v → ∃ t, exec .fuseraise s = .next t ∧ Answered s t 3 0 0) ∧
      (n ≤ 1 → now < v → v ≤ 63 → ∃ t u, exec .fuseraise s = .next t ∧ Answered u t 0 0 0 ∧ logged u 8 ∧
        u = { s with transCache := u.transCache, hub := { s.hub with bbQueue := u.hub.bbQueue, kctr := u.hub.kctr, fwctrNext := u.hub.fwctrNext } } ∧
        u.hub.fwctrNext.toNat = (if n = 0 then v else s.hub.fwctrNext.toNat) ∧ u.hub.kctr.toNat = (if n = 1 then v else s.hub.kctr.toNat) ∧
        ∀ x, x ∈ u.transCache ↔ x ∈ s.transCache ∧ (n = 1 → v ≤ x.svn))) ∧
    (Asked s 17 args → s.waiters = [] →
      let whole := n.testBit 16
      let c := if whole then none else s.contexts.get? n
      let places : Prop := v % 8 = 0 ∧ cmdArg args 2 % 8 = 0 ∧ readable v 64 = true ∧ readable (cmdArg args 2) 1024 = true
      ((∃ x, c = some x ∧ x.st = .halted) → ∃ t, exec .attest s = .next t ∧ Answered s t 2 0 0) ∧
      ((∀ x, c = some x → x.st ≠ .halted) → ¬ places → ∃ t, exec .attest s = .next t ∧ Answered s t 4 0 0) ∧
      ((∀ x, c = some x → x.st ≠ .halted) → places → ∃ t u body, exec .attest s = .next t ∧ Answered u t 0 0 0 ∧
        u = { s with free := s.free + 1, mem := u.mem, caches := u.caches, cores := u.cores, clusters := u.clusters } ∧ Reached s u ∧ body.take 8 = leBytes 8 0x0000000141524C59 ∧
        (body.drop 8).take 64 = s.mem.readBytes s.free Cred.shared v 64 ∧
        u.mem.readBytes u.free Cred.shared (cmdArg args 2) 1024 = fit 512 body ++ fit 512 (Config.identitySign body))) ∧
    (Asked s 18 args →
      let token := s.mem.readBytes s.free Cred.shared (cmdArg args 2) 512
      let nonce := ((List.range 8).map (fun i => leBytes 8 (Config.bootNonce s.hub.boots i).toNat)).flatten
      let good : Prop := n ≤ 2 ∨ (s.hub.dbgauth = true ∧ readable (cmdArg args 2) 512 = true ∧
        Config.debugTokenOk (Config.sha512 (fit 64 Config.identityDigest ++ nonce)) token = true)
      (3 < n → ∃ t, exec .debugset s = .next t ∧ Answered s t 3 0 0) ∧
      (n ≤ 3 → s.hub.mode = 3 ∨ (n = 2 ∧ s.liveContext v = false) → ∃ t, exec .debugset s = .next t ∧ Answered s t 2 0 0) ∧
      (n ≤ 3 → s.hub.mode ≠ 3 → (n = 2 → s.liveContext v = true) →
        (n = 3 → s.hub.dbgauth = false → ∃ t, exec .debugset s = .next t ∧ Answered s t 10 0 0) ∧
        (n = 3 → s.hub.dbgauth = true → ¬ good → ∃ t, exec .debugset s = .next t ∧ Answered s t 7 0 0) ∧
        (n ≤ 2 → ∃ t u, exec .debugset s = .next t ∧ Answered u t 0 0 0 ∧ logged u 7 ∧
          u = { s with hub := { s.hub with mode := BitVec.ofNat 2 n, debugCtx := v, bbQueue := u.hub.bbQueue } }) ∧
        (n = 3 → good → ∃ t u, exec .debugset s = .next t ∧ Answered u t 0 0 0 ∧ u.hub.mode = 3 ∧ u.contexts = [] ∧
          ∀ e ∈ u.keySlots, e.2.inUse = false))) ∧
    (∀ a, s.hub.mode = 0 ∨ s.linkOpen = false → exec (.debugAccess a) s = .next s) ∧
    (∀ (sid : StrandId) (r : DebugReg) (w : Nat), s.linkOpen = true →
      let c := (s.cluster (sid.core % 1024 / 4)).curc
      let q := s.strand sid
      let u : State := { s with cur := sid }
      let shown (bs : List Byte) : State := { s with hub := { s.hub with hostOut := s.hub.hostOut ++ [bs] } }
      (s.hub.mode = 1 → exec (.debugAccess (.readStrandState sid)) s = .next (shown [if q.paused then 4 else match q.st with
        | .halted => 0 | .idle => 1 | .running => 2 | .parked => 3 | .trapped => 5 | .evicted => 6])) ∧
      (s.hub.mode = 1 → ∀ a ∈ [DebugAccess.readReg sid r, .writeReg sid r w, .stopStrand sid, .stepStrand sid, .resumeStrand sid], exec (.debugAccess a) s = .next s) ∧
      (c = 0 → s.hub.mode = 3 ∨ (s.hub.mode = 2 ∧ s.liveContext s.hub.debugCtx = true ∧ s.asidOf sid.core = some s.hub.debugCtx ∧ sid.num ≠ 5) →
        (s.hub.mode = 3 ∨ debugOwn r = true → exec (.debugAccess (.readReg sid r)) s = .next (shown (u.debugRead r))) ∧
        (s.hub.mode = 2 → debugOwn r = false →
          exec (.debugAccess (.readReg sid r)) s = .next s ∧ exec (.debugAccess (.writeReg sid r w)) s = .next s) ∧
        (∀ n, u.debugRead (.x n) = leBytes 8 (u.x (n.zeroExtend 6)).toNat ∧ u.debugRead (.v n) = leBytes 128 (u.v n).toNat) ∧
        (∀ n, u.debugRead (.m n) = leBytes 16 (u.m n).toNat) ∧ u.debugRead .pc = leBytes 8 q.pc.toNat ∧
        (∀ n, n.toNat < 18 → u.debugRead (.csr n) = leBytes 8 (u.csr n.toNat).toNat) ∧
        (∀ n, n ≠ 0 → exec (.debugAccess (.writeReg sid (.x n) w)) s = .next (s.setStrand sid { q with x := Sparse.put 0 q.x n.toNat (BitVec.ofNat 64 w) })) ∧
        (∀ n, exec (.debugAccess (.writeReg sid (.v n) w)) s = .next (s.setStrand sid { q with v := Sparse.put 0 q.v n.toNat (BitVec.ofNat 1024 w) })) ∧
        exec (.debugAccess (.writeReg sid .pc w)) s = .next (s.setStrand sid
          { q with pc := BitVec.ofNat 64 (w / 4 * 4), sched := false, himm := [], hmod := none, got := [], ahead := 0 }) ∧
        exec (.debugAccess (.stopStrand sid)) s = .next (s.setStrand sid { q with stopped := true, stepping := false }) ∧
        exec (.debugAccess (.stepStrand sid)) s = .next (s.setStrand sid { q with stepping := q.stopped }) ∧
        exec (.debugAccess (.resumeStrand sid)) s = .next (s.setStrand sid { q with stopped := false, stepping := false })) ∧
      (c = 0 → s.hub.mode = 2 → s.liveContext s.hub.debugCtx = true → sid.num = 5 →
        ∀ a ∈ [DebugAccess.readReg sid r, .writeReg sid r w, .stopStrand sid, .stepStrand sid, .resumeStrand sid], exec (.debugAccess a) s = .next s) ∧
      (c = 0 → s.hub.mode = 2 → s.liveContext s.hub.debugCtx = true → exec (.debugAccess (.readEngine sid.core)) s = .next s) ∧
      (c = 0 → s.hub.mode = 3 →
        (∀ n p, q.slots.get? n.toNat = some p → u.debugRead (.slot n) = leBytes 8 p.lo ++ leBytes 8 p.hi ++ leBytes 8 p.count) ∧
        (u.debugRead (.count 0) = leBytes 8 q.cntIn ∧ u.debugRead (.count 1) = leBytes 8 q.cntOut ∧ u.debugRead (.count 2) = leBytes 8 q.cntSend ∧
          u.debugRead (.count 3) = leBytes 8 q.cntPub) ∧
        (u.debugRead (.ring 0) = leBytes 8 q.widx ∧ u.debugRead (.ring 1) = leBytes 8 q.ridx ∧ u.debugRead (.ring 2) = leBytes 8 q.seq.toNat) ∧
        (∀ k, q.wait = some k → u.debugRead .wait = k.words.flatMap (leBytes 8)) ∧
        exec (.debugAccess (.writeReg sid .pending w)) s = .next (s.setStrand sid
          { q with irqTimer := w.testBit 0, irqPost := w.testBit 1, irqHost := w.testBit 2 }) ∧
        exec (.debugAccess (.writeReg sid .woke w)) s = .next (s.setStrand sid { q with woke := w.testBit 0 }) ∧
        exec (.debugAccess (.readEngine sid.core)) s = .next (shown (s.engine sid.core).bytes) ∧
        exec (.debugAccess (.writeTurn sid.core w)) s = .next (s.modEngine sid.core (fun e => { e with last := w })) ∧
        ∀ i p t, exec (.debugAccess (.writeEntry sid.core i p t)) s = .next (s.modEngine sid.core (fun e => e.putEntry i p t)) ∧
          ∀ e : Engine, e.running = none → e.putEntry i p t = { e with queue := e.queue.modify i (fun x => { x with prio := p % 4, since := t }) })) ∧
    (∀ e, nextEvent s.hub.bbQueue = some e → let now := s.clk.cycles * 2 / 3
      (now ≤ e.arrived ∨ s.hub.bbWroteAt = some now → exec .blackBoxWrite s = .next s) ∧
      (e.arrived < now → s.hub.bbWroteAt ≠ some now → e ∈ s.hub.bbQueue ∧ ∃ t, exec .blackBoxWrite s = .next t ∧ t = { s with hub := t.hub } ∧
        t.hub.bbQueue = s.hub.bbQueue.erase e ∧
        (s.hub.bbFrozen = true → s.hub.bbFrozenAt ≠ e.arrived → t.hub.bbRing = s.hub.bbRing ∧ t.hub.bbWidx = s.hub.bbWidx ∧
          t.hub.bbLost.toNat = min (s.hub.bbLost.toNat + 1) 0xFFFFFFFF) ∧
        (s.hub.bbFrozen = false → e.event ≠ 10 → t.hub.bbRing.get? s.hub.bbWidx.toNat = some { time := s.time, ev := e } ∧ t.hub.bbWidx = s.hub.bbWidx + 1 ∧
          t.hub.bbWroteAt = some now ∧ (t.hub.bbFrozen = true ↔ e.event = 5 ∧ 0xF0 ≤ e.cause.toNat)))) ∧
    (s.linkOpen = true ∨ s.hub.phase = 15 →
      exec .bbctlUnfreeze s = .next { s with hub := { s.hub with bbFrozen := false, bbLost := 0, bbCause := 0 } }) ∧
    (s.linkOpen = false → s.hub.phase ≠ 15 → exec .bbctlUnfreeze s = .next s)

/-- MEMCFG, misses, write-backs, leases, soft errors and prefetches change what their rules name, and no value in memory (R20, R99, R158, R324, R327, R328, R330, R331, R332, R353, R362). Where the spec leaves a point open, this is the model's reading or choice: log entries 17, 24, 64, 65, 76. -/
def Obligations.MemoryEvents : Prop :=
  ∀ (s : State) (line : Nat),
    (∀ (stack code : Nat) (v : BitVec 6) (w : BitVec 2), let opened : Prop := 3 ≤ s.hub.phase.toNat ∧ s.hub.phase.toNat ≤ 5
      (¬ opened → ∀ i ∈ [Instr.ratioChange stack code, .memcfgLocal v, .memcfgShways w], exec i s = .next s) ∧
      (opened → stack < 12 →
        (5 ≤ code ∨ s.hub.busy.getLsbD stack = true → exec (.ratioChange stack code) s = .next { s with hub := { s.hub with ratioErr := true } }) ∧
        (code < 5 → s.hub.busy.getLsbD stack = false → ∃ t, exec (.ratioChange stack code) s = .next t ∧
          t = { s with hub := { s.hub with ratios := t.hub.ratios, busy := t.hub.busy, ratioAt := t.hub.ratioAt } } ∧
          t.hub.ratioAt.get? stack = some s.clk.cycles ∧
          ∀ k < 12, t.hub.busy.getLsbD k = (k == stack || s.hub.busy.getLsbD k) ∧
            t.hub.ratios.extractLsb' (3 * k) 3 = if k = stack then BitVec.ofNat 3 code else s.hub.ratios.extractLsb' (3 * k) 3)) ∧
      (opened → s.hub.built = true → exec (.memcfgLocal v) s = .next s ∧ exec (.memcfgShways w) s = .next s) ∧
      (opened → s.hub.built = false → exec (.memcfgLocal v) s = .next { s with hub := { s.hub with locals := v } } ∧
        ∃ t, exec (.memcfgShways w) s = .next t ∧ t = { s with hub := { s.hub with shways := w }, caches := t.caches } ∧
          ∀ e, e ∈ t.caches.silt ↔ e ∈ s.caches.silt ∧
            (s.caches.silt.filter (fun f => decide (f.1 < e.1) && siltSet s.hub.locals f.1 == siltSet s.hub.locals e.1)).length < siltWays w) ∧
      (∀ since, stack < 12 → s.hub.busy.getLsbD stack = true → s.hub.ratioAt.get? stack = some since →
        (s.clk.cycles < since + 4800 → exec (.ratioQuiesceEnd stack) s = .next s) ∧
        (since + 4800 ≤ s.clk.cycles → ∃ t, exec (.ratioQuiesceEnd stack) s = .next t ∧
          t = { s with hub := { s.hub with busy := t.hub.busy, ratioAt := s.hub.ratioAt.erase stack } } ∧
          ∀ k < 12, t.hub.busy.getLsbD k = (k != stack && s.hub.busy.getLsbD k)))) ∧
    (s.stackBusy line = true → exec (.siltMissFill line) s = .next s ∧ exec (.siltWriteback line) s = .next s) ∧
    (∀ m, (s.missTable line).find? (fun m => m.line == line) = some m → s.stackBusy line = false →
      ∃ t, exec (.siltMissFill line) s = .next t ∧ t = { s with cores := t.cores, caches := t.caches } ∧
        (∀ x, x ∈ t.caches.misses ↔ x ∈ s.caches.misses ∧ x ≠ m) ∧ t.caches.leases = s.caches.leases ∧
        (∃ l, t.caches.silt.get? line = some l ∧ l.prio = m.prio ∧ l.slot = m.slot) ∧
        ∀ c, t.core c = { s.core c with l1 := (t.core c).l1, pfUseless := (t.core c).pfUseless } ∧
          (∀ k, (m.pfs.filter (fun e => e.1 == c)).getLast? = some (c, k) → ({ line := line, slot := k, prefetched := true } : L1Line) ∈ (t.core c).l1) ∧
          ((∀ e ∈ m.pfs, e.1 ≠ c) → t.core c = s.core c)) ∧
    ((s.missTable line).find? (fun m => m.line == line) = none → exec (.siltMissFill line) s = .next s) ∧
    (∀ w, s.caches.wback.find? (fun w => w.line == line) = some w → s.stackBusy line = false → ∃ t, exec (.siltWriteback line) s = .next t ∧
      t = { s with caches := { s.caches with dirty := t.caches.dirty, wback := t.caches.wback } } ∧
      (∀ l, l ∈ t.caches.wback ↔ l ∈ s.caches.wback ∧ l.line ≠ line) ∧
      t.caches.dirty.get? line = (if w.again then (s.caches.dirty.get? line).map (fun d => { d with held := w.held }) else none) ∧
      ∀ l, l ≠ line → t.caches.dirty.get? l = s.caches.dirty.get? l) ∧
    (s.caches.wback.find? (fun w => w.line == line) = none → exec (.siltWriteback line) s = .next s) ∧
    (let logged (t : State) (k : BitVec 16) : Prop := ∃ e, t.hub.bbQueue = s.hub.bbQueue ++ [e] ∧ e.event = k
     let dropped : State := { s with caches := { s.caches with silt := s.caches.silt.erase line } }
     (∀ n l, ∃ t e, exec (.softError (.corrected n l)) s = .next t ∧ e.event = 10 ∧ e.source = BitVec.ofNat 16 n ∧
       e.addr = BitVec.ofNat 64 (64 * l.getD 0) ∧ e.tag = BitVec.ofNat 32 ((l.map s.mem.tagNumber).getD 0) ∧
       t = { s with hub := { s.hub with bbQueue := s.hub.bbQueue ++ [e] } }) ∧
     (∀ core, ∃ t, exec (.softError (.cleanLine core line)) s = .next t ∧ t = { s with cores := t.cores, clusters := t.clusters } ∧
       t.core core = { s.core core with l1 := (s.core core).l1.filter (fun e => e.line != line), l1i := (s.core core).l1i.filter (fun e => e.1 != line),
                                        pfUseless := (t.core core).pfUseless } ∧ (∀ c, c ≠ core → t.core c = s.core c) ∧
       ∀ k, t.cluster k = if k = core % 1024 / 4 then { s.cluster k with lines := (s.cluster k).lines.filter (fun e => e.1 != line) } else s.cluster k) ∧
     (∀ core va, let keep (e : TlbEntry) : Bool := !(decide (e.base ≤ va) && decide (va < e.base + e.size))
       ∃ t, exec (.softError (.cleanTlb core va)) s = .next t ∧ t = { s with cores := t.cores, clusters := t.clusters } ∧
       (∀ c, t.core c = if c = core then { s.core c with tlb := (s.core c).tlb.filter keep } else s.core c) ∧
       ∀ k, t.cluster k = if k = core % 1024 / 4 then { s.cluster k with tlb := (s.cluster k).tlb.filter keep } else s.cluster k) ∧
     (∀ i ∈ [Instr.softError (.siltOnEviction line), .softError (.siltOnHit line)],
       (s.caches.silt.get? line = none → exec i s = .next s) ∧
       (s.caches.silt.get? line ≠ none → s.caches.lineDirty line = false → exec i s = .next dropped) ∧
       (s.caches.silt.get? line ≠ none → s.caches.lineDirty line = true → s.wbackRoom line = false → exec i s = .next s) ∧
       (s.caches.silt.get? line ≠ none → s.caches.lineDirty line = true → s.wbackRoom line = true → ∃ t, exec i s = .next t ∧ logged t 4 ∧ line ∈ t.mem.poison ∧
         t.caches.silt = s.caches.silt.erase line ∧ t.caches.leases = s.caches.leases ∧ t.caches.misses = s.caches.misses ∧
         (s.stackBusy line = false → t.caches.dirty.get? line = none) ∧
         t = { s with caches := t.caches,
                      mem := { s.mem with poison := t.mem.poison }, hub := { s.hub with bbQueue := t.hub.bbQueue, msi := s.hub.msi ++ [1] } })) ∧
     (∃ t, exec (.softError .blackBoxOrFuse) s = .next t ∧ logged t 5 ∧
       t = { s with hub := { s.hub with bbQueue := t.hub.bbQueue, msi := s.hub.msi ++ [1] } }) ∧
     (let poisoned (i : Instr) (l : Nat) : Prop := ∃ t, exec i s = .next t ∧ t = { s with mem := { s.mem with poison := t.mem.poison } } ∧
        ∀ k, k ∈ t.mem.poison ↔ k ∈ s.mem.poison ∨ k = l
      (∀ core word, (Config.spadBytes / 8 ≤ word → exec (.softError (.scratchpad core word)) s = .next s) ∧
        (word < Config.spadBytes / 8 → ∃ t, exec (.softError (.scratchpad core word)) s = .next t ∧
          t = { s with mem := { s.mem with badWords := t.mem.badWords } } ∧
          ∀ k, k ∈ t.mem.badWords ↔ k ∈ s.mem.badWords ∨ k = spadLoc core 0 / 8 + word)) ∧
      (s.caches.silt.get? line = none → poisoned (.softError (.dramOnRead line)) line) ∧
      (s.caches.silt.get? line ≠ none → exec (.softError (.dramOnRead line)) s = .next s)) ∧
     (∀ (sid : StrandId), let q := s.strand sid
       exec (.softError (.registerFile sid false)) s = .next s ∧
       ∀ e ∈ [(SoftSite.sram sid, (0xF1 : Cause)), (.registerFile sid true, 0xF2)],
         (((q.st = .running ∨ q.st = .trapped) ∧ q.paused = false ∧ q.chained = false) →
           exec (.softError e.1) s = .next ((s.leaveEngine sid).raise sid (trapOf e.2))) ∧
         (¬ ((q.st = .running ∨ q.st = .trapped) ∧ q.paused = false ∧ q.chained = false) →
           exec (.softError e.1) s = .next (s.setStrand sid { q with struck := some (e.2, 0) })))) ∧
    (∀ k, ∃ t, exec (.leaseExpiry k line) s = .next t ∧ t = { s with caches := { s.caches with leases := t.caches.leases } } ∧
      ∀ l, l ∈ t.caches.leases ↔ l ∈ s.caches.leases ∧ l ≠ (k, line)) ∧
    (∀ r w, exec (.starvationToken r w) s = .next s) ∧
    (∀ (b i : IntReg) (e : BitVec 2) (l : BitVec 1) (q : BitVec 8),
      ∀ x ∈ [(Instr.pf b e l q, 1, (s.x b + s.me.disp q 64).toNat), (Instr.pfIndexed b e l i, 0, (s.x b + s.x i * 64).toNat)],
        Ready s { himm := x.2.1 } false → Whole s →
        let u := s.modCore s.cur.core (fun k => { k with pfIssued := min (k.pfIssued + 1) (2 ^ 48 - 1) })
        (∀ y, u.reach x.2.2 1 .read false = .error y → y.stall = true → exec x.1 s = .next s) ∧
        ((∀ y, u.reach x.2.2 1 .read false = .error y → y.stall = false) → ∃ t v, exec x.1 s = .next t ∧ (v = s ∨ ∃ u', CacheOnly s u' ∧ v = u'.drain s.cur) ∧
          t = { v with strands := t.strands, cores := t.cores, clusters := t.clusters, caches := t.caches } ∧
          (∀ r, t.x r = v.x r) ∧ t.me = spentAt v.me (v.me.pc + 4) ∧ (∀ j, StrandId.tid j ≠ StrandId.tid s.cur → t.strand j = v.strand j) ∧
          (∀ c, (t.core c).buffer = (v.core c).buffer) ∧
          (t.core s.cur.core).pfIssued = min ((s.core s.cur.core).pfIssued + 1) (2 ^ 48 - 1)))

/-- Ports change state as R335 says, flits are delivered, sent, replayed or dropped, and the host reads and writes what it may (R5, R275, R301, R333, R334, R335, R336, R337, R341, R362, R394). Where the spec leaves a point open, this is the model's reading or choice: log entries 4, 14, 24, 26, 62, 77, 79, 98. -/
def Obligations.LinkEvents : Prop :=
  ∀ (s : State) (p : Nat),
    let q := s.hub.port p
    let now := s.clk.time
    let put (r : Port) : State := s.modHub (fun h => (h.setPort p r).review now)
    let moved (i : Instr) (r : Port) : Prop := ∃ t, exec i s = .next t ∧
      t = { s with free := t.free, hub := { s.hub with ports := t.hub.ports, leftOff := t.hub.leftOff, cutSince := t.hub.cutSince, lost := t.hub.lost,
                                                       holding := t.hub.holding, forwarded := t.hub.forwarded } } ∧
      (∀ k, t.hub.port k = { (if k = p then r else s.hub.port k) with nextSeq := (t.hub.port k).nextSeq, sent := (t.hub.port k).sent }) ∧
      (s.hub.holding = [] → q.sent = [] → t.hub.forwarded = s.hub.forwarded ∧ t.hub.holding = [])
    let training : Prop := q.st = .train ∨ q.st = .retrain
    let down : Port := { q with st := .down, since := now }
    let retrained : Port := { q with st := .retrain, since := now, retrains := q.retrains + 1, fails := 0 }
    (∀ (h : Hub), h.review now = { h with leftOff := (h.review now).leftOff, cutSince := (h.review now).cutSince, lost := (h.review now).lost } ∧
      ((h.review now).leftOff = true ↔ h.leftOff = true ∨ ∃ k < 8, (h.port k).st ≠ .off) ∧
      (∀ k, k ∈ (h.review now).lost ↔ k ∈ h.lost ∧ ∀ j < 8, (Sparse.at 0 h.droute k).getLsbD j = true → ¬ ((h.port j).up = true ∧ (h.port j).renewed = true)) ∧
      ((∀ k < 64, h.unreachable k = false) → (h.review now).cutSince = none) ∧
      ((∃ k < 64, h.unreachable k = true) → (h.review now).cutSince = some (h.cutSince.getD now)) ∧
      ∀ k, h.unreachable k = true ↔ k ≠ h.sockid.toNat ∧ ∀ j < 8, (Sparse.at 0 h.droute k).getLsbD j = true → (h.port j).up = false) ∧
    (s.linkOpen = false ∨ 8 ≤ p → ∀ b, exec (.dpctlEnable p b) s = .next s ∧ exec (.dpctlReset p) s = .next s) ∧
    (8 ≤ p → ∀ (n : BitVec 6) (f : Flit) (l : Lanes),
      ∀ i ∈ [Instr.peerDetected p n, .portTrained p l, .trainingTimeout p, .laneFailure p, .portFenceTimeout p, .flitReceive p f], exec i s = .next s) ∧
    (p < 8 → s.linkOpen = true →
      (q.st = .off → s.hub.sockSet = true → exec (.dpctlEnable p true) s = .next (put { q with enable := true, st := .detect, since := now })) ∧
      (q.st ≠ .off ∨ s.hub.sockSet = false → exec (.dpctlEnable p true) s = .next (put { q with enable := true })) ∧
      (q.st = .fenced ∨ q.st = .down ∨ (q.st = .off ∧ s.hub.sockSet = false) → exec (.dpctlEnable p false) s = .next (put { q with enable := false })) ∧
      (q.st ≠ .fenced → q.st ≠ .down → q.st ≠ .off ∨ s.hub.sockSet = true → moved (.dpctlEnable p false) { down with enable := false }) ∧
      ((q.st = .down ∨ q.st = .fenced) → exec (.dpctlReset p) s =
        .next (put { q with st := .off, since := now, fails := 0, expect := 0, nextSeq := 0, sent := [], renewed := true })) ∧
      (q.st ≠ .down → q.st ≠ .fenced → exec (.dpctlReset p) s = .next s)) ∧
    (p < 8 →
      (∀ n, (q.st = .detect → exec (.peerDetected p n) s = .next (put { q with st := .train, since := now, peer := n })) ∧
        (q.st ≠ .detect → exec (.peerDetected p n) s = .next s)) ∧
      (∀ l, (¬ training → exec (.portTrained p l) s = .next s) ∧
        (training → l = .neither ∨ q.peer = s.hub.sockid → moved (.portTrained p l) down)) ∧
      (training → q.peer ≠ s.hub.sockid →
        (now ≤ q.since + 20000 → moved (.portTrained p .all) { q with st := .active, since := now, halfHigh := false }) ∧
        (q.since + 20000 < now → exec (.portTrained p .all) s = .next (put q)) ∧
        (now ≤ q.since + 40000 → moved (.portTrained p .low) { q with st := .half, since := now, halfHigh := false } ∧
          moved (.portTrained p .high) { q with st := .half, since := now, halfHigh := true }) ∧
        (q.since + 40000 < now → exec (.portTrained p .low) s = .next (put q) ∧ exec (.portTrained p .high) s = .next (put q))) ∧
      (training → q.since + 1000000 ≤ now → moved (.trainingTimeout p) down) ∧
      ((¬ training ∨ now < q.since + 1000000) → exec (.trainingTimeout p) s = .next s) ∧
      (q.up = true → exec (.laneFailure p) s = .next (put retrained)) ∧ (q.up = false → exec (.laneFailure p) s = .next s) ∧
      (∀ cut, s.hub.cutSince = some cut → q.st = .down → cut + 1000000 ≤ now → q.since + 1000000 ≤ now →
        let u := put { q with st := .fenced, since := now }
        let gone (k : Nat) : Prop := k < 64 ∧ k ≠ s.hub.sockid.toNat ∧ Sparse.at 0 s.hub.droute k ≠ 0 ∧
          ∀ j < 8, (Sparse.at 0 s.hub.droute k).getLsbD j = true → (s.hub.port j).up = false
        ∃ t, exec (.portFenceTimeout p) s = .next t ∧
          t = { u with hub := { u.hub with lost := t.hub.lost, holding := t.hub.holding, ports := t.hub.ports } } ∧
          (∀ k, t.hub.port k = { u.hub.port k with renewed := false }) ∧
          (∀ k, k ∈ t.hub.lost ↔ k ∈ u.hub.lost ∨ gone k) ∧
          ∀ f, f ∈ t.hub.holding ↔ f ∈ s.hub.holding ∧ ¬ gone f.socket) ∧
      (s.hub.cutSince = none ∨ q.st ≠ .down ∨ now < q.since + 1000000 ∨ (∃ cut, s.hub.cutSince = some cut ∧ now < cut + 1000000) →
        exec (.portFenceTimeout p) s = .next s) ∧
      (∀ f, f.payload.length = 240 →
        let route := Sparse.at 0 s.hub.droute f.socket
        let taken : State := put { q with expect := q.expect + 1, fails := 0 }
        (q.up = false → exec (.flitReceive p f) s = .next s) ∧
        (q.up = true → f.crcOk = false →
          (q.fails ≠ 7 → exec (.flitReceive p f) s = .next (put { q with fails := q.fails + 1, replays := q.replays + 1 })) ∧
          (q.fails = 7 → exec (.flitReceive p f) s = .next (put { retrained with replays := q.replays + 1 }))) ∧
        (q.up = true → f.crcOk = true → f.seq ≠ q.expect → exec (.flitReceive p f) s = .next s) ∧
        (q.up = true → f.crcOk = true → f.seq = q.expect →
          (f.socket = s.hub.sockid.toNat → exec (.flitReceive p f) s = .next { taken with hub := { taken.hub with delivered := s.hub.delivered ++ [f.payload] } }) ∧
          (f.socket ≠ s.hub.sockid.toNat → 3 ≤ f.hops ∨ route = 0 ∨ f.socket ∈ taken.hub.lost → exec (.flitReceive p f) s = .next taken) ∧
          (f.socket ≠ s.hub.sockid.toNat → f.hops < 3 → route ≠ 0 → f.socket ∉ taken.hub.lost →
            ((∀ j < 8, route.getLsbD j = true → (taken.hub.port j).up = false) → exec (.flitReceive p f) s =
              .next { taken with hub := { taken.hub with holding := s.hub.holding ++ [{ f with hops := f.hops + 1 }] } }) ∧
            ((∃ j < 8, route.getLsbD j = true ∧ (taken.hub.port j).up = true) → ∃ j r g, j < 8 ∧ route.getLsbD j = true ∧ r = taken.hub.port j ∧ r.up = true ∧
              g = { f with hops := f.hops + 1, seq := r.nextSeq } ∧ exec (.flitReceive p f) s =
                .next { taken with free := s.free + 1, hub := { taken.hub with
                  ports := taken.hub.ports.set j { r with nextSeq := r.nextSeq + 1, sent := (r.sent ++ [g]).drop (r.sent.length + 1 - 64) },
                  forwarded := s.hub.forwarded ++ [(j, g)] } })))) ∧
      ∀ f, f.payload.length ≠ 240 → exec (.flitReceive p f) s = .next s) ∧
    (∀ (v : BitVec 6) (w : Word) (o : Nat), let free : Prop := s.linkOpen = true ∧ s.hub.leftOff = false
      (free → exec (.sockidWrite v) s = .next (s.modHub (fun h => ({ h with sockid := v, sockSet := true } : Hub).review now))) ∧
      (¬ free → exec (.sockidWrite v) s = .next s) ∧
      (o % 8 ≠ 0 → exec (.registerWrite o w) s = .next s) ∧
      (exec (.registerWrite 0x200400 w) s = exec (.sockidWrite (w.setWidth 6)) s) ∧
      (∀ k, 1 ≤ k → k ≤ 14 → s.linkOpen = true → ∃ t, exec (.registerWrite (0x300000 + 8 * k) w) s = .next t ∧
        t = { s with hub := { s.hub with args := t.hub.args } } ∧ ∀ j, Sparse.at 0 t.hub.args j = if j = k then w else Sparse.at 0 s.hub.args j)) ∧
    (∀ addr (bs : List Byte) b n, let opened : Prop := s.hub.phase = 4 ∨ s.hub.phase = 5
      let stored := s.hostStore addr bs
      let out (l : List Byte) : State := { s with free := s.free + 1, hub := { s.hub with hostOut := s.hub.hostOut ++ [l] } }
      (s.waiters = [] → (∀ c ∈ cellsAt addr bs, s.fieldCell c = some c) →
        stored = { s with mem := stored.mem, caches := stored.caches, cores := stored.cores, clusters := stored.clusters } ∧ Reached s stored ∧
        (∀ f, stored.mem.readBytes f Cred.shared addr bs.length = bs) ∧
        ∀ a, (a < addr ∨ addr + bs.length ≤ a) → s.mem.sight Cred.shared a ≠ .stale → stored.mem.read stored.free Cred.shared a = s.mem.read s.free Cred.shared a) ∧
      (addr + bs.length ≤ Config.dramEnd →
        (¬ opened ∨ s.writeHeld Cred.shared (cellsAt addr bs) = true → exec (.hostPostedWrite addr bs b) s = .next s) ∧
        (opened → s.writeHeld Cred.shared (cellsAt addr bs) = false → ∃ t, exec (.hostPostedWrite addr bs b) s = .next t ∧
          t = { stored with clusters := t.clusters, urgentTable := t.urgentTable, partitions := t.partitions } ∧ (s.hub.built = true → t = stored))) ∧
      (Config.hostBase ≤ addr → addr + bs.length ≤ Config.physEnd → exec (.hostPostedWrite addr bs b) s = .next stored) ∧
      (Config.hubBase ≤ addr → addr + 8 ≤ Config.hubEnd → addr % 8 = 0 → bs.length = 8 → opened ∨ s.hub.phase = 15 →
        exec (.hostPostedWrite addr bs b) s = exec (.registerWrite (addr - Config.hubBase) (BitVec.ofNat 64 (leNat bs))) s) ∧
      (addr + n ≤ Config.dramEnd →
        let held := s.anyHeld Cred.shared false (linesOf (cellsAt addr (List.replicate n 0)))
        (opened → held = false → ∃ t, exec (.hostRead addr n) s = .next t ∧ Reached s t ∧
          t = { out (s.mem.readBytes s.free Cred.shared addr n) with caches := t.caches, cores := t.cores, clusters := t.clusters }) ∧
        (¬ opened ∨ held = true → exec (.hostRead addr n) s = .next s)) ∧
      (Config.hubBase ≤ addr → addr + n ≤ Config.hubEnd → opened ∨ s.hub.phase = 15 → exec (.hostRead addr n) s = .next (out (s.hubBytes addr n)))) ∧
    (∀ (k : Queue) (old new : Byte),
      (∀ o, o < 4 ∨ (8 ≤ o ∧ o < 16) ∨ 32 ≤ o → k.fieldByte o old new = some new) ∧
      (∀ o, 4 ≤ o → o < 8 → k.fieldByte o old new = if k.st = .halted then some new else none) ∧
      (∀ o, 16 ≤ o → o < 32 → o ≠ 18 → k.fieldByte o old new = none) ∧
      k.fieldByte 18 old new = some (if new.getLsbD 0 then old &&& 0xFE else old)) ∧
    (∀ (x : Nat) (c : Context) (o : Nat) (b : Byte), s.queues = [] → s.contexts = [(x, c)] → c.pageable = true → c.st ≠ .halted → o < 64 + 32 * c.fqSize →
      s.fieldCell (c.fqPlace + o, b) = if (8 ≤ o ∧ o < 64) ∨ (64 ≤ o ∧ (o - 64) % 32 = 18) then some (c.fqPlace + o, b) else none) ∧
    (∀ v : Int, exec (.ptpMessage v) s = .next { s with clk := { s.clk with slew := max (-100) (min 100 v) } })

/-- Power, temperature, clocks and resets change what their rules name; no throttling or sleep changes a register or memory (R342, R350, R355, R357, R358, R359, R360, R361, R362, R363). Where the spec leaves a point open, this is the model's reading or choice: log entries 24, 72, 77, 78, 89, 93, 97, 129. -/
def Obligations.PackageEvents : Prop :=
  ∀ (s : State) (k : Nat),
    let c := s.cluster k
    let put (d : ClusterState) : State := { s with clusters := s.clusters.set k d }
    let slow (a b : BitVec 2) : BitVec 2 := if a.toNat < b.toNat then b else a
    let power (t : State) : Prop := t =
        { s with clusters := t.clusters, caches := { s.caches with leases := t.caches.leases },
                 hub := { s.hub with hotDies := t.hub.hotDies, tripped := t.hub.tripped } } ∧
      ∀ n, t.cluster n = { s.cluster n with pstate := (t.cluster n).pstate, cmax := (t.cluster n).cmax, curp := (t.cluster n).curp, curc := (t.cluster n).curc,
                                            thr := (t.cluster n).thr, changing := (t.cluster n).changing, lines := (t.cluster n).lines }
    (∀ v, (s.linkOpen = false → exec (.cpwrPstate k v) s = .next s ∧ exec (.cpwrCmax k v) s = .next s) ∧ (k < 192 → s.linkOpen = true → exec (.cpwrPstate k v) s = .next (put { c with pstate := v, changing := some s.clk.cycles }) ∧
          exec (.cpwrCmax k v) s = .next (put { c with cmax := v })) ∧
        (192 ≤ k → exec (.cpwrPstate k v) s = .next s ∧ exec (.cpwrCmax k v) s = .next s)) ∧
    (c.changing ≠ none → exec (.pstateChangeComplete k) s = .next (put { c with changing := none, curp := if c.thr then slow c.curp c.pstate else c.pstate })) ∧
    (c.changing = none → exec (.pstateChangeComplete k) s = .next s) ∧
    (let n := s.deepest k
     let rests : Prop := ∀ i < 4, s.restful (s.hub.sockid.toNat * 1024 + k * 4 + i) = true
     (n = 0 ∨ c.curc ≠ 0 ∨ ¬ rests → exec (.cstateEntry k) s = .next s) ∧
     (n ≠ 0 → c.curc = 0 → rests → ∃ t, exec (.cstateEntry k) s = .next t ∧ power t ∧ t.hub = s.hub ∧
       (∀ j, t.cluster j = if j = k then { c with curc := BitVec.ofNat 2 n, lines := if 2 ≤ n then [] else c.lines } else s.cluster j) ∧
       ∀ l, l ∈ t.caches.leases ↔ l ∈ s.caches.leases ∧ (n = 1 ∨ l.1 ≠ k)) ∧
     let depth (i : Nat) : Nat := bitsAt (s.core (s.hub.sockid.toNat * 1024 + k * 4 + i)).rfsleep.toNat 0 2
     n ≤ c.cmax.toNat ∧ (∀ i < 4, n ≤ depth i) ∧ ∀ m, n < m → c.cmax.toNat < m ∨ ∃ i < 4, depth i < m) ∧
    (let wakes : Prop := ∃ i < 4, s.wakesCore (s.hub.sockid.toNat * 1024 + k * 4 + i) = true
     (c.curc = 0 ∨ ¬ wakes → exec (.clusterWake k) s = .next s) ∧
     (c.curc ≠ 0 → wakes → exec (.clusterWake k) s = .next (put { c with curc := 0, curp := if c.thr then slow c.curp c.pstate else c.pstate })) ∧
     (∀ i < 4, let core := s.hub.sockid.toNat * 1024 + k * 4 + i
       (s.core core).landReq ≠ [] ∨ (s.core core).landReply ≠ [] ∨ (s.core core).urgentQ ≠ [] ∨ (s.core core).chainQ ≠ [] → s.wakesCore core = true)) ∧
    (∀ w, (k < 192 → 3200 < w → exec (.powerThrottle k w) s = .next (put { c with thr := true, curp := if c.curp = 3 then 3 else c.curp + 1 })) ∧
      (192 ≤ k ∨ w ≤ 3200 → exec (.powerThrottle k w) s = .next s) ∧
      (3000 ≤ w → exec (.powerThrottleRelease w) s = .next s) ∧
      (w < 3000 → ∃ t, exec (.powerThrottleRelease w) s = .next t ∧ power t ∧ t.caches = s.caches ∧ t.hub = s.hub ∧ ∀ n, t.cluster n =
        if (s.cluster n).thr = true ∧ n / 32 ∉ s.hub.hotDies then { s.cluster n with thr := false, curp := (s.cluster n).pstate } else s.cluster n)) ∧
    (∀ die deg, (6 ≤ die ∨ (95 ≤ deg ∧ deg ≤ 100) ∨ (deg < 95 ∧ die ∉ s.hub.hotDies) → exec (.thermalSample die deg) s = .next s) ∧
      (die < 6 → 100 < deg → ∃ t, exec (.thermalSample die deg) s = .next t ∧ power t ∧ t.caches = s.caches ∧ (t.hub.tripped = true ↔ s.hub.tripped = true ∨ 110 < deg) ∧ (∀ d, d ∈ t.hub.hotDies ↔ d = die ∨ d ∈ s.hub.hotDies) ∧
        ∀ n, t.cluster n = if n / 32 = die then { s.cluster n with thr := true, curp := 3 } else s.cluster n) ∧
      (die < 6 → deg < 95 → die ∈ s.hub.hotDies → ∃ t, exec (.thermalSample die deg) s = .next t ∧ power t ∧ t.caches = s.caches ∧ t.hub.tripped = s.hub.tripped ∧ (∀ d, d ∈ t.hub.hotDies ↔ d ≠ die ∧ d ∈ s.hub.hotDies) ∧
        ∀ n, t.cluster n = if n / 32 = die ∧ (s.cluster n).thr = true then { s.cluster n with thr := false, curp := (s.cluster n).pstate } else s.cluster n)) ∧
    (let fresh_ (t : State) : Prop := t.strands = [] ∧ t.cores = [] ∧ t.clusters = [] ∧ t.engines = [] ∧ t.contexts = [] ∧ t.groups = [] ∧ t.queues = [] ∧
       t.kernels = [] ∧ t.copies = [] ∧ t.waiters = [] ∧ t.hub.phase = 0 ∧ t.hub.resetHeld = true ∧ t.hub.built = false ∧ t.clk.time = s.clk.time
     let cold (t : State) : Prop := fresh_ t ∧ t.hub.bbRing = [] ∧ t.hub.bbWidx = 0 ∧ t.hub.mode = 0 ∧ t.hub.boots = s.hub.boots + 1 ∧ t.hub.fwctr = s.hub.fwctrNext ∧
       t.hub.kctr = s.hub.kctr
     (∀ r, ∀ i ∈ [Instr.coldReset, .railFault r, .refclkLoss .host], ∃ t, exec i s = .next t ∧ cold t) ∧
     (∃ t, exec .warmReset s = .next t ∧ fresh_ t ∧ t.mem.empty = [] ∧ t.hub.bbRing = s.hub.bbRing ∧ t.hub.bbWidx = s.hub.bbWidx ∧ t.hub.bbWrap = s.hub.bbWrap ∧
       t.hub.bbFrozen = s.hub.bbFrozen ∧ t.hub.bbLost = s.hub.bbLost ∧ t.hub.bbQueue = s.hub.bbQueue ∧ t.hub.boots = s.hub.boots ∧
       t.hub.fwctr = s.hub.fwctr ∧ t.hub.kctr = s.hub.kctr ∧ t.transCache = s.transCache) ∧
     (∀ clock, clock ≠ .host → ∃ t l, exec (.refclkLoss clock) s = .next t ∧ t =
         { s with hub := { s.hub with absent := t.hub.absent, bbQueue := s.hub.bbQueue ++ l, msi := s.hub.msi ++ l.map (fun _ => 1) } } ∧ (∀ x, x ∈ t.hub.absent ↔ x ∈ s.hub.absent ∨ x = clock) ∧
       (s.hub.phase.toNat < 3 → l = []) ∧ (∀ e ∈ l, e.event = 5 ∧ e.cause = 0xF5) ∧
       (3 ≤ s.hub.phase.toNat → l.map (fun e => e.source.toNat) =
         match clock with | .driost pair => [0x360 + 2 * pair.toNat, 0x361 + 2 * pair.toNat] | _ => [0x3FF]))) ∧
    (s.hub.resetHeld = true → s.hub.railsAt + 10000000 ≤ s.clk.time → exec .resetRelease s = .next { s with hub := { s.hub with resetHeld := false } }) ∧
    (s.hub.resetHeld = false ∨ s.clk.time < s.hub.railsAt + 10000000 → exec .resetRelease s = .next s) ∧
    (s.hub.resetHeld = true ∨ s.hub.phase = 15 → ∀ r, exec (.bringupPhase r) s = .next s) ∧
    (s.hub.resetHeld = false → s.hub.phase ≠ 15 →
      let h := s.hub
      let first (l : List (Bool × Nat)) : List Nat := ((l.find? (fun e => e.1)).map (fun e => e.2)).toList
      let fails : List Nat :=
        if h.phase = 1 then first [(!h.image.signed, 1), (decide (h.image.svn < h.fwctr.toNat), 2)]
        else if h.phase = 2 then first [(!h.image.table, 3), (!h.image.loader, 4), (!h.image.keys, 5)] ++ (if h.absent = [] then [] else [6])
        else if h.phase = 3 then (if h.dramOk then [] else [7]) else []
      let named : Prop := h.phase = 1 ∨ h.phase = 2 ∨ h.phase = 3
      (h.phase.toNat < 5 → fails = [] → exec (.bringupPhase none) s = .next { s with hub := { h with phase := h.phase + 1 } }) ∧
      (5 ≤ h.phase.toNat ∨ fails ≠ [] → exec (.bringupPhase none) s = .next s) ∧
      ∀ r : Byte, let may : Prop := (named ∧ r.toNat ∈ fails) ∨ (¬ named ∧ r = 0)
        (may → exec (.bringupPhase (some r)) s = .next { s with hub := { h with phase := 15, failPh := h.phase, reason := r } }) ∧
        (¬ may → exec (.bringupPhase (some r)) s = .next s))

/-- At reset the strands, the control registers and the hub registers hold what the spec gives them, and memory is in canonical form (R25, R26, R34, R36, R37, R324, R337, R350, R358, R362, R363). The registers of strands that have not left Halted are assumption 2. -/
def Obligations.ResetState : Prop :=
  Inv State.reset ∧
    (∀ c n, n < 6 → let t := State.reset.strand { core := c, num := n }
      t.st = (if n = 4 then .idle else if n = 5 then .parked else .halted) ∧ t.paused = false ∧ t.ssw = 0x8004 ∧
      t.prec = 32 ∧ t.crn = 1 ∧ (∀ w ∈ [t.eps, t.epc, t.cause, t.eva, t.etile, t.eidx, t.efmt, t.tstep, t.fmtp, t.tcoord, t.crb, t.htb], w = 0) ∧
      (∀ r, Sparse.at 0 t.x r = 0) ∧ (∀ r, Sparse.at 0 t.v r = 0) ∧ (∀ r, Sparse.at 0 t.m r = 0) ∧
      ∀ j < 32, t.fBits j = 0x24000000) ∧
    (∀ c, let k := State.reset.core c
      k.rfsleep = 1 ∧ k.tagw = 0 ∧ k.htab = 0 ∧ k.group = none ∧ k.deque = [] ∧ k.buffer = [] ∧ ∀ r, Sparse.at 0 k.s r = 0) ∧
    (∀ k, let c := State.reset.cluster k
      c.pstate = 0 ∧ c.cmax = 1 ∧ c.curp = 0 ∧ c.curc = 0 ∧ c.thr = false) ∧
    (let h := State.reset.hub
     h.locals = 0 ∧ h.shways = 0 ∧ h.busy = 0 ∧ h.ratioErr = false ∧ (∀ k < 12, h.ratios.extractLsb' (3 * k) 3 = 2) ∧
     (∀ p, (h.port p).st = .off ∧ (h.port p).enable = false) ∧ h.sockid = 0 ∧ h.mode = 0 ∧ h.bbRing = [] ∧ h.bbWidx = 0 ∧ h.bbFrozen = false ∧
     h.bbLost = 0 ∧ h.phase = 0 ∧ h.failPh = 0 ∧ h.reason = 0 ∧ h.resetHeld = true)

/-- A step runs the instruction that the four bytes at the PC of the chosen strand decode to (R27, R28, R44, R60, R111, R152, R261, R314, R331, R360, R362). The agenda is the model's own (log entry 1); a word may be left after some of its accesses (111); an older line may serve a fetch (11). -/
def Obligations.StepRunsDecoded : Prop :=
  ∀ (s u v : State) (core n : Nat) (rest : List Turn), s.hub.tripped = false → s.hub.phase ≠ 15 → s.halfWay = [] →
    ((s.agenda = .issue core :: rest ∧ u = { s with agenda := rest }) ∨ (s.agenda = [] ∧ core = s.focus ∧ u = s) ∨
      (∃ k, s.agenda = .partIssue core k :: rest ∧ u = { s with agenda := rest, cut := some k })) →
    let sid : StrandId := { core := core, num := n }
    let c := u.core core
    let w := if c.fetchedAt = some u.clk.cycles ∨ c.retiredAt = some u.clk.cycles then u.nextCycle else u
    let t := v.startIssue sid
    let kept (word : IWord) (o : Host.Outcome State Fault Refusal) : Host.Outcome State Fault Refusal :=
      match o with
      | .next x => .next (if (x.strand sid).got = [] then x else x.modStrand sid (fun y => { y with word := some word }))
      | o => o
    let fetchesTo (z : State) (o : Host.Outcome State Fault Refusal) : Prop :=
      (∀ e, z.fetch sid = .error e → o = exec (.fetchFault e.cause) z) ∧
      (∀ p q, z.fetchPlace sid = .ok (p, q) → z.withdrawn p.loc = false → z.mem.poisoned p.cred p.loc 4 = false → isHub p.loc = false →
        q.fetchHeld core p = false → (q.strand sid).fetched.get? (p.loc / 64) = none →
        let word : IWord := BitVec.ofNat 32 (leNat (q.mem.readBytes q.free p.cred p.loc 4))
        let line : HeldLine := { words := (List.range 16).map (fun i => q.wordAt p.cred (p.loc / 64 * 64 + 4 * i)), cred := p.cred, barred := [] }
        let h := q.modStrand sid (fun x => { x with fetched := x.fetched.set (p.loc / 64) line })
        let y := h.fetchTouch core p
        let r : State := { y with free := y.free + 1 }
        CacheOnly (h.modCore core (fun k => { k with l1i := (y.core core).l1i })) y ∧
        (∀ i, decode word = .ok i → i.wellFormed = true → o = kept word (exec i r)) ∧
        (∀ c, decode word = .error c → o = kept word (exec (.nonInstructionWord c) r)))
    (∀ x : State, turnOver (.next x) = .next ({ x with cut := none, replay := [] } : State).settleEvictions ∧
      ((∀ i, (x.strand i).evictReq = false) → turnOver (.next x) = .next { x with cut := none, replay := [] })) ∧
    (w.canFetch core = false → step s = turnOver (.next w.nextCycle)) ∧
    (w.canFetch core = true → w.choose core = (none, v) → step s = turnOver (.next w.nextCycle)) ∧
    (w.canFetch core = true → w.choose core = (some n, v) → (t.strand sid).got = [] →
      (∀ k a, (t.strand sid).struck = some (k, a) → step s = turnOver (.next ((t.setStrand sid { t.strand sid with struck := none }).strike sid k a.toNat))) ∧
      ((t.strand sid).struck = none → t.mayTake sid = true → (t.strand sid).irqAt ≠ t.clk.cycles → step s = turnOver (exec (.takeInterrupt sid) t)) ∧
      ((t.strand sid).struck = none → t.mayTake sid = true → (t.strand sid).irqAt = t.clk.cycles → ∃ o, fetchesTo t.ahead o ∧
        ∀ x, o = .next x → (x.hasTrapped sid = true → step s = turnOver o) ∧ (x.hasTrapped sid = false → step s = turnOver (exec (.takeInterrupt sid) t))) ∧
      ((t.strand sid).struck = none → t.mayTake sid = false → ∃ o, fetchesTo t o ∧ step s = turnOver o)) ∧
    (∀ (z : State) word i, (z.strand sid).got ≠ [] → (z.strand sid).word = some word → decode word = .ok i → issueStrand sid z = exec i z) ∧
    ∀ (w : State) ev, w.hub.tripped = false → w.hub.phase ≠ 15 → w.halfWay = [] → w.agenda = .event ev :: rest → agendaEvent ev = true →
      step w = turnOver (exec ev { w with agenda := rest })

/-- Every step keeps memory in canonical form (R88, R98, R159, R269). -/
def Obligations.StepKeepsMemoryForm : Prop :=
  ∀ (s t : State), Inv s → step s = .next t → Inv t

/-- Decoding the word of a well-formed instruction gives the instruction back, for every instruction and every operand (R44, R46, R47, R49, R50, R57, R60). -/
def Obligations.DecodeEncode : Prop :=
  ∀ i : Instr, i.wellFormed = true → decode (encode i) = .ok i

/-- Words written out from the encodings of the spec decode to the instructions they stand for (R46, R48, R49, R52, R57, R60). -/
def Obligations.DecodeWords : Prop :=
  decode 0x04000001 = .ok (.himm 1) ∧ decode 0x0C900007 = .ok (.addi 9 0 7) ∧ decode 0x1C51800C = .ok (.slli 5 6 12) ∧
    decode 0x3051A402 = .ok (.ld 5 6 4 2 0 2) ∧ decode 0x3471B102 = .ok (.st 7 6 6 0 1 2) ∧ decode 0x40520982 = .ok (.amoAdd 5 8 9 1) ∧
    decode 0x44424000 = .ok (.ldc 4 9) ∧ decode 0x70611105 = .ok (.fma 3 1 2 4) ∧ decode 0x78050000 = .ok (.setprec 5) ∧
    decode 0x80611102 = .ok (.vadd 3 1 2 1 2) ∧ decode 0x9CA20910 = .ok (.tgemm 10 8 9) ∧ decode 0xA9455600 = .ok (.send 20 21 22) ∧
    decode 0xC8518007 = .ok (.chsend 5 6 7) ∧ decode 0x00000000 = .error 0x03
end

