-- ==== Sys2Proof/Laws/Table.lean ====
section
/-! SUPPORT. What reading a sparse table gives after an entry is set, erased or put, and that each keeps the canonical form. -/

namespace Sys2Proof.Machine

variable {α : Type}

theorem Sparse.get?_set (t : Sparse α) (k j : Nat) (v : α) :
    (t.set k v).get? j = if j = k then some v else t.get? j := by
  induction t with
  | nil => grind [Sparse.set, Sparse.get?]
  | cons e rest ih => grind [Sparse.set, Sparse.get?]

theorem Sparse.get?_erase (t : Sparse α) (k j : Nat) :
    (t.erase k).get? j = if j = k then none else t.get? j := by
  induction t with
  | nil => grind [Sparse.erase, Sparse.get?]
  | cons e rest ih => grind [Sparse.erase, Sparse.get?]

@[simp] theorem Sparse.at_set (d : α) (t : Sparse α) (k j : Nat) (v : α) :
    Sparse.at d (t.set k v) j = if j = k then v else Sparse.at d t j := by
  simp only [Sparse.at, Sparse.get?_set]; split <;> simp

@[simp] theorem Sparse.at_put [DecidableEq α] (d : α) (t : Sparse α) (k j : Nat) (v : α) :
    Sparse.at d (Sparse.put d t k v) j = if j = k then v else Sparse.at d t j := by
  simp only [Sparse.put]
  split
  · simp only [Sparse.at, Sparse.get?_erase]; split <;> simp_all
  · simp

/-! ## The canonical form -/

theorem Sparse.sortedFrom_mono {lo lo' : Nat} (h : lo' ≤ lo) (t : Sparse α) (ht : t.sortedFrom lo = true) :
    t.sortedFrom lo' = true := by
  cases t with
  | nil => rfl
  | cons e rest => simp only [Sparse.sortedFrom, Bool.and_eq_true, decide_eq_true_eq] at *; exact ⟨by omega, ht.2⟩

theorem Sparse.sortedFrom_set {lo : Nat} (t : Sparse α) (k : Nat) (v : α) (hk : lo ≤ k) (ht : t.sortedFrom lo = true) :
    (t.set k v).sortedFrom lo = true := by
  induction t generalizing lo with
  | nil => simp [Sparse.set, Sparse.sortedFrom, hk]
  | cons e rest ih =>
    obtain ⟨i, w⟩ := e
    simp only [Sparse.sortedFrom, Bool.and_eq_true, decide_eq_true_eq] at ht
    simp only [Sparse.set]
    split
    · simp only [Sparse.sortedFrom, Bool.and_eq_true, decide_eq_true_eq]; exact ⟨hk, by omega, ht.2⟩
    · split
      · subst_vars; simp [Sparse.sortedFrom, ht.2, hk]
      · simp only [Sparse.sortedFrom, Bool.and_eq_true, decide_eq_true_eq]; exact ⟨ht.1, ih (by omega) ht.2⟩

theorem Sparse.sortedFrom_filter {lo : Nat} (p : Nat × α → Bool) (t : Sparse α) (ht : t.sortedFrom lo = true) :
    Sparse.sortedFrom lo (t.filter p) = true := by
  induction t generalizing lo with
  | nil => rfl
  | cons e rest ih =>
    obtain ⟨i, w⟩ := e
    simp only [Sparse.sortedFrom, Bool.and_eq_true, decide_eq_true_eq] at ht
    simp only [List.filter]
    split
    · simp only [Sparse.sortedFrom, Bool.and_eq_true, decide_eq_true_eq]; exact ⟨ht.1, ih ht.2⟩
    · exact Sparse.sortedFrom_mono (by omega) _ (ih ht.2)

theorem Sparse.erase_eq_filter (t : Sparse α) (k : Nat) : t.erase k = t.filter (fun e => decide (e.1 ≠ k)) := by
  induction t with
  | nil => rfl
  | cons e rest ih =>
    obtain ⟨i, w⟩ := e
    simp only [Sparse.erase, List.filter, ih]
    by_cases h : i = k <;> simp [h]

theorem Sparse.canon_filter [DecidableEq α] (d : α) (p : Nat × α → Bool) (t : Sparse α) (ht : Sparse.canon d t = true) :
    Sparse.canon d (t.filter p) = true := by
  simp only [Sparse.canon, Bool.and_eq_true, List.all_eq_true] at *
  exact ⟨Sparse.sortedFrom_filter p t ht.1, fun e he => ht.2 e ((List.mem_filter.1 he).1)⟩

theorem Sparse.mem_set {t : Sparse α} {k : Nat} {v : α} {e : Nat × α} (h : e ∈ t.set k v) : e ∈ t ∨ e = (k, v) := by
  induction t with
  | nil => simp_all [Sparse.set]
  | cons a rest ih => grind [Sparse.set]

theorem Sparse.canon_put [DecidableEq α] (d : α) (t : Sparse α) (k : Nat) (v : α) (ht : Sparse.canon d t = true) :
    Sparse.canon d (Sparse.put d t k v) = true := by
  simp only [Sparse.put]
  split
  · rw [Sparse.erase_eq_filter]; exact Sparse.canon_filter d _ t ht
  · rename_i hv
    simp only [Sparse.canon, Bool.and_eq_true, List.all_eq_true, decide_eq_true_eq] at *
    refine ⟨Sparse.sortedFrom_set t k v (by omega) ht.1, fun e he => ?_⟩
    rcases Sparse.mem_set he with h | h
    · exact ht.2 e h
    · simpa [h] using hv

end Sys2Proof.Machine
end

