-- ==== Sys2Proof/Laws/State.lean ====
section
/-! SUPPORT. What each named update of the state leaves in each field of it: one lemma per field and update, true by `rfl`. -/

namespace Sys2Proof.Machine

/-! ## Fields after an update -/

@[simp] theorem State.setStrand_cores (s : State) (i : StrandId) (t : Strand) : (s.setStrand i t).cores = s.cores := rfl
@[simp] theorem State.setStrand_clusters (s : State) (i : StrandId) (t : Strand) : (s.setStrand i t).clusters = s.clusters := rfl
@[simp] theorem State.setStrand_engines (s : State) (i : StrandId) (t : Strand) : (s.setStrand i t).engines = s.engines := rfl
@[simp] theorem State.setStrand_mem (s : State) (i : StrandId) (t : Strand) : (s.setStrand i t).mem = s.mem := rfl
@[simp] theorem State.setStrand_caches (s : State) (i : StrandId) (t : Strand) : (s.setStrand i t).caches = s.caches := rfl
@[simp] theorem State.setStrand_waiters (s : State) (i : StrandId) (t : Strand) : (s.setStrand i t).waiters = s.waiters := rfl
@[simp] theorem State.setStrand_boxes (s : State) (i : StrandId) (t : Strand) : (s.setStrand i t).boxes = s.boxes := rfl
@[simp] theorem State.setStrand_copies (s : State) (i : StrandId) (t : Strand) : (s.setStrand i t).copies = s.copies := rfl
@[simp] theorem State.setStrand_contexts (s : State) (i : StrandId) (t : Strand) : (s.setStrand i t).contexts = s.contexts := rfl
@[simp] theorem State.setStrand_keySlots (s : State) (i : StrandId) (t : Strand) : (s.setStrand i t).keySlots = s.keySlots := rfl
@[simp] theorem State.setStrand_groups (s : State) (i : StrandId) (t : Strand) : (s.setStrand i t).groups = s.groups := rfl
@[simp] theorem State.setStrand_saved (s : State) (i : StrandId) (t : Strand) : (s.setStrand i t).saved = s.saved := rfl
@[simp] theorem State.setStrand_images (s : State) (i : StrandId) (t : Strand) : (s.setStrand i t).images = s.images := rfl
@[simp] theorem State.setStrand_partitions (s : State) (i : StrandId) (t : Strand) : (s.setStrand i t).partitions = s.partitions := rfl
@[simp] theorem State.setStrand_invals (s : State) (i : StrandId) (t : Strand) : (s.setStrand i t).invals = s.invals := rfl
@[simp] theorem State.setStrand_queues (s : State) (i : StrandId) (t : Strand) : (s.setStrand i t).queues = s.queues := rfl
@[simp] theorem State.setStrand_ttable (s : State) (i : StrandId) (t : Strand) : (s.setStrand i t).ttable = s.ttable := rfl
@[simp] theorem State.setStrand_ttNext (s : State) (i : StrandId) (t : Strand) : (s.setStrand i t).ttNext = s.ttNext := rfl
@[simp] theorem State.setStrand_ttSlot (s : State) (i : StrandId) (t : Strand) : (s.setStrand i t).ttSlot = s.ttSlot := rfl
@[simp] theorem State.setStrand_kernels (s : State) (i : StrandId) (t : Strand) : (s.setStrand i t).kernels = s.kernels := rfl
@[simp] theorem State.setStrand_transCache (s : State) (i : StrandId) (t : Strand) : (s.setStrand i t).transCache = s.transCache := rfl
@[simp] theorem State.setStrand_urgentTable (s : State) (i : StrandId) (t : Strand) : (s.setStrand i t).urgentTable = s.urgentTable := rfl
@[simp] theorem State.setStrand_hub (s : State) (i : StrandId) (t : Strand) : (s.setStrand i t).hub = s.hub := rfl
@[simp] theorem State.setStrand_clk (s : State) (i : StrandId) (t : Strand) : (s.setStrand i t).clk = s.clk := rfl
@[simp] theorem State.setStrand_cur (s : State) (i : StrandId) (t : Strand) : (s.setStrand i t).cur = s.cur := rfl
@[simp] theorem State.setStrand_cut (s : State) (i : StrandId) (t : Strand) : (s.setStrand i t).cut = s.cut := rfl
@[simp] theorem State.setStrand_replay (s : State) (i : StrandId) (t : Strand) : (s.setStrand i t).replay = s.replay := rfl
@[simp] theorem State.setStrand_agenda (s : State) (i : StrandId) (t : Strand) : (s.setStrand i t).agenda = s.agenda := rfl
@[simp] theorem State.setStrand_focus (s : State) (i : StrandId) (t : Strand) : (s.setStrand i t).focus = s.focus := rfl
@[simp] theorem State.setStrand_free (s : State) (i : StrandId) (t : Strand) : (s.setStrand i t).free = s.free := rfl
@[simp] theorem State.setStrand_fresh (s : State) (i : StrandId) (t : Strand) : (s.setStrand i t).fresh = s.fresh := rfl

@[simp] theorem State.modStrand_cores (s : State) (i : StrandId) (f : Strand → Strand) : (s.modStrand i f).cores = s.cores := rfl
@[simp] theorem State.modStrand_clusters (s : State) (i : StrandId) (f : Strand → Strand) : (s.modStrand i f).clusters = s.clusters := rfl
@[simp] theorem State.modStrand_engines (s : State) (i : StrandId) (f : Strand → Strand) : (s.modStrand i f).engines = s.engines := rfl
@[simp] theorem State.modStrand_mem (s : State) (i : StrandId) (f : Strand → Strand) : (s.modStrand i f).mem = s.mem := rfl
@[simp] theorem State.modStrand_caches (s : State) (i : StrandId) (f : Strand → Strand) : (s.modStrand i f).caches = s.caches := rfl
@[simp] theorem State.modStrand_waiters (s : State) (i : StrandId) (f : Strand → Strand) : (s.modStrand i f).waiters = s.waiters := rfl
@[simp] theorem State.modStrand_boxes (s : State) (i : StrandId) (f : Strand → Strand) : (s.modStrand i f).boxes = s.boxes := rfl
@[simp] theorem State.modStrand_copies (s : State) (i : StrandId) (f : Strand → Strand) : (s.modStrand i f).copies = s.copies := rfl
@[simp] theorem State.modStrand_contexts (s : State) (i : StrandId) (f : Strand → Strand) : (s.modStrand i f).contexts = s.contexts := rfl
@[simp] theorem State.modStrand_keySlots (s : State) (i : StrandId) (f : Strand → Strand) : (s.modStrand i f).keySlots = s.keySlots := rfl
@[simp] theorem State.modStrand_groups (s : State) (i : StrandId) (f : Strand → Strand) : (s.modStrand i f).groups = s.groups := rfl
@[simp] theorem State.modStrand_saved (s : State) (i : StrandId) (f : Strand → Strand) : (s.modStrand i f).saved = s.saved := rfl
@[simp] theorem State.modStrand_images (s : State) (i : StrandId) (f : Strand → Strand) : (s.modStrand i f).images = s.images := rfl
@[simp] theorem State.modStrand_partitions (s : State) (i : StrandId) (f : Strand → Strand) : (s.modStrand i f).partitions = s.partitions := rfl
@[simp] theorem State.modStrand_invals (s : State) (i : StrandId) (f : Strand → Strand) : (s.modStrand i f).invals = s.invals := rfl
@[simp] theorem State.modStrand_queues (s : State) (i : StrandId) (f : Strand → Strand) : (s.modStrand i f).queues = s.queues := rfl
@[simp] theorem State.modStrand_ttable (s : State) (i : StrandId) (f : Strand → Strand) : (s.modStrand i f).ttable = s.ttable := rfl
@[simp] theorem State.modStrand_ttNext (s : State) (i : StrandId) (f : Strand → Strand) : (s.modStrand i f).ttNext = s.ttNext := rfl
@[simp] theorem State.modStrand_ttSlot (s : State) (i : StrandId) (f : Strand → Strand) : (s.modStrand i f).ttSlot = s.ttSlot := rfl
@[simp] theorem State.modStrand_kernels (s : State) (i : StrandId) (f : Strand → Strand) : (s.modStrand i f).kernels = s.kernels := rfl
@[simp] theorem State.modStrand_transCache (s : State) (i : StrandId) (f : Strand → Strand) : (s.modStrand i f).transCache = s.transCache := rfl
@[simp] theorem State.modStrand_urgentTable (s : State) (i : StrandId) (f : Strand → Strand) : (s.modStrand i f).urgentTable = s.urgentTable := rfl
@[simp] theorem State.modStrand_hub (s : State) (i : StrandId) (f : Strand → Strand) : (s.modStrand i f).hub = s.hub := rfl
@[simp] theorem State.modStrand_clk (s : State) (i : StrandId) (f : Strand → Strand) : (s.modStrand i f).clk = s.clk := rfl
@[simp] theorem State.modStrand_cur (s : State) (i : StrandId) (f : Strand → Strand) : (s.modStrand i f).cur = s.cur := rfl
@[simp] theorem State.modStrand_cut (s : State) (i : StrandId) (f : Strand → Strand) : (s.modStrand i f).cut = s.cut := rfl
@[simp] theorem State.modStrand_replay (s : State) (i : StrandId) (f : Strand → Strand) : (s.modStrand i f).replay = s.replay := rfl
@[simp] theorem State.modStrand_agenda (s : State) (i : StrandId) (f : Strand → Strand) : (s.modStrand i f).agenda = s.agenda := rfl
@[simp] theorem State.modStrand_focus (s : State) (i : StrandId) (f : Strand → Strand) : (s.modStrand i f).focus = s.focus := rfl
@[simp] theorem State.modStrand_free (s : State) (i : StrandId) (f : Strand → Strand) : (s.modStrand i f).free = s.free := rfl
@[simp] theorem State.modStrand_fresh (s : State) (i : StrandId) (f : Strand → Strand) : (s.modStrand i f).fresh = s.fresh := rfl

@[simp] theorem State.modMe_cores (s : State) (f : Strand → Strand) : (s.modMe f).cores = s.cores := rfl
@[simp] theorem State.modMe_clusters (s : State) (f : Strand → Strand) : (s.modMe f).clusters = s.clusters := rfl
@[simp] theorem State.modMe_engines (s : State) (f : Strand → Strand) : (s.modMe f).engines = s.engines := rfl
@[simp] theorem State.modMe_mem (s : State) (f : Strand → Strand) : (s.modMe f).mem = s.mem := rfl
@[simp] theorem State.modMe_caches (s : State) (f : Strand → Strand) : (s.modMe f).caches = s.caches := rfl
@[simp] theorem State.modMe_waiters (s : State) (f : Strand → Strand) : (s.modMe f).waiters = s.waiters := rfl
@[simp] theorem State.modMe_boxes (s : State) (f : Strand → Strand) : (s.modMe f).boxes = s.boxes := rfl
@[simp] theorem State.modMe_copies (s : State) (f : Strand → Strand) : (s.modMe f).copies = s.copies := rfl
@[simp] theorem State.modMe_contexts (s : State) (f : Strand → Strand) : (s.modMe f).contexts = s.contexts := rfl
@[simp] theorem State.modMe_keySlots (s : State) (f : Strand → Strand) : (s.modMe f).keySlots = s.keySlots := rfl
@[simp] theorem State.modMe_groups (s : State) (f : Strand → Strand) : (s.modMe f).groups = s.groups := rfl
@[simp] theorem State.modMe_saved (s : State) (f : Strand → Strand) : (s.modMe f).saved = s.saved := rfl
@[simp] theorem State.modMe_images (s : State) (f : Strand → Strand) : (s.modMe f).images = s.images := rfl
@[simp] theorem State.modMe_partitions (s : State) (f : Strand → Strand) : (s.modMe f).partitions = s.partitions := rfl
@[simp] theorem State.modMe_invals (s : State) (f : Strand → Strand) : (s.modMe f).invals = s.invals := rfl
@[simp] theorem State.modMe_queues (s : State) (f : Strand → Strand) : (s.modMe f).queues = s.queues := rfl
@[simp] theorem State.modMe_ttable (s : State) (f : Strand → Strand) : (s.modMe f).ttable = s.ttable := rfl
@[simp] theorem State.modMe_ttNext (s : State) (f : Strand → Strand) : (s.modMe f).ttNext = s.ttNext := rfl
@[simp] theorem State.modMe_ttSlot (s : State) (f : Strand → Strand) : (s.modMe f).ttSlot = s.ttSlot := rfl
@[simp] theorem State.modMe_kernels (s : State) (f : Strand → Strand) : (s.modMe f).kernels = s.kernels := rfl
@[simp] theorem State.modMe_transCache (s : State) (f : Strand → Strand) : (s.modMe f).transCache = s.transCache := rfl
@[simp] theorem State.modMe_urgentTable (s : State) (f : Strand → Strand) : (s.modMe f).urgentTable = s.urgentTable := rfl
@[simp] theorem State.modMe_hub (s : State) (f : Strand → Strand) : (s.modMe f).hub = s.hub := rfl
@[simp] theorem State.modMe_clk (s : State) (f : Strand → Strand) : (s.modMe f).clk = s.clk := rfl
@[simp] theorem State.modMe_cur (s : State) (f : Strand → Strand) : (s.modMe f).cur = s.cur := rfl
@[simp] theorem State.modMe_cut (s : State) (f : Strand → Strand) : (s.modMe f).cut = s.cut := rfl
@[simp] theorem State.modMe_replay (s : State) (f : Strand → Strand) : (s.modMe f).replay = s.replay := rfl
@[simp] theorem State.modMe_agenda (s : State) (f : Strand → Strand) : (s.modMe f).agenda = s.agenda := rfl
@[simp] theorem State.modMe_focus (s : State) (f : Strand → Strand) : (s.modMe f).focus = s.focus := rfl
@[simp] theorem State.modMe_free (s : State) (f : Strand → Strand) : (s.modMe f).free = s.free := rfl
@[simp] theorem State.modMe_fresh (s : State) (f : Strand → Strand) : (s.modMe f).fresh = s.fresh := rfl

@[simp] theorem State.setCore_strands (s : State) (c : Nat) (k : CoreState) : (s.setCore c k).strands = s.strands := rfl
@[simp] theorem State.setCore_clusters (s : State) (c : Nat) (k : CoreState) : (s.setCore c k).clusters = s.clusters := rfl
@[simp] theorem State.setCore_engines (s : State) (c : Nat) (k : CoreState) : (s.setCore c k).engines = s.engines := rfl
@[simp] theorem State.setCore_mem (s : State) (c : Nat) (k : CoreState) : (s.setCore c k).mem = s.mem := rfl
@[simp] theorem State.setCore_caches (s : State) (c : Nat) (k : CoreState) : (s.setCore c k).caches = s.caches := rfl
@[simp] theorem State.setCore_waiters (s : State) (c : Nat) (k : CoreState) : (s.setCore c k).waiters = s.waiters := rfl
@[simp] theorem State.setCore_boxes (s : State) (c : Nat) (k : CoreState) : (s.setCore c k).boxes = s.boxes := rfl
@[simp] theorem State.setCore_copies (s : State) (c : Nat) (k : CoreState) : (s.setCore c k).copies = s.copies := rfl
@[simp] theorem State.setCore_contexts (s : State) (c : Nat) (k : CoreState) : (s.setCore c k).contexts = s.contexts := rfl
@[simp] theorem State.setCore_keySlots (s : State) (c : Nat) (k : CoreState) : (s.setCore c k).keySlots = s.keySlots := rfl
@[simp] theorem State.setCore_groups (s : State) (c : Nat) (k : CoreState) : (s.setCore c k).groups = s.groups := rfl
@[simp] theorem State.setCore_saved (s : State) (c : Nat) (k : CoreState) : (s.setCore c k).saved = s.saved := rfl
@[simp] theorem State.setCore_images (s : State) (c : Nat) (k : CoreState) : (s.setCore c k).images = s.images := rfl
@[simp] theorem State.setCore_partitions (s : State) (c : Nat) (k : CoreState) : (s.setCore c k).partitions = s.partitions := rfl
@[simp] theorem State.setCore_invals (s : State) (c : Nat) (k : CoreState) : (s.setCore c k).invals = s.invals := rfl
@[simp] theorem State.setCore_queues (s : State) (c : Nat) (k : CoreState) : (s.setCore c k).queues = s.queues := rfl
@[simp] theorem State.setCore_ttable (s : State) (c : Nat) (k : CoreState) : (s.setCore c k).ttable = s.ttable := rfl
@[simp] theorem State.setCore_ttNext (s : State) (c : Nat) (k : CoreState) : (s.setCore c k).ttNext = s.ttNext := rfl
@[simp] theorem State.setCore_ttSlot (s : State) (c : Nat) (k : CoreState) : (s.setCore c k).ttSlot = s.ttSlot := rfl
@[simp] theorem State.setCore_kernels (s : State) (c : Nat) (k : CoreState) : (s.setCore c k).kernels = s.kernels := rfl
@[simp] theorem State.setCore_transCache (s : State) (c : Nat) (k : CoreState) : (s.setCore c k).transCache = s.transCache := rfl
@[simp] theorem State.setCore_urgentTable (s : State) (c : Nat) (k : CoreState) : (s.setCore c k).urgentTable = s.urgentTable := rfl
@[simp] theorem State.setCore_hub (s : State) (c : Nat) (k : CoreState) : (s.setCore c k).hub = s.hub := rfl
@[simp] theorem State.setCore_clk (s : State) (c : Nat) (k : CoreState) : (s.setCore c k).clk = s.clk := rfl
@[simp] theorem State.setCore_cur (s : State) (c : Nat) (k : CoreState) : (s.setCore c k).cur = s.cur := rfl
@[simp] theorem State.setCore_cut (s : State) (c : Nat) (k : CoreState) : (s.setCore c k).cut = s.cut := rfl
@[simp] theorem State.setCore_replay (s : State) (c : Nat) (k : CoreState) : (s.setCore c k).replay = s.replay := rfl
@[simp] theorem State.setCore_agenda (s : State) (c : Nat) (k : CoreState) : (s.setCore c k).agenda = s.agenda := rfl
@[simp] theorem State.setCore_focus (s : State) (c : Nat) (k : CoreState) : (s.setCore c k).focus = s.focus := rfl
@[simp] theorem State.setCore_free (s : State) (c : Nat) (k : CoreState) : (s.setCore c k).free = s.free := rfl
@[simp] theorem State.setCore_fresh (s : State) (c : Nat) (k : CoreState) : (s.setCore c k).fresh = s.fresh := rfl

@[simp] theorem State.modCore_strands (s : State) (c : Nat) (f : CoreState → CoreState) : (s.modCore c f).strands = s.strands := rfl
@[simp] theorem State.modCore_clusters (s : State) (c : Nat) (f : CoreState → CoreState) : (s.modCore c f).clusters = s.clusters := rfl
@[simp] theorem State.modCore_engines (s : State) (c : Nat) (f : CoreState → CoreState) : (s.modCore c f).engines = s.engines := rfl
@[simp] theorem State.modCore_mem (s : State) (c : Nat) (f : CoreState → CoreState) : (s.modCore c f).mem = s.mem := rfl
@[simp] theorem State.modCore_caches (s : State) (c : Nat) (f : CoreState → CoreState) : (s.modCore c f).caches = s.caches := rfl
@[simp] theorem State.modCore_waiters (s : State) (c : Nat) (f : CoreState → CoreState) : (s.modCore c f).waiters = s.waiters := rfl
@[simp] theorem State.modCore_boxes (s : State) (c : Nat) (f : CoreState → CoreState) : (s.modCore c f).boxes = s.boxes := rfl
@[simp] theorem State.modCore_copies (s : State) (c : Nat) (f : CoreState → CoreState) : (s.modCore c f).copies = s.copies := rfl
@[simp] theorem State.modCore_contexts (s : State) (c : Nat) (f : CoreState → CoreState) : (s.modCore c f).contexts = s.contexts := rfl
@[simp] theorem State.modCore_keySlots (s : State) (c : Nat) (f : CoreState → CoreState) : (s.modCore c f).keySlots = s.keySlots := rfl
@[simp] theorem State.modCore_groups (s : State) (c : Nat) (f : CoreState → CoreState) : (s.modCore c f).groups = s.groups := rfl
@[simp] theorem State.modCore_saved (s : State) (c : Nat) (f : CoreState → CoreState) : (s.modCore c f).saved = s.saved := rfl
@[simp] theorem State.modCore_images (s : State) (c : Nat) (f : CoreState → CoreState) : (s.modCore c f).images = s.images := rfl
@[simp] theorem State.modCore_partitions (s : State) (c : Nat) (f : CoreState → CoreState) : (s.modCore c f).partitions = s.partitions := rfl
@[simp] theorem State.modCore_invals (s : State) (c : Nat) (f : CoreState → CoreState) : (s.modCore c f).invals = s.invals := rfl
@[simp] theorem State.modCore_queues (s : State) (c : Nat) (f : CoreState → CoreState) : (s.modCore c f).queues = s.queues := rfl
@[simp] theorem State.modCore_ttable (s : State) (c : Nat) (f : CoreState → CoreState) : (s.modCore c f).ttable = s.ttable := rfl
@[simp] theorem State.modCore_ttNext (s : State) (c : Nat) (f : CoreState → CoreState) : (s.modCore c f).ttNext = s.ttNext := rfl
@[simp] theorem State.modCore_ttSlot (s : State) (c : Nat) (f : CoreState → CoreState) : (s.modCore c f).ttSlot = s.ttSlot := rfl
@[simp] theorem State.modCore_kernels (s : State) (c : Nat) (f : CoreState → CoreState) : (s.modCore c f).kernels = s.kernels := rfl
@[simp] theorem State.modCore_transCache (s : State) (c : Nat) (f : CoreState → CoreState) : (s.modCore c f).transCache = s.transCache := rfl
@[simp] theorem State.modCore_urgentTable (s : State) (c : Nat) (f : CoreState → CoreState) : (s.modCore c f).urgentTable = s.urgentTable := rfl
@[simp] theorem State.modCore_hub (s : State) (c : Nat) (f : CoreState → CoreState) : (s.modCore c f).hub = s.hub := rfl
@[simp] theorem State.modCore_clk (s : State) (c : Nat) (f : CoreState → CoreState) : (s.modCore c f).clk = s.clk := rfl
@[simp] theorem State.modCore_cur (s : State) (c : Nat) (f : CoreState → CoreState) : (s.modCore c f).cur = s.cur := rfl
@[simp] theorem State.modCore_cut (s : State) (c : Nat) (f : CoreState → CoreState) : (s.modCore c f).cut = s.cut := rfl
@[simp] theorem State.modCore_replay (s : State) (c : Nat) (f : CoreState → CoreState) : (s.modCore c f).replay = s.replay := rfl
@[simp] theorem State.modCore_agenda (s : State) (c : Nat) (f : CoreState → CoreState) : (s.modCore c f).agenda = s.agenda := rfl
@[simp] theorem State.modCore_focus (s : State) (c : Nat) (f : CoreState → CoreState) : (s.modCore c f).focus = s.focus := rfl
@[simp] theorem State.modCore_free (s : State) (c : Nat) (f : CoreState → CoreState) : (s.modCore c f).free = s.free := rfl
@[simp] theorem State.modCore_fresh (s : State) (c : Nat) (f : CoreState → CoreState) : (s.modCore c f).fresh = s.fresh := rfl

@[simp] theorem State.modCluster_strands (s : State) (c : Nat) (f : ClusterState → ClusterState) : (s.modCluster c f).strands = s.strands := rfl
@[simp] theorem State.modCluster_cores (s : State) (c : Nat) (f : ClusterState → ClusterState) : (s.modCluster c f).cores = s.cores := rfl
@[simp] theorem State.modCluster_engines (s : State) (c : Nat) (f : ClusterState → ClusterState) : (s.modCluster c f).engines = s.engines := rfl
@[simp] theorem State.modCluster_mem (s : State) (c : Nat) (f : ClusterState → ClusterState) : (s.modCluster c f).mem = s.mem := rfl
@[simp] theorem State.modCluster_caches (s : State) (c : Nat) (f : ClusterState → ClusterState) : (s.modCluster c f).caches = s.caches := rfl
@[simp] theorem State.modCluster_waiters (s : State) (c : Nat) (f : ClusterState → ClusterState) : (s.modCluster c f).waiters = s.waiters := rfl
@[simp] theorem State.modCluster_boxes (s : State) (c : Nat) (f : ClusterState → ClusterState) : (s.modCluster c f).boxes = s.boxes := rfl
@[simp] theorem State.modCluster_copies (s : State) (c : Nat) (f : ClusterState → ClusterState) : (s.modCluster c f).copies = s.copies := rfl
@[simp] theorem State.modCluster_contexts (s : State) (c : Nat) (f : ClusterState → ClusterState) : (s.modCluster c f).contexts = s.contexts := rfl
@[simp] theorem State.modCluster_keySlots (s : State) (c : Nat) (f : ClusterState → ClusterState) : (s.modCluster c f).keySlots = s.keySlots := rfl
@[simp] theorem State.modCluster_groups (s : State) (c : Nat) (f : ClusterState → ClusterState) : (s.modCluster c f).groups = s.groups := rfl
@[simp] theorem State.modCluster_saved (s : State) (c : Nat) (f : ClusterState → ClusterState) : (s.modCluster c f).saved = s.saved := rfl
@[simp] theorem State.modCluster_images (s : State) (c : Nat) (f : ClusterState → ClusterState) : (s.modCluster c f).images = s.images := rfl
@[simp] theorem State.modCluster_partitions (s : State) (c : Nat) (f : ClusterState → ClusterState) : (s.modCluster c f).partitions = s.partitions := rfl
@[simp] theorem State.modCluster_invals (s : State) (c : Nat) (f : ClusterState → ClusterState) : (s.modCluster c f).invals = s.invals := rfl
@[simp] theorem State.modCluster_queues (s : State) (c : Nat) (f : ClusterState → ClusterState) : (s.modCluster c f).queues = s.queues := rfl
@[simp] theorem State.modCluster_ttable (s : State) (c : Nat) (f : ClusterState → ClusterState) : (s.modCluster c f).ttable = s.ttable := rfl
@[simp] theorem State.modCluster_ttNext (s : State) (c : Nat) (f : ClusterState → ClusterState) : (s.modCluster c f).ttNext = s.ttNext := rfl
@[simp] theorem State.modCluster_ttSlot (s : State) (c : Nat) (f : ClusterState → ClusterState) : (s.modCluster c f).ttSlot = s.ttSlot := rfl
@[simp] theorem State.modCluster_kernels (s : State) (c : Nat) (f : ClusterState → ClusterState) : (s.modCluster c f).kernels = s.kernels := rfl
@[simp] theorem State.modCluster_transCache (s : State) (c : Nat) (f : ClusterState → ClusterState) : (s.modCluster c f).transCache = s.transCache := rfl
@[simp] theorem State.modCluster_urgentTable (s : State) (c : Nat) (f : ClusterState → ClusterState) : (s.modCluster c f).urgentTable = s.urgentTable := rfl
@[simp] theorem State.modCluster_hub (s : State) (c : Nat) (f : ClusterState → ClusterState) : (s.modCluster c f).hub = s.hub := rfl
@[simp] theorem State.modCluster_clk (s : State) (c : Nat) (f : ClusterState → ClusterState) : (s.modCluster c f).clk = s.clk := rfl
@[simp] theorem State.modCluster_cur (s : State) (c : Nat) (f : ClusterState → ClusterState) : (s.modCluster c f).cur = s.cur := rfl
@[simp] theorem State.modCluster_cut (s : State) (c : Nat) (f : ClusterState → ClusterState) : (s.modCluster c f).cut = s.cut := rfl
@[simp] theorem State.modCluster_replay (s : State) (c : Nat) (f : ClusterState → ClusterState) : (s.modCluster c f).replay = s.replay := rfl
@[simp] theorem State.modCluster_agenda (s : State) (c : Nat) (f : ClusterState → ClusterState) : (s.modCluster c f).agenda = s.agenda := rfl
@[simp] theorem State.modCluster_focus (s : State) (c : Nat) (f : ClusterState → ClusterState) : (s.modCluster c f).focus = s.focus := rfl
@[simp] theorem State.modCluster_free (s : State) (c : Nat) (f : ClusterState → ClusterState) : (s.modCluster c f).free = s.free := rfl
@[simp] theorem State.modCluster_fresh (s : State) (c : Nat) (f : ClusterState → ClusterState) : (s.modCluster c f).fresh = s.fresh := rfl

@[simp] theorem State.modEngine_strands (s : State) (c : Nat) (f : Engine → Engine) : (s.modEngine c f).strands = s.strands := rfl
@[simp] theorem State.modEngine_cores (s : State) (c : Nat) (f : Engine → Engine) : (s.modEngine c f).cores = s.cores := rfl
@[simp] theorem State.modEngine_clusters (s : State) (c : Nat) (f : Engine → Engine) : (s.modEngine c f).clusters = s.clusters := rfl
@[simp] theorem State.modEngine_mem (s : State) (c : Nat) (f : Engine → Engine) : (s.modEngine c f).mem = s.mem := rfl
@[simp] theorem State.modEngine_caches (s : State) (c : Nat) (f : Engine → Engine) : (s.modEngine c f).caches = s.caches := rfl
@[simp] theorem State.modEngine_waiters (s : State) (c : Nat) (f : Engine → Engine) : (s.modEngine c f).waiters = s.waiters := rfl
@[simp] theorem State.modEngine_boxes (s : State) (c : Nat) (f : Engine → Engine) : (s.modEngine c f).boxes = s.boxes := rfl
@[simp] theorem State.modEngine_copies (s : State) (c : Nat) (f : Engine → Engine) : (s.modEngine c f).copies = s.copies := rfl
@[simp] theorem State.modEngine_contexts (s : State) (c : Nat) (f : Engine → Engine) : (s.modEngine c f).contexts = s.contexts := rfl
@[simp] theorem State.modEngine_keySlots (s : State) (c : Nat) (f : Engine → Engine) : (s.modEngine c f).keySlots = s.keySlots := rfl
@[simp] theorem State.modEngine_groups (s : State) (c : Nat) (f : Engine → Engine) : (s.modEngine c f).groups = s.groups := rfl
@[simp] theorem State.modEngine_saved (s : State) (c : Nat) (f : Engine → Engine) : (s.modEngine c f).saved = s.saved := rfl
@[simp] theorem State.modEngine_images (s : State) (c : Nat) (f : Engine → Engine) : (s.modEngine c f).images = s.images := rfl
@[simp] theorem State.modEngine_partitions (s : State) (c : Nat) (f : Engine → Engine) : (s.modEngine c f).partitions = s.partitions := rfl
@[simp] theorem State.modEngine_invals (s : State) (c : Nat) (f : Engine → Engine) : (s.modEngine c f).invals = s.invals := rfl
@[simp] theorem State.modEngine_queues (s : State) (c : Nat) (f : Engine → Engine) : (s.modEngine c f).queues = s.queues := rfl
@[simp] theorem State.modEngine_ttable (s : State) (c : Nat) (f : Engine → Engine) : (s.modEngine c f).ttable = s.ttable := rfl
@[simp] theorem State.modEngine_ttNext (s : State) (c : Nat) (f : Engine → Engine) : (s.modEngine c f).ttNext = s.ttNext := rfl
@[simp] theorem State.modEngine_ttSlot (s : State) (c : Nat) (f : Engine → Engine) : (s.modEngine c f).ttSlot = s.ttSlot := rfl
@[simp] theorem State.modEngine_kernels (s : State) (c : Nat) (f : Engine → Engine) : (s.modEngine c f).kernels = s.kernels := rfl
@[simp] theorem State.modEngine_transCache (s : State) (c : Nat) (f : Engine → Engine) : (s.modEngine c f).transCache = s.transCache := rfl
@[simp] theorem State.modEngine_urgentTable (s : State) (c : Nat) (f : Engine → Engine) : (s.modEngine c f).urgentTable = s.urgentTable := rfl
@[simp] theorem State.modEngine_hub (s : State) (c : Nat) (f : Engine → Engine) : (s.modEngine c f).hub = s.hub := rfl
@[simp] theorem State.modEngine_clk (s : State) (c : Nat) (f : Engine → Engine) : (s.modEngine c f).clk = s.clk := rfl
@[simp] theorem State.modEngine_cur (s : State) (c : Nat) (f : Engine → Engine) : (s.modEngine c f).cur = s.cur := rfl
@[simp] theorem State.modEngine_cut (s : State) (c : Nat) (f : Engine → Engine) : (s.modEngine c f).cut = s.cut := rfl
@[simp] theorem State.modEngine_replay (s : State) (c : Nat) (f : Engine → Engine) : (s.modEngine c f).replay = s.replay := rfl
@[simp] theorem State.modEngine_agenda (s : State) (c : Nat) (f : Engine → Engine) : (s.modEngine c f).agenda = s.agenda := rfl
@[simp] theorem State.modEngine_focus (s : State) (c : Nat) (f : Engine → Engine) : (s.modEngine c f).focus = s.focus := rfl
@[simp] theorem State.modEngine_free (s : State) (c : Nat) (f : Engine → Engine) : (s.modEngine c f).free = s.free := rfl
@[simp] theorem State.modEngine_fresh (s : State) (c : Nat) (f : Engine → Engine) : (s.modEngine c f).fresh = s.fresh := rfl

@[simp] theorem State.modHub_strands (s : State) (f : Hub → Hub) : (s.modHub f).strands = s.strands := rfl
@[simp] theorem State.modHub_cores (s : State) (f : Hub → Hub) : (s.modHub f).cores = s.cores := rfl
@[simp] theorem State.modHub_clusters (s : State) (f : Hub → Hub) : (s.modHub f).clusters = s.clusters := rfl
@[simp] theorem State.modHub_engines (s : State) (f : Hub → Hub) : (s.modHub f).engines = s.engines := rfl
@[simp] theorem State.modHub_mem (s : State) (f : Hub → Hub) : (s.modHub f).mem = s.mem := rfl
@[simp] theorem State.modHub_caches (s : State) (f : Hub → Hub) : (s.modHub f).caches = s.caches := rfl
@[simp] theorem State.modHub_waiters (s : State) (f : Hub → Hub) : (s.modHub f).waiters = s.waiters := rfl
@[simp] theorem State.modHub_boxes (s : State) (f : Hub → Hub) : (s.modHub f).boxes = s.boxes := rfl
@[simp] theorem State.modHub_copies (s : State) (f : Hub → Hub) : (s.modHub f).copies = s.copies := rfl
@[simp] theorem State.modHub_contexts (s : State) (f : Hub → Hub) : (s.modHub f).contexts = s.contexts := rfl
@[simp] theorem State.modHub_keySlots (s : State) (f : Hub → Hub) : (s.modHub f).keySlots = s.keySlots := rfl
@[simp] theorem State.modHub_groups (s : State) (f : Hub → Hub) : (s.modHub f).groups = s.groups := rfl
@[simp] theorem State.modHub_saved (s : State) (f : Hub → Hub) : (s.modHub f).saved = s.saved := rfl
@[simp] theorem State.modHub_images (s : State) (f : Hub → Hub) : (s.modHub f).images = s.images := rfl
@[simp] theorem State.modHub_partitions (s : State) (f : Hub → Hub) : (s.modHub f).partitions = s.partitions := rfl
@[simp] theorem State.modHub_invals (s : State) (f : Hub → Hub) : (s.modHub f).invals = s.invals := rfl
@[simp] theorem State.modHub_queues (s : State) (f : Hub → Hub) : (s.modHub f).queues = s.queues := rfl
@[simp] theorem State.modHub_ttable (s : State) (f : Hub → Hub) : (s.modHub f).ttable = s.ttable := rfl
@[simp] theorem State.modHub_ttNext (s : State) (f : Hub → Hub) : (s.modHub f).ttNext = s.ttNext := rfl
@[simp] theorem State.modHub_ttSlot (s : State) (f : Hub → Hub) : (s.modHub f).ttSlot = s.ttSlot := rfl
@[simp] theorem State.modHub_kernels (s : State) (f : Hub → Hub) : (s.modHub f).kernels = s.kernels := rfl
@[simp] theorem State.modHub_transCache (s : State) (f : Hub → Hub) : (s.modHub f).transCache = s.transCache := rfl
@[simp] theorem State.modHub_urgentTable (s : State) (f : Hub → Hub) : (s.modHub f).urgentTable = s.urgentTable := rfl
@[simp] theorem State.modHub_clk (s : State) (f : Hub → Hub) : (s.modHub f).clk = s.clk := rfl
@[simp] theorem State.modHub_cur (s : State) (f : Hub → Hub) : (s.modHub f).cur = s.cur := rfl
@[simp] theorem State.modHub_cut (s : State) (f : Hub → Hub) : (s.modHub f).cut = s.cut := rfl
@[simp] theorem State.modHub_replay (s : State) (f : Hub → Hub) : (s.modHub f).replay = s.replay := rfl
@[simp] theorem State.modHub_agenda (s : State) (f : Hub → Hub) : (s.modHub f).agenda = s.agenda := rfl
@[simp] theorem State.modHub_focus (s : State) (f : Hub → Hub) : (s.modHub f).focus = s.focus := rfl
@[simp] theorem State.modHub_free (s : State) (f : Hub → Hub) : (s.modHub f).free = s.free := rfl
@[simp] theorem State.modHub_fresh (s : State) (f : Hub → Hub) : (s.modHub f).fresh = s.fresh := rfl

@[simp] theorem State.setV_cores (s : State) (r : VReg) (w : VWord) : (s.setV r w).cores = s.cores := rfl
@[simp] theorem State.setV_clusters (s : State) (r : VReg) (w : VWord) : (s.setV r w).clusters = s.clusters := rfl
@[simp] theorem State.setV_engines (s : State) (r : VReg) (w : VWord) : (s.setV r w).engines = s.engines := rfl
@[simp] theorem State.setV_mem (s : State) (r : VReg) (w : VWord) : (s.setV r w).mem = s.mem := rfl
@[simp] theorem State.setV_caches (s : State) (r : VReg) (w : VWord) : (s.setV r w).caches = s.caches := rfl
@[simp] theorem State.setV_waiters (s : State) (r : VReg) (w : VWord) : (s.setV r w).waiters = s.waiters := rfl
@[simp] theorem State.setV_boxes (s : State) (r : VReg) (w : VWord) : (s.setV r w).boxes = s.boxes := rfl
@[simp] theorem State.setV_copies (s : State) (r : VReg) (w : VWord) : (s.setV r w).copies = s.copies := rfl
@[simp] theorem State.setV_contexts (s : State) (r : VReg) (w : VWord) : (s.setV r w).contexts = s.contexts := rfl
@[simp] theorem State.setV_keySlots (s : State) (r : VReg) (w : VWord) : (s.setV r w).keySlots = s.keySlots := rfl
@[simp] theorem State.setV_groups (s : State) (r : VReg) (w : VWord) : (s.setV r w).groups = s.groups := rfl
@[simp] theorem State.setV_saved (s : State) (r : VReg) (w : VWord) : (s.setV r w).saved = s.saved := rfl
@[simp] theorem State.setV_images (s : State) (r : VReg) (w : VWord) : (s.setV r w).images = s.images := rfl
@[simp] theorem State.setV_partitions (s : State) (r : VReg) (w : VWord) : (s.setV r w).partitions = s.partitions := rfl
@[simp] theorem State.setV_invals (s : State) (r : VReg) (w : VWord) : (s.setV r w).invals = s.invals := rfl
@[simp] theorem State.setV_queues (s : State) (r : VReg) (w : VWord) : (s.setV r w).queues = s.queues := rfl
@[simp] theorem State.setV_ttable (s : State) (r : VReg) (w : VWord) : (s.setV r w).ttable = s.ttable := rfl
@[simp] theorem State.setV_ttNext (s : State) (r : VReg) (w : VWord) : (s.setV r w).ttNext = s.ttNext := rfl
@[simp] theorem State.setV_ttSlot (s : State) (r : VReg) (w : VWord) : (s.setV r w).ttSlot = s.ttSlot := rfl
@[simp] theorem State.setV_kernels (s : State) (r : VReg) (w : VWord) : (s.setV r w).kernels = s.kernels := rfl
@[simp] theorem State.setV_transCache (s : State) (r : VReg) (w : VWord) : (s.setV r w).transCache = s.transCache := rfl
@[simp] theorem State.setV_urgentTable (s : State) (r : VReg) (w : VWord) : (s.setV r w).urgentTable = s.urgentTable := rfl
@[simp] theorem State.setV_hub (s : State) (r : VReg) (w : VWord) : (s.setV r w).hub = s.hub := rfl
@[simp] theorem State.setV_clk (s : State) (r : VReg) (w : VWord) : (s.setV r w).clk = s.clk := rfl
@[simp] theorem State.setV_cur (s : State) (r : VReg) (w : VWord) : (s.setV r w).cur = s.cur := rfl
@[simp] theorem State.setV_cut (s : State) (r : VReg) (w : VWord) : (s.setV r w).cut = s.cut := rfl
@[simp] theorem State.setV_replay (s : State) (r : VReg) (w : VWord) : (s.setV r w).replay = s.replay := rfl
@[simp] theorem State.setV_agenda (s : State) (r : VReg) (w : VWord) : (s.setV r w).agenda = s.agenda := rfl
@[simp] theorem State.setV_focus (s : State) (r : VReg) (w : VWord) : (s.setV r w).focus = s.focus := rfl
@[simp] theorem State.setV_free (s : State) (r : VReg) (w : VWord) : (s.setV r w).free = s.free := rfl
@[simp] theorem State.setV_fresh (s : State) (r : VReg) (w : VWord) : (s.setV r w).fresh = s.fresh := rfl

@[simp] theorem State.tick_strands (s : State) (n : Nat) : (s.tick n).strands = s.strands := rfl
@[simp] theorem State.tick_cores (s : State) (n : Nat) : (s.tick n).cores = s.cores := rfl
@[simp] theorem State.tick_clusters (s : State) (n : Nat) : (s.tick n).clusters = s.clusters := rfl
@[simp] theorem State.tick_engines (s : State) (n : Nat) : (s.tick n).engines = s.engines := rfl
@[simp] theorem State.tick_mem (s : State) (n : Nat) : (s.tick n).mem = s.mem := rfl
@[simp] theorem State.tick_caches (s : State) (n : Nat) : (s.tick n).caches = s.caches := rfl
@[simp] theorem State.tick_waiters (s : State) (n : Nat) : (s.tick n).waiters = s.waiters := rfl
@[simp] theorem State.tick_boxes (s : State) (n : Nat) : (s.tick n).boxes = s.boxes := rfl
@[simp] theorem State.tick_copies (s : State) (n : Nat) : (s.tick n).copies = s.copies := rfl
@[simp] theorem State.tick_contexts (s : State) (n : Nat) : (s.tick n).contexts = s.contexts := rfl
@[simp] theorem State.tick_keySlots (s : State) (n : Nat) : (s.tick n).keySlots = s.keySlots := rfl
@[simp] theorem State.tick_groups (s : State) (n : Nat) : (s.tick n).groups = s.groups := rfl
@[simp] theorem State.tick_saved (s : State) (n : Nat) : (s.tick n).saved = s.saved := rfl
@[simp] theorem State.tick_images (s : State) (n : Nat) : (s.tick n).images = s.images := rfl
@[simp] theorem State.tick_partitions (s : State) (n : Nat) : (s.tick n).partitions = s.partitions := rfl
@[simp] theorem State.tick_invals (s : State) (n : Nat) : (s.tick n).invals = s.invals := rfl
@[simp] theorem State.tick_queues (s : State) (n : Nat) : (s.tick n).queues = s.queues := rfl
@[simp] theorem State.tick_ttable (s : State) (n : Nat) : (s.tick n).ttable = s.ttable := rfl
@[simp] theorem State.tick_ttNext (s : State) (n : Nat) : (s.tick n).ttNext = s.ttNext := rfl
@[simp] theorem State.tick_ttSlot (s : State) (n : Nat) : (s.tick n).ttSlot = s.ttSlot := rfl
@[simp] theorem State.tick_kernels (s : State) (n : Nat) : (s.tick n).kernels = s.kernels := rfl
@[simp] theorem State.tick_transCache (s : State) (n : Nat) : (s.tick n).transCache = s.transCache := rfl
@[simp] theorem State.tick_urgentTable (s : State) (n : Nat) : (s.tick n).urgentTable = s.urgentTable := rfl
@[simp] theorem State.tick_hub (s : State) (n : Nat) : (s.tick n).hub = s.hub := rfl
@[simp] theorem State.tick_cur (s : State) (n : Nat) : (s.tick n).cur = s.cur := rfl
@[simp] theorem State.tick_cut (s : State) (n : Nat) : (s.tick n).cut = s.cut := rfl
@[simp] theorem State.tick_replay (s : State) (n : Nat) : (s.tick n).replay = s.replay := rfl
@[simp] theorem State.tick_agenda (s : State) (n : Nat) : (s.tick n).agenda = s.agenda := rfl
@[simp] theorem State.tick_focus (s : State) (n : Nat) : (s.tick n).focus = s.focus := rfl
@[simp] theorem State.tick_free (s : State) (n : Nat) : (s.tick n).free = s.free := rfl
@[simp] theorem State.tick_fresh (s : State) (n : Nat) : (s.tick n).fresh = s.fresh := rfl

@[simp] theorem State.logEvent_strands (s : State) (a b : Nat) (c : Cause) (d : Nat) (e : Word) (f : Nat) : (s.logEvent a b c d e f).strands = s.strands := rfl
@[simp] theorem State.logEvent_cores (s : State) (a b : Nat) (c : Cause) (d : Nat) (e : Word) (f : Nat) : (s.logEvent a b c d e f).cores = s.cores := rfl
@[simp] theorem State.logEvent_clusters (s : State) (a b : Nat) (c : Cause) (d : Nat) (e : Word) (f : Nat) : (s.logEvent a b c d e f).clusters = s.clusters := rfl
@[simp] theorem State.logEvent_engines (s : State) (a b : Nat) (c : Cause) (d : Nat) (e : Word) (f : Nat) : (s.logEvent a b c d e f).engines = s.engines := rfl
@[simp] theorem State.logEvent_mem (s : State) (a b : Nat) (c : Cause) (d : Nat) (e : Word) (f : Nat) : (s.logEvent a b c d e f).mem = s.mem := rfl
@[simp] theorem State.logEvent_caches (s : State) (a b : Nat) (c : Cause) (d : Nat) (e : Word) (f : Nat) : (s.logEvent a b c d e f).caches = s.caches := rfl
@[simp] theorem State.logEvent_waiters (s : State) (a b : Nat) (c : Cause) (d : Nat) (e : Word) (f : Nat) : (s.logEvent a b c d e f).waiters = s.waiters := rfl
@[simp] theorem State.logEvent_boxes (s : State) (a b : Nat) (c : Cause) (d : Nat) (e : Word) (f : Nat) : (s.logEvent a b c d e f).boxes = s.boxes := rfl
@[simp] theorem State.logEvent_copies (s : State) (a b : Nat) (c : Cause) (d : Nat) (e : Word) (f : Nat) : (s.logEvent a b c d e f).copies = s.copies := rfl
@[simp] theorem State.logEvent_contexts (s : State) (a b : Nat) (c : Cause) (d : Nat) (e : Word) (f : Nat) : (s.logEvent a b c d e f).contexts = s.contexts := rfl
@[simp] theorem State.logEvent_keySlots (s : State) (a b : Nat) (c : Cause) (d : Nat) (e : Word) (f : Nat) : (s.logEvent a b c d e f).keySlots = s.keySlots := rfl
@[simp] theorem State.logEvent_groups (s : State) (a b : Nat) (c : Cause) (d : Nat) (e : Word) (f : Nat) : (s.logEvent a b c d e f).groups = s.groups := rfl
@[simp] theorem State.logEvent_saved (s : State) (a b : Nat) (c : Cause) (d : Nat) (e : Word) (f : Nat) : (s.logEvent a b c d e f).saved = s.saved := rfl
@[simp] theorem State.logEvent_images (s : State) (a b : Nat) (c : Cause) (d : Nat) (e : Word) (f : Nat) : (s.logEvent a b c d e f).images = s.images := rfl
@[simp] theorem State.logEvent_partitions (s : State) (a b : Nat) (c : Cause) (d : Nat) (e : Word) (f : Nat) : (s.logEvent a b c d e f).partitions = s.partitions := rfl
@[simp] theorem State.logEvent_invals (s : State) (a b : Nat) (c : Cause) (d : Nat) (e : Word) (f : Nat) : (s.logEvent a b c d e f).invals = s.invals := rfl
@[simp] theorem State.logEvent_queues (s : State) (a b : Nat) (c : Cause) (d : Nat) (e : Word) (f : Nat) : (s.logEvent a b c d e f).queues = s.queues := rfl
@[simp] theorem State.logEvent_ttable (s : State) (a b : Nat) (c : Cause) (d : Nat) (e : Word) (f : Nat) : (s.logEvent a b c d e f).ttable = s.ttable := rfl
@[simp] theorem State.logEvent_ttNext (s : State) (a b : Nat) (c : Cause) (d : Nat) (e : Word) (f : Nat) : (s.logEvent a b c d e f).ttNext = s.ttNext := rfl
@[simp] theorem State.logEvent_ttSlot (s : State) (a b : Nat) (c : Cause) (d : Nat) (e : Word) (f : Nat) : (s.logEvent a b c d e f).ttSlot = s.ttSlot := rfl
@[simp] theorem State.logEvent_kernels (s : State) (a b : Nat) (c : Cause) (d : Nat) (e : Word) (f : Nat) : (s.logEvent a b c d e f).kernels = s.kernels := rfl
@[simp] theorem State.logEvent_transCache (s : State) (a b : Nat) (c : Cause) (d : Nat) (e : Word) (f : Nat) : (s.logEvent a b c d e f).transCache = s.transCache := rfl
@[simp] theorem State.logEvent_urgentTable (s : State) (a b : Nat) (c : Cause) (d : Nat) (e : Word) (f : Nat) : (s.logEvent a b c d e f).urgentTable = s.urgentTable := rfl
@[simp] theorem State.logEvent_clk (s : State) (a b : Nat) (c : Cause) (d : Nat) (e : Word) (f : Nat) : (s.logEvent a b c d e f).clk = s.clk := rfl
@[simp] theorem State.logEvent_cur (s : State) (a b : Nat) (c : Cause) (d : Nat) (e : Word) (f : Nat) : (s.logEvent a b c d e f).cur = s.cur := rfl
@[simp] theorem State.logEvent_cut (s : State) (a b : Nat) (c : Cause) (d : Nat) (e : Word) (f : Nat) : (s.logEvent a b c d e f).cut = s.cut := rfl
@[simp] theorem State.logEvent_replay (s : State) (a b : Nat) (c : Cause) (d : Nat) (e : Word) (f : Nat) : (s.logEvent a b c d e f).replay = s.replay := rfl
@[simp] theorem State.logEvent_agenda (s : State) (a b : Nat) (c : Cause) (d : Nat) (e : Word) (f : Nat) : (s.logEvent a b c d e f).agenda = s.agenda := rfl
@[simp] theorem State.logEvent_focus (s : State) (a b : Nat) (c : Cause) (d : Nat) (e : Word) (f : Nat) : (s.logEvent a b c d e f).focus = s.focus := rfl
@[simp] theorem State.logEvent_free (s : State) (a b : Nat) (c : Cause) (d : Nat) (e : Word) (f : Nat) : (s.logEvent a b c d e f).free = s.free := rfl
@[simp] theorem State.logEvent_fresh (s : State) (a b : Nat) (c : Cause) (d : Nat) (e : Word) (f : Nat) : (s.logEvent a b c d e f).fresh = s.fresh := rfl

@[simp] theorem State.tellHost_strands (s : State) (v : Nat) : (s.tellHost v).strands = s.strands := rfl
@[simp] theorem State.tellHost_cores (s : State) (v : Nat) : (s.tellHost v).cores = s.cores := rfl
@[simp] theorem State.tellHost_clusters (s : State) (v : Nat) : (s.tellHost v).clusters = s.clusters := rfl
@[simp] theorem State.tellHost_engines (s : State) (v : Nat) : (s.tellHost v).engines = s.engines := rfl
@[simp] theorem State.tellHost_mem (s : State) (v : Nat) : (s.tellHost v).mem = s.mem := rfl
@[simp] theorem State.tellHost_caches (s : State) (v : Nat) : (s.tellHost v).caches = s.caches := rfl
@[simp] theorem State.tellHost_waiters (s : State) (v : Nat) : (s.tellHost v).waiters = s.waiters := rfl
@[simp] theorem State.tellHost_boxes (s : State) (v : Nat) : (s.tellHost v).boxes = s.boxes := rfl
@[simp] theorem State.tellHost_copies (s : State) (v : Nat) : (s.tellHost v).copies = s.copies := rfl
@[simp] theorem State.tellHost_contexts (s : State) (v : Nat) : (s.tellHost v).contexts = s.contexts := rfl
@[simp] theorem State.tellHost_keySlots (s : State) (v : Nat) : (s.tellHost v).keySlots = s.keySlots := rfl
@[simp] theorem State.tellHost_groups (s : State) (v : Nat) : (s.tellHost v).groups = s.groups := rfl
@[simp] theorem State.tellHost_saved (s : State) (v : Nat) : (s.tellHost v).saved = s.saved := rfl
@[simp] theorem State.tellHost_images (s : State) (v : Nat) : (s.tellHost v).images = s.images := rfl
@[simp] theorem State.tellHost_partitions (s : State) (v : Nat) : (s.tellHost v).partitions = s.partitions := rfl
@[simp] theorem State.tellHost_invals (s : State) (v : Nat) : (s.tellHost v).invals = s.invals := rfl
@[simp] theorem State.tellHost_queues (s : State) (v : Nat) : (s.tellHost v).queues = s.queues := rfl
@[simp] theorem State.tellHost_ttable (s : State) (v : Nat) : (s.tellHost v).ttable = s.ttable := rfl
@[simp] theorem State.tellHost_ttNext (s : State) (v : Nat) : (s.tellHost v).ttNext = s.ttNext := rfl
@[simp] theorem State.tellHost_ttSlot (s : State) (v : Nat) : (s.tellHost v).ttSlot = s.ttSlot := rfl
@[simp] theorem State.tellHost_kernels (s : State) (v : Nat) : (s.tellHost v).kernels = s.kernels := rfl
@[simp] theorem State.tellHost_transCache (s : State) (v : Nat) : (s.tellHost v).transCache = s.transCache := rfl
@[simp] theorem State.tellHost_urgentTable (s : State) (v : Nat) : (s.tellHost v).urgentTable = s.urgentTable := rfl
@[simp] theorem State.tellHost_clk (s : State) (v : Nat) : (s.tellHost v).clk = s.clk := rfl
@[simp] theorem State.tellHost_cur (s : State) (v : Nat) : (s.tellHost v).cur = s.cur := rfl
@[simp] theorem State.tellHost_cut (s : State) (v : Nat) : (s.tellHost v).cut = s.cut := rfl
@[simp] theorem State.tellHost_replay (s : State) (v : Nat) : (s.tellHost v).replay = s.replay := rfl
@[simp] theorem State.tellHost_agenda (s : State) (v : Nat) : (s.tellHost v).agenda = s.agenda := rfl
@[simp] theorem State.tellHost_focus (s : State) (v : Nat) : (s.tellHost v).focus = s.focus := rfl
@[simp] theorem State.tellHost_free (s : State) (v : Nat) : (s.tellHost v).free = s.free := rfl
@[simp] theorem State.tellHost_fresh (s : State) (v : Nat) : (s.tellHost v).fresh = s.fresh := rfl

@[simp] theorem State.setX_clusters (s : State) (r : IntReg) (w : Word) : (s.setX r w).clusters = s.clusters := by unfold State.setX; (repeat' split) <;> rfl
@[simp] theorem State.setX_engines (s : State) (r : IntReg) (w : Word) : (s.setX r w).engines = s.engines := by unfold State.setX; (repeat' split) <;> rfl
@[simp] theorem State.setX_mem (s : State) (r : IntReg) (w : Word) : (s.setX r w).mem = s.mem := by unfold State.setX; (repeat' split) <;> rfl
@[simp] theorem State.setX_caches (s : State) (r : IntReg) (w : Word) : (s.setX r w).caches = s.caches := by unfold State.setX; (repeat' split) <;> rfl
@[simp] theorem State.setX_waiters (s : State) (r : IntReg) (w : Word) : (s.setX r w).waiters = s.waiters := by unfold State.setX; (repeat' split) <;> rfl
@[simp] theorem State.setX_boxes (s : State) (r : IntReg) (w : Word) : (s.setX r w).boxes = s.boxes := by unfold State.setX; (repeat' split) <;> rfl
@[simp] theorem State.setX_copies (s : State) (r : IntReg) (w : Word) : (s.setX r w).copies = s.copies := by unfold State.setX; (repeat' split) <;> rfl
@[simp] theorem State.setX_contexts (s : State) (r : IntReg) (w : Word) : (s.setX r w).contexts = s.contexts := by unfold State.setX; (repeat' split) <;> rfl
@[simp] theorem State.setX_keySlots (s : State) (r : IntReg) (w : Word) : (s.setX r w).keySlots = s.keySlots := by unfold State.setX; (repeat' split) <;> rfl
@[simp] theorem State.setX_groups (s : State) (r : IntReg) (w : Word) : (s.setX r w).groups = s.groups := by unfold State.setX; (repeat' split) <;> rfl
@[simp] theorem State.setX_saved (s : State) (r : IntReg) (w : Word) : (s.setX r w).saved = s.saved := by unfold State.setX; (repeat' split) <;> rfl
@[simp] theorem State.setX_images (s : State) (r : IntReg) (w : Word) : (s.setX r w).images = s.images := by unfold State.setX; (repeat' split) <;> rfl
@[simp] theorem State.setX_partitions (s : State) (r : IntReg) (w : Word) : (s.setX r w).partitions = s.partitions := by unfold State.setX; (repeat' split) <;> rfl
@[simp] theorem State.setX_invals (s : State) (r : IntReg) (w : Word) : (s.setX r w).invals = s.invals := by unfold State.setX; (repeat' split) <;> rfl
@[simp] theorem State.setX_queues (s : State) (r : IntReg) (w : Word) : (s.setX r w).queues = s.queues := by unfold State.setX; (repeat' split) <;> rfl
@[simp] theorem State.setX_ttable (s : State) (r : IntReg) (w : Word) : (s.setX r w).ttable = s.ttable := by unfold State.setX; (repeat' split) <;> rfl
@[simp] theorem State.setX_ttNext (s : State) (r : IntReg) (w : Word) : (s.setX r w).ttNext = s.ttNext := by unfold State.setX; (repeat' split) <;> rfl
@[simp] theorem State.setX_ttSlot (s : State) (r : IntReg) (w : Word) : (s.setX r w).ttSlot = s.ttSlot := by unfold State.setX; (repeat' split) <;> rfl
@[simp] theorem State.setX_kernels (s : State) (r : IntReg) (w : Word) : (s.setX r w).kernels = s.kernels := by unfold State.setX; (repeat' split) <;> rfl
@[simp] theorem State.setX_transCache (s : State) (r : IntReg) (w : Word) : (s.setX r w).transCache = s.transCache := by unfold State.setX; (repeat' split) <;> rfl
@[simp] theorem State.setX_urgentTable (s : State) (r : IntReg) (w : Word) : (s.setX r w).urgentTable = s.urgentTable := by unfold State.setX; (repeat' split) <;> rfl
@[simp] theorem State.setX_hub (s : State) (r : IntReg) (w : Word) : (s.setX r w).hub = s.hub := by unfold State.setX; (repeat' split) <;> rfl
@[simp] theorem State.setX_clk (s : State) (r : IntReg) (w : Word) : (s.setX r w).clk = s.clk := by unfold State.setX; (repeat' split) <;> rfl
@[simp] theorem State.setX_cur (s : State) (r : IntReg) (w : Word) : (s.setX r w).cur = s.cur := by unfold State.setX; (repeat' split) <;> rfl
@[simp] theorem State.setX_cut (s : State) (r : IntReg) (w : Word) : (s.setX r w).cut = s.cut := by unfold State.setX; (repeat' split) <;> rfl
@[simp] theorem State.setX_replay (s : State) (r : IntReg) (w : Word) : (s.setX r w).replay = s.replay := by unfold State.setX; (repeat' split) <;> rfl
@[simp] theorem State.setX_agenda (s : State) (r : IntReg) (w : Word) : (s.setX r w).agenda = s.agenda := by unfold State.setX; (repeat' split) <;> rfl
@[simp] theorem State.setX_focus (s : State) (r : IntReg) (w : Word) : (s.setX r w).focus = s.focus := by unfold State.setX; (repeat' split) <;> rfl
@[simp] theorem State.setX_free (s : State) (r : IntReg) (w : Word) : (s.setX r w).free = s.free := by unfold State.setX; (repeat' split) <;> rfl
@[simp] theorem State.setX_fresh (s : State) (r : IntReg) (w : Word) : (s.setX r w).fresh = s.fresh := by unfold State.setX; (repeat' split) <;> rfl
@[simp] theorem State.setM_cores (s : State) (r : MReg) (w : MWord) : (s.setM r w).cores = s.cores := by unfold State.setM; split <;> rfl
@[simp] theorem State.setM_clusters (s : State) (r : MReg) (w : MWord) : (s.setM r w).clusters = s.clusters := by unfold State.setM; split <;> rfl
@[simp] theorem State.setM_engines (s : State) (r : MReg) (w : MWord) : (s.setM r w).engines = s.engines := by unfold State.setM; split <;> rfl
@[simp] theorem State.setM_mem (s : State) (r : MReg) (w : MWord) : (s.setM r w).mem = s.mem := by unfold State.setM; split <;> rfl
@[simp] theorem State.setM_caches (s : State) (r : MReg) (w : MWord) : (s.setM r w).caches = s.caches := by unfold State.setM; split <;> rfl
@[simp] theorem State.setM_waiters (s : State) (r : MReg) (w : MWord) : (s.setM r w).waiters = s.waiters := by unfold State.setM; split <;> rfl
@[simp] theorem State.setM_boxes (s : State) (r : MReg) (w : MWord) : (s.setM r w).boxes = s.boxes := by unfold State.setM; split <;> rfl
@[simp] theorem State.setM_copies (s : State) (r : MReg) (w : MWord) : (s.setM r w).copies = s.copies := by unfold State.setM; split <;> rfl
@[simp] theorem State.setM_contexts (s : State) (r : MReg) (w : MWord) : (s.setM r w).contexts = s.contexts := by unfold State.setM; split <;> rfl
@[simp] theorem State.setM_keySlots (s : State) (r : MReg) (w : MWord) : (s.setM r w).keySlots = s.keySlots := by unfold State.setM; split <;> rfl
@[simp] theorem State.setM_groups (s : State) (r : MReg) (w : MWord) : (s.setM r w).groups = s.groups := by unfold State.setM; split <;> rfl
@[simp] theorem State.setM_saved (s : State) (r : MReg) (w : MWord) : (s.setM r w).saved = s.saved := by unfold State.setM; split <;> rfl
@[simp] theorem State.setM_images (s : State) (r : MReg) (w : MWord) : (s.setM r w).images = s.images := by unfold State.setM; split <;> rfl
@[simp] theorem State.setM_partitions (s : State) (r : MReg) (w : MWord) : (s.setM r w).partitions = s.partitions := by unfold State.setM; split <;> rfl
@[simp] theorem State.setM_invals (s : State) (r : MReg) (w : MWord) : (s.setM r w).invals = s.invals := by unfold State.setM; split <;> rfl
@[simp] theorem State.setM_queues (s : State) (r : MReg) (w : MWord) : (s.setM r w).queues = s.queues := by unfold State.setM; split <;> rfl
@[simp] theorem State.setM_ttable (s : State) (r : MReg) (w : MWord) : (s.setM r w).ttable = s.ttable := by unfold State.setM; split <;> rfl
@[simp] theorem State.setM_ttNext (s : State) (r : MReg) (w : MWord) : (s.setM r w).ttNext = s.ttNext := by unfold State.setM; split <;> rfl
@[simp] theorem State.setM_ttSlot (s : State) (r : MReg) (w : MWord) : (s.setM r w).ttSlot = s.ttSlot := by unfold State.setM; split <;> rfl
@[simp] theorem State.setM_kernels (s : State) (r : MReg) (w : MWord) : (s.setM r w).kernels = s.kernels := by unfold State.setM; split <;> rfl
@[simp] theorem State.setM_transCache (s : State) (r : MReg) (w : MWord) : (s.setM r w).transCache = s.transCache := by unfold State.setM; split <;> rfl
@[simp] theorem State.setM_urgentTable (s : State) (r : MReg) (w : MWord) : (s.setM r w).urgentTable = s.urgentTable := by unfold State.setM; split <;> rfl
@[simp] theorem State.setM_hub (s : State) (r : MReg) (w : MWord) : (s.setM r w).hub = s.hub := by unfold State.setM; split <;> rfl
@[simp] theorem State.setM_clk (s : State) (r : MReg) (w : MWord) : (s.setM r w).clk = s.clk := by unfold State.setM; split <;> rfl
@[simp] theorem State.setM_cur (s : State) (r : MReg) (w : MWord) : (s.setM r w).cur = s.cur := by unfold State.setM; split <;> rfl
@[simp] theorem State.setM_cut (s : State) (r : MReg) (w : MWord) : (s.setM r w).cut = s.cut := by unfold State.setM; split <;> rfl
@[simp] theorem State.setM_replay (s : State) (r : MReg) (w : MWord) : (s.setM r w).replay = s.replay := by unfold State.setM; split <;> rfl
@[simp] theorem State.setM_agenda (s : State) (r : MReg) (w : MWord) : (s.setM r w).agenda = s.agenda := by unfold State.setM; split <;> rfl
@[simp] theorem State.setM_focus (s : State) (r : MReg) (w : MWord) : (s.setM r w).focus = s.focus := by unfold State.setM; split <;> rfl
@[simp] theorem State.setM_free (s : State) (r : MReg) (w : MWord) : (s.setM r w).free = s.free := by unfold State.setM; split <;> rfl
@[simp] theorem State.setM_fresh (s : State) (r : MReg) (w : MWord) : (s.setM r w).fresh = s.fresh := by unfold State.setM; split <;> rfl

/-! ## Parts after an update -/

@[simp] theorem State.strand_setStrand (s : State) (i j : StrandId) (t : Strand) :
    (s.setStrand i t).strand j = if StrandId.tid j = StrandId.tid i then t else s.strand j := by
  simp only [State.strand, State.setStrand, Sparse.get?_set]; split <;> simp

@[simp] theorem State.strand_modStrand (s : State) (i j : StrandId) (f : Strand → Strand) :
    (s.modStrand i f).strand j = if StrandId.tid j = StrandId.tid i then f (s.strand i) else s.strand j := by
  simp only [State.modStrand, State.strand_setStrand]

@[simp] theorem State.strand_modMe (s : State) (j : StrandId) (f : Strand → Strand) :
    (s.modMe f).strand j = if StrandId.tid j = StrandId.tid s.cur then f s.me else s.strand j := by
  simp only [State.modMe, State.strand_modStrand]; rfl

@[simp] theorem State.me_modMe (s : State) (f : Strand → Strand) : (s.modMe f).me = f s.me := by
  simp [State.me]

@[simp] theorem State.me_setStrand (s : State) (t : Strand) : (s.setStrand s.cur t).me = t := by
  simp [State.me]

@[simp] theorem State.core_setCore (s : State) (c d : Nat) (k : CoreState) :
    (s.setCore c k).core d = if d = c then k else s.core d := by
  simp [State.core, State.setCore]

@[simp] theorem State.core_modCore (s : State) (c d : Nat) (f : CoreState → CoreState) :
    (s.modCore c f).core d = if d = c then f (s.core c) else s.core d := by
  simp [State.modCore]

@[simp] theorem State.cluster_modCluster (s : State) (c d : Nat) (f : ClusterState → ClusterState) :
    (s.modCluster c f).cluster d = if d = c then f (s.cluster c) else s.cluster d := by
  simp [State.cluster, State.modCluster]

@[simp] theorem State.engine_modEngine (s : State) (c d : Nat) (f : Engine → Engine) :
    (s.modEngine c f).engine d = if d = c then f (s.engine c) else s.engine d := by
  simp [State.engine, State.modEngine]

@[simp] theorem State.core_setStrand (s : State) (i : StrandId) (t : Strand) (c : Nat) : (s.setStrand i t).core c = s.core c := rfl
@[simp] theorem State.core_modStrand (s : State) (i : StrandId) (f : Strand → Strand) (c : Nat) :
    (s.modStrand i f).core c = s.core c := rfl
@[simp] theorem State.core_modMe (s : State) (f : Strand → Strand) (c : Nat) : (s.modMe f).core c = s.core c := rfl
@[simp] theorem State.strand_setCore (s : State) (c : Nat) (k : CoreState) (i : StrandId) : (s.setCore c k).strand i = s.strand i := rfl
@[simp] theorem State.strand_modCore (s : State) (c : Nat) (f : CoreState → CoreState) (i : StrandId) :
    (s.modCore c f).strand i = s.strand i := rfl
@[simp] theorem State.me_modCore (s : State) (c : Nat) (f : CoreState → CoreState) : (s.modCore c f).me = s.me := rfl
@[simp] theorem State.strand_modHub (s : State) (f : Hub → Hub) (i : StrandId) : (s.modHub f).strand i = s.strand i := rfl
@[simp] theorem State.core_modHub (s : State) (f : Hub → Hub) (c : Nat) : (s.modHub f).core c = s.core c := rfl

/-! ## Registers after a write -/

theorem State.me_setX (s : State) (r : IntReg) (v : Word) :
    (s.setX r v).me = if r.toNat < 32 then s.me.putX r.toNat v else s.me := by
  unfold State.setX
  split
  · simp
  · split <;> rfl

theorem State.core_setX (s : State) (r : IntReg) (v : Word) (c : Nat) :
    (s.setX r v).core c =
      if c = s.cur.core ∧ 32 < r.toNat then { s.core c with s := Sparse.put 0 (s.core c).s (r.toNat - 32) v } else s.core c := by
  unfold State.setX
  split
  · rw [if_neg (by omega)]; rfl
  · split
    · rw [if_neg (by omega)]
    · simp only [State.core_modCore]
      by_cases h : c = s.cur.core <;> simp [h]
      intro h; omega

theorem State.strand_setX (s : State) (r : IntReg) (v : Word) (i : StrandId) (h : StrandId.tid i ≠ StrandId.tid s.cur) :
    (s.setX r v).strand i = s.strand i := by
  unfold State.setX
  split
  · simp [h]
  · split <;> rfl

theorem State.got_setX (s : State) (r : IntReg) (v : Word) : (s.setX r v).me.got = s.me.got := by
  rw [State.me_setX]; split
  · unfold Strand.putX; split <;> rfl
  · rfl

/-- A write of an integer register changes that register, unless it is `x0` or `s0`, and no other (R30). -/
theorem State.x_setX (s : State) (d r : IntReg) (v : Word) (h : s.me.got = []) :
    (s.setX d v).x r = if r = d ∧ d ≠ 0 ∧ d ≠ 32 then v else s.x r := by
  have hd : d.toNat = 0 ↔ d = 0 := by simp [← BitVec.toNat_inj]
  have hd' : d.toNat = 32 ↔ d = 32 := by simp [← BitVec.toNat_inj]
  have hr : r = d ↔ r.toNat = d.toNat := BitVec.toNat_inj.symm
  simp only [hr, ne_eq, ← hd, ← hd']
  simp only [State.x, State.shared, h, List.isEmpty_nil, if_true, State.me_setX, State.core_setX, State.setX_cur]
  unfold Strand.putX
  generalize r.toNat = a
  generalize d.toNat = b
  grind [Sparse.at_put]

theorem State.x_retireTo (s : State) (w : Word) (r : IntReg) (h : s.me.got = []) : (s.retireTo w).x r = s.x r := by
  simp [State.x, State.shared, State.retireTo, Strand.spend, Strand.goTo, h]

end Sys2Proof.Machine
end

