-- ==== Sys2Proof/Laws/Canon.lean ====
section
/-! SUPPORT. Every operation on memory keeps its canonical form, and memory has it at reset. -/

namespace Sys2Proof.Machine

theorem Mem.wf_reset : Mem.reset.wf = true := rfl

theorem Mem.wf_of_bytes {m n : Mem} (h : m.wf = true) (e : n.bytes = m.bytes) : n.wf = true := by
  unfold Mem.wf at *; rw [e]; exact h

theorem Mem.wf_filter {m n : Mem} (h : m.wf = true) (p : Host.Cell → Bool) (e : n.bytes = m.bytes.filter p) : n.wf = true := by
  unfold Mem.wf at *; rw [e]; exact Sparse.canon_filter 0 p m.bytes h

theorem Mem.wf_putByte {m : Mem} (h : m.wf = true) (c : Host.Cell) : (m.putByte c).wf = true :=
  Sparse.canon_put 0 m.bytes c.1 c.2 h

theorem Mem.wf_foldl {α : Type} {f : Mem → α → Mem} (k : ∀ m a, m.wf = true → (f m a).wf = true) {m : Mem} (h : m.wf = true)
    (l : List α) : (l.foldl f m).wf = true := by
  induction l generalizing m with
  | nil => exact h
  | cons a l ih => exact ih (k m a h)

theorem Mem.wf_putBytes {m : Mem} (h : m.wf = true) (l : List Host.Cell) : (m.putBytes l).wf = true :=
  Mem.wf_foldl (fun _ c h => Mem.wf_putByte h c) h l

theorem Mem.wf_setFull {m : Mem} (h : m.wf = true) (full : Bool) (loc : Nat) : (m.setFull full loc).wf = true := h

theorem Mem.wf_zeroFill {m : Mem} (h : m.wf = true) (loc n : Nat) : (m.zeroFill loc n).wf = true := Mem.wf_filter h _ rfl

theorem Mem.wf_claim {m : Mem} (h : m.wf = true) (c : Cred) (loc : Nat) : (m.claim c loc).wf = true := by
  have z : ∀ a n, (m.zeroFill a n).wf = true := fun a n => Mem.wf_zeroFill h a n
  unfold Mem.claim
  dsimp only
  repeat' split
  all_goals first | exact h | exact z _ _

theorem Mem.wf_settle {m : Mem} (h : m.wf = true) (free loc : Nat) : (m.settle free loc).wf = true := by
  unfold Mem.settle
  split
  · exact Mem.wf_putBytes h _
  · exact h

theorem Mem.wf_unmark {m : Mem} (h : m.wf = true) (loc : Nat) : (m.unmark loc).wf = true := by
  unfold Mem.unmark; split <;> exact h

theorem Mem.wf_prepare {m : Mem} (h : m.wf = true) (free : Nat) (c : Cred) (e : Host.Cell) : (m.prepare free c e).wf = true :=
  Mem.wf_unmark (Mem.wf_settle (Mem.wf_claim h _ _) _ _) _

theorem Mem.wf_write {m : Mem} (h : m.wf = true) (free : Nat) (c : Cred) (l : List Host.Cell) : (m.write free c l).wf = true := by
  have h1 : (l.foldl (Mem.prepare free c) m).wf = true := Mem.wf_foldl (fun _ e h => Mem.wf_prepare h free c e) h l
  have h2 := Mem.wf_putBytes h1 l
  exact Mem.wf_foldl (f := fun m (e : Host.Cell) => m.setFull true e.1) (fun _ _ h => h) h2 l

theorem Mem.wf_take {m : Mem} (h : m.wf = true) (free : Nat) (c : Cred) (loc : Nat) : (m.take free c loc).wf = true := by
  unfold Mem.take
  dsimp only
  refine Mem.wf_settle ?_ _ _
  split
  · exact Mem.wf_claim h _ _
  · exact Mem.wf_unmark (Mem.wf_claim h _ _) _

theorem Mem.wf_feServe {m : Mem} (h : m.wf = true) (free : Nat) (op : FeOp) (c : Cred) (loc : Nat) (cells : List Host.Cell) :
    (m.feServe free op c loc cells).2.wf = true := by
  cases op with
  | ldc => exact Mem.wf_take h _ _ _
  | stp => exact Mem.wf_write h _ _ _
  | ldf => exact h

theorem Mem.wf_hostOnly {m : Mem} (h : m.wf = true) : m.hostOnly.wf = true := Mem.wf_filter h _ rfl

theorem Mem.wf_warm {m : Mem} (h : m.wf = true) : m.warm.wf = true := h

/-! ## Writes and rounds of the machine -/

@[simp] theorem State.soil_mem (s : State) (line : Nat) : (s.soil line).mem = s.mem := by unfold State.soil; split <;> rfl

@[simp] theorem State.wakeCore_mem (s : State) (core : Nat) : (s.wakeCore core).mem = s.mem := by unfold State.wakeCore; split <;> rfl

@[simp] theorem State.wakeSpad_mem (s : State) (loc : Nat) : (s.wakeSpad loc).mem = s.mem := by
  unfold State.wakeSpad; split <;> simp

@[simp] theorem State.reachLine_mem (s : State) (line : Nat) : (s.reachLine line).mem = s.mem := by simp [State.reachLine]

theorem State.foldl_mem {α : Type} {f : State → α → State} (k : ∀ s a, (f s a).mem = s.mem) (l : List α) (s : State) :
    (l.foldl f s).mem = s.mem := by
  induction l generalizing s with
  | nil => rfl
  | cons a l ih => rw [List.foldl_cons, ih, k]

theorem State.wf_foldl {α : Type} {f : State → α → State} (k : ∀ s a, s.mem.wf = true → (f s a).mem.wf = true) {s : State}
    (h : s.mem.wf = true) (l : List α) : (l.foldl f s).mem.wf = true := by
  induction l generalizing s with
  | nil => exact h
  | cons a l ih => exact ih (k s a h)

theorem State.wf_serve (s : State) (w : Waiter) (h : s.mem.wf = true) : (s.serve w).mem.wf = true := by
  unfold State.serve
  split
  · dsimp only [State.modStrand_mem]
    refine Mem.wf_feServe ?_ _ _ _ _ _
    split
    · exact h
    · rw [State.soil_mem]; exact h
  · exact h

theorem State.wf_feRound (fuel : Nat) (locs : List Nat) (s : State) (h : s.mem.wf = true) : (s.feRound fuel locs).mem.wf = true := by
  induction fuel generalizing s with
  | zero => exact h
  | succ n ih =>
    unfold State.feRound
    split
    · exact h
    · exact ih _ (State.wf_serve _ _ h)

@[simp] theorem State.follow_mem (s : State) : s.follow.mem = s.mem := by
  unfold State.follow
  dsimp only
  rw [State.foldl_mem (fun _ _ => State.modStrand_mem _ _ _)]

theorem State.wf_roundsAt (s : State) (locs : List Nat) (h : s.mem.wf = true) : (s.roundsAt locs).mem.wf = true :=
  State.wf_feRound _ _ _ (by rw [State.follow_mem]; exact h)

theorem State.wf_deviceStore (s : State) (c : Cred) (l : List Host.Cell) (h : s.mem.wf = true) : (s.deviceStore c l).mem.wf = true := by
  refine State.wf_roundsAt _ _ (Mem.wf_write ?_ _ _ _)
  rw [State.foldl_mem State.reachLine_mem]; exact h

theorem State.wf_store (s : State) (c : Cred) (l : List Host.Cell) (h : s.mem.wf = true) : (s.store c l).mem.wf = true :=
  State.wf_deviceStore s c _ h

@[simp] theorem State.toWback_mem (s : State) (line : Nat) : (s.toWback line).mem = s.mem := by
  unfold State.toWback
  split
  · rfl
  · split <;> rfl

@[simp] theorem State.evictLine_mem (s : State) (line : Nat) : (s.evictLine line).mem = s.mem := by
  unfold State.evictLine; split <;> simp

@[simp] theorem State.siltPut_mem (s : State) (line slot : Nat) (ep : BitVec 2) : (s.siltPut line slot ep).mem = s.mem := by
  unfold State.siltPut
  dsimp only
  split <;> split <;> simp

@[simp] theorem State.fillMiss_mem (s : State) (m : Miss) : (s.fillMiss m).mem = s.mem := by
  unfold State.fillMiss
  rw [State.foldl_mem (fun _ _ => State.modCore_mem _ _ _), State.siltPut_mem]; rfl

@[simp] theorem State.siltTouch_mem (s : State) (line slot : Nat) (ep : BitVec 2) : (s.siltTouch line slot ep).mem = s.mem := by
  unfold State.siltTouch
  dsimp only
  split
  · simp
  · split <;> simp

@[simp] theorem State.siltUses_mem (s : State) (c : Cred) (write : Bool) (lines : List Nat) : (s.siltUses c write lines).mem = s.mem :=
  State.foldl_mem (fun _ _ => by split <;> simp) _ _

theorem State.wf_storeBy (s : State) (c : Cred) (l : List Host.Cell) (h : s.mem.wf = true) : (s.storeBy c l).mem.wf = true :=
  State.wf_store _ _ _ (by rw [State.siltUses_mem]; exact h)

@[simp] theorem State.demote_mem (s : State) (line : Nat) : (s.demote line).mem = s.mem := by
  unfold State.demote
  dsimp only
  split
  · rfl
  · split
    · rw [State.toWback_mem]
    · rfl

theorem State.wf_dropLine (s : State) (line : Nat) (h : s.mem.wf = true) : (s.dropLine line).mem.wf = true := by
  unfold State.dropLine
  dsimp only
  split
  · exact h
  · exact Mem.wf_of_bytes h rfl

theorem State.wf_lastUse (s : State) (line : Nat) (drop : Bool) (h : s.mem.wf = true) : (s.lastUse line drop).mem.wf = true := by
  unfold State.lastUse
  split
  · exact State.wf_dropLine s line h
  · rw [State.demote_mem]; exact h

theorem State.wf_enterT (s : State) (b : BufStore) (h : s.mem.wf = true) : (s.enterT b).mem.wf = true := by
  have k := State.wf_store s b.cred (b.placed s.mem) h
  unfold State.enterT
  dsimp only
  split
  · exact k
  · exact State.wf_foldl (fun _ _ h => State.wf_lastUse _ _ _ h) k _

theorem State.wf_drainFirst (n : Nat) (s : State) (core : Nat) (h : s.mem.wf = true) : (s.drainFirst n core).mem.wf = true := by
  induction n generalizing s with
  | zero => exact h
  | succ n ih =>
    unfold State.drainFirst
    split
    · exact h
    · exact ih _ (State.wf_enterT _ _ h)

theorem State.wf_drainOne (s : State) (core num : Nat) (h : s.mem.wf = true) : (s.drainOne core num).mem.wf = true := by
  unfold State.drainOne
  dsimp only
  split
  · exact h
  · split
    · exact State.wf_drainFirst _ _ _ h
    · exact State.wf_enterT _ _ h

theorem State.wf_drainN (n : Nat) (s : State) (core num : Nat) (h : s.mem.wf = true) : (s.drainN n core num).mem.wf = true := by
  induction n generalizing s with
  | zero => exact h
  | succ n ih => exact ih _ (State.wf_drainOne s core num h)

theorem State.wf_drain (s : State) (sid : StrandId) (h : s.mem.wf = true) : (s.drain sid).mem.wf = true := State.wf_drainN _ _ _ _ h

theorem State.wf_drainCore (s : State) (core : Nat) (h : s.mem.wf = true) : (s.drainCore core).mem.wf = true :=
  State.wf_drainFirst _ _ _ h

theorem Mem.wf_flip {m : Mem} (h : m.wf = true) (b : Nat) : (m.flip b).wf = true := h

theorem State.wf_setFe (s : State) (c : Cred) (loc : Nat) (full : Bool) (h : s.mem.wf = true) : (s.setFe c loc full).mem.wf = true := by
  have k : (s.soil (loc / 64)).mem.wf = true := by rw [State.soil_mem]; exact h
  exact State.wf_roundsAt _ _ (Mem.wf_setFull (Mem.wf_take k _ c loc) full loc)

end Sys2Proof.Machine
end

