-- ==== Sys2Proof/Laws/Words.lean ====
section
/-! SUPPORT. What the checks of a word and its retirement give. -/

namespace Sys2Proof.Machine

open Sys2Proof.Safety

theorem checkWord_of_ready {s : State} {a : Accepts} {p : Bool} (h : Ready s a p) : s.checkWord a p = .ok () := by
  obtain ⟨h1, h2, h3, h4, h5, -⟩ := h
  unfold State.checkWord Strand.chainOk
  rcases hm : s.me.hmod with _ | _ | _ <;> cases hp : s.me.pp <;> cases p <;> simp_all

/-- A word that may execute does its own work. -/
theorem word_of_ready {s : State} {a : Accepts} {p : Bool} (h : Ready s a p) (work : State → Run) :
    word a p work s = finish s (work s) := by
  simp [word, checkWord_of_ready h]

theorem word_next {s t : State} {a : Accepts} {p : Bool} {work : State → Run} (h : Ready s a p) (hw : work s = .ok t) :
    word a p work s = .next t := by
  simp [word_of_ready h, hw, finish]

/-- A trap before which no older store has to enter T, and which no walk has found, is raised in the state in which it was found. -/
theorem finish_error {s : State} {e : Trap} (hr : e.resume = none) (hs : e.stall = false) (hb : e.drains = false) (hd : e.drop = none)
    (hc : e.caches = none) : finish s (.error e) = .next (s.raise s.cur e) := by
  simp [finish, State.beforeTrap, State.afterFault, hr, hs, hb, hd, hc]

/-- An instruction that waits changes nothing. -/
theorem finish_wait (s : State) : finish s (.error Trap.wait) = .next s := rfl

theorem word_trap {s : State} {a : Accepts} {p : Bool} {work : State → Run} {e : Trap} (h : Ready s a p) (hr : e.resume = none)
    (hs : e.stall = false) (hb : e.drains = false) (hd : e.drop = none) (hc : e.caches = none)
    (hw : work s = .error e) :
    word a p work s = .next (s.raise s.cur e) := by
  rw [word_of_ready h, hw, finish_error hr hs hb hd hc]

/-- A step that may make every access makes this one. -/
theorem access_of_whole {s : State} (h : Whole s) (work : State → Except Trap (List Byte × State)) : s.access work = work s := by
  simp [State.access, h.1, h.2]

theorem local_refl (s : State) : Local s s := ⟨rfl, fun _ _ => rfl, fun _ _ => rfl⟩

theorem local_modMe (s : State) (f : Strand → Strand) : Local s (s.modMe f) :=
  ⟨rfl, fun i h => by simp [h], fun _ _ => rfl⟩

theorem local_trans {s t u : State} (h : Local s t) (k : Local t u) : Local s u := by
  have hc : t.cur = s.cur := by rw [h.1]
  refine ⟨?_, fun i hi => ?_, fun c hi => ?_⟩
  · rw [k.1, h.1]
  · rw [k.2.1 i (by rw [hc]; exact hi), h.2.1 i hi]
  · rw [k.2.2 c (by rw [hc]; exact hi), h.2.2 c hi]

theorem local_setX (s : State) (d : IntReg) (v : Word) : Local s (s.setX d v) := by
  refine ⟨?_, fun i h => State.strand_setX s d v i h, fun c h => ?_⟩
  · unfold State.setX; split
    · rfl
    · split <;> rfl
  · rw [State.core_setX, if_neg (fun hc => h hc.1)]

theorem went_retireTo (s : State) (pc : Word) : Went s (s.retireTo pc) pc :=
  ⟨local_modMe _ _, by simp [State.retireTo, Strand.spend, Strand.goTo, spentAt], rfl⟩

/-- Writing an integer register and retiring. -/
theorem wroteXAt_setX (s : State) (d : IntReg) (v pc : Word) (h : s.me.got = []) : WroteXAt s ((s.setX d v).retireTo pc) pc d v := by
  refine ⟨local_trans (local_setX s d v) (local_modMe _ _), ?_, ?_, fun r => by
    rw [State.x_retireTo _ _ _ ((State.got_setX _ _ _).trans h), State.x_setX _ _ _ _ h]⟩
  · simp only [State.retireTo, State.me_modMe, State.me_setX]
    split
    · unfold Strand.putX; split <;> rfl
    · rfl
  · simp only [State.retireTo, State.core_modMe, State.core_setX]
    split <;> rfl

theorem me_pc_setX (s : State) (d : IntReg) (v : Word) : (s.setX d v).me.pc = s.me.pc := by
  rw [State.me_setX]; split
  · unfold Strand.putX; split <;> rfl
  · rfl

theorem wroteX_setX (s : State) (d : IntReg) (v : Word) (hg : s.me.got = []) : WroteX s (s.setX d v).retire d v := by
  have h : (s.setX d v).retire = (s.setX d v).retireTo (s.me.pc + 4) := by simp [State.retire, me_pc_setX]
  rw [h]; exact wroteXAt_setX s d v _ hg

@[simp] theorem finish_ok (s t : State) : finish s (.ok t) = .next t := rfl

end Sys2Proof.Machine
end

