-- ==== Sys2Proof/Laws/Memory.lean ====
section
/-! SUPPORT. What finding the place of an access changes, and what an access does to the caches. -/

namespace Sys2Proof.Machine

open Sys2Proof.Safety

/-! ## Caches -/

theorem coreCaches_refl (a : CoreState) : CoreCaches a a := rfl

theorem coreCaches_trans {a b c : CoreState} (h : CoreCaches a b) (k : CoreCaches b c) : CoreCaches a c := by
  unfold CoreCaches at *; rw [k, h]

theorem clusterCaches_trans {a b c : ClusterState} (h : ClusterCaches a b) (k : ClusterCaches b c) : ClusterCaches a c := by
  unfold ClusterCaches at *; rw [k, h]

theorem cacheOnly_refl (s : State) : CacheOnly s s := ⟨rfl, fun _ => rfl, fun _ => rfl⟩

theorem cacheOnly_trans {s t u : State} (h : CacheOnly s t) (k : CacheOnly t u) : CacheOnly s u :=
  ⟨by rw [k.1, h.1], fun c => coreCaches_trans (h.2.1 c) (k.2.1 c), fun c => clusterCaches_trans (h.2.2 c) (k.2.2 c)⟩

theorem cacheOnly_caches (s : State) (c : Caches) : CacheOnly s { s with caches := c } := ⟨rfl, fun _ => rfl, fun _ => rfl⟩

theorem cacheOnly_setCore (s : State) (core : Nat) (k : CoreState) (h : CoreCaches (s.core core) k) : CacheOnly s (s.setCore core k) :=
  ⟨rfl, fun c => by simp only [State.core_setCore]; split <;> simp_all [coreCaches_refl], fun _ => rfl⟩

theorem cacheOnly_modCluster (s : State) (c : Nat) (f : ClusterState → ClusterState) (h : ∀ k, ClusterCaches k (f k)) :
    CacheOnly s (s.modCluster c f) :=
  ⟨rfl, fun _ => rfl, fun k => by
    rw [State.cluster_modCluster]
    split
    · subst_vars; exact h _
    · rfl⟩

theorem cacheOnly_foldl {α : Type} {f : State → α → State} (k : ∀ s a, CacheOnly s (f s a)) (l : List α) (s : State) :
    CacheOnly s (l.foldl f s) := by
  induction l generalizing s with
  | nil => exact cacheOnly_refl s
  | cons a l ih => exact cacheOnly_trans (k s a) (ih _)

theorem coreCaches_l1Fill (k : CoreState) (l : L1Line) : CoreCaches k (k.l1Fill l) := by simp only [CoreCaches, CoreState.l1Fill]

theorem coreCaches_counters (a : CoreState) (u l x : Nat) : CoreCaches a { a with pfUseful := u, pfLate := l, pfUseless := x } := rfl

theorem coreCaches_tlb (a : CoreState) (l : List TlbEntry) : CoreCaches a { a with tlb := l } := rfl

theorem cacheOnly_toWback (s : State) (line : Nat) : CacheOnly s (s.toWback line) := by
  unfold State.toWback
  split
  · exact cacheOnly_refl s
  · split
    · exact cacheOnly_refl s
    · exact cacheOnly_caches s _

theorem cacheOnly_evictLine (s : State) (line : Nat) : CacheOnly s (s.evictLine line) := by
  unfold State.evictLine
  split
  · exact cacheOnly_refl s
  · exact cacheOnly_trans (cacheOnly_caches s _) (cacheOnly_toWback _ _)

theorem cacheOnly_siltPut (s : State) (line slot : Nat) (ep : BitVec 2) : CacheOnly s (s.siltPut line slot ep) := by
  have other : CacheOnly s (if (s.caches.silt.get? line).any (fun l => l.slot != slot) then s.evictLine line else s) := by
    split
    · exact cacheOnly_evictLine s line
    · exact cacheOnly_refl s
  unfold State.siltPut
  dsimp only
  generalize (if (s.caches.silt.get? line).any (fun l => l.slot != slot) then s.evictLine line else s) = t at *
  refine cacheOnly_trans other (cacheOnly_trans ?_ (cacheOnly_caches _ _))
  split
  · exact cacheOnly_evictLine _ _
  · exact cacheOnly_refl t

theorem cacheOnly_fillMiss (s : State) (m : Miss) : CacheOnly s (s.fillMiss m) :=
  cacheOnly_trans (cacheOnly_trans (cacheOnly_caches s _) (cacheOnly_siltPut _ _ _ _))
    (cacheOnly_foldl (fun s (e : Nat × Nat) => cacheOnly_setCore s e.1 _ (coreCaches_l1Fill _ _)) _ _)

theorem cacheOnly_siltTouch (s : State) (line slot : Nat) (ep : BitVec 2) : CacheOnly s (s.siltTouch line slot ep) := by
  unfold State.siltTouch
  dsimp only
  refine cacheOnly_trans ?_ (cacheOnly_siltPut _ _ _ _)
  split
  · exact cacheOnly_fillMiss _ _
  · split
    · exact cacheOnly_fillMiss _ _
    · exact cacheOnly_refl s

theorem cacheOnly_siltUses (s : State) (c : Cred) (write : Bool) (lines : List Nat) : CacheOnly s (s.siltUses c write lines) :=
  cacheOnly_foldl (fun s line => by
    split
    · exact cacheOnly_siltTouch _ _ _ _
    · exact cacheOnly_refl s) _ _

theorem cacheOnly_demote (s : State) (line : Nat) : CacheOnly s (s.demote line) := by
  unfold State.demote
  dsimp only
  refine cacheOnly_trans ?_ (cacheOnly_caches _ _)
  split
  · exact cacheOnly_refl s
  · split
    · exact cacheOnly_toWback s line
    · exact cacheOnly_caches s _

theorem cacheOnly_l1Demand (s : State) (core line slot : Nat) (a : Bool) : CacheOnly s (s.l1Demand core line slot a) := by
  unfold State.l1Demand
  split
  · refine cacheOnly_setCore s core _ ?_
    exact coreCaches_trans (coreCaches_l1Fill _ _) (coreCaches_counters _ _ _ _)
  · dsimp only
    generalize List.map _ s.caches.misses = l
    refine cacheOnly_trans (cacheOnly_caches s _) (cacheOnly_setCore (s.setMisses l) core _ (coreCaches_trans (b := if a then
      ((s.setMisses l).core core).l1Fill { line := line, slot := slot, prefetched := false } else (s.setMisses l).core core) ?_ (coreCaches_counters _ _ _ _)))
    split
    · exact coreCaches_l1Fill _ _
    · exact coreCaches_refl _

theorem clusterCaches_lines (a : ClusterState) (l : List (Nat × Nat)) : ClusterCaches a { a with lines := l } := rfl

theorem cacheOnly_lease (s : State) (core line slot : Nat) : CacheOnly s (s.lease core line slot) := by
  unfold State.lease
  dsimp only
  have h := cacheOnly_modCluster s (clusterOf core) (fun k => k.fillLine line slot) (fun k => clusterCaches_lines k _)
  split
  · exact h
  · exact cacheOnly_trans h (cacheOnly_caches _ _)

/-- What an access does to the caches; a last-use read that drops its line touches memory too. -/
theorem cacheOnly_touch (s : State) (core : Nat) (p : Place) (h : Hints) (hl : h.lu = false ∨ h.wr = true ∨ p.drops = false) :
    CacheOnly s (s.touch core p h) := by
  unfold State.touch
  dsimp only
  split
  · have h1 := cacheOnly_trans (cacheOnly_l1Demand s core (p.loc / 64) (s.placeSlot p h.wr) h.l1)
      (cacheOnly_lease _ core (p.loc / 64) (s.placeSlot p h.wr))
    generalize (s.l1Demand core (p.loc / 64) (s.placeSlot p h.wr) h.l1).lease core (p.loc / 64) (s.placeSlot p h.wr) = b at *
    generalize s.placeSlot p h.wr = q at *
    have h3 : CacheOnly b (if isDram p.loc then b.siltTouch (p.loc / 64) q h.ep else b) := by
      split
      · exact cacheOnly_siltTouch _ _ _ _
      · exact cacheOnly_refl b
    generalize (if isDram p.loc then b.siltTouch (p.loc / 64) q h.ep else b) = c at *
    refine cacheOnly_trans h1 (cacheOnly_trans h3 ?_)
    split
    · rename_i hlu
      refine cacheOnly_trans ?_ (cacheOnly_setCore _ core _ (by simp only [CoreCaches]))
      split
      · exact cacheOnly_refl c
      · rename_i hw
        have hd : p.drops = false := by
          rcases hl with hl | hl | hl
          · simp [hl] at hlu
          · exact absurd hl hw
          · exact hl
        rw [State.lastUse, hd]
        exact cacheOnly_demote _ _
    · exact cacheOnly_refl c
  · exact cacheOnly_refl s

/-! ## Translation changes caches alone, but for the older stores that a fresh walk lets in -/

theorem cacheOnly_tlbUse (s : State) (core : Nat) (e : TlbEntry) : CacheOnly s (s.tlbUse core e) :=
  cacheOnly_setCore s core _ (by simp only [CoreCaches])

theorem cacheOnly_fillTlb (s : State) (core : Nat) (e : TlbEntry) (p : List WalkEntry) : CacheOnly s (s.fillTlb core e p) :=
  cacheOnly_trans (cacheOnly_tlbUse s core e) (cacheOnly_modCluster _ _ _ (fun k => by simp only [ClusterCaches]))

theorem cacheOnly_dropTlb (s : State) (core va : Nat) : CacheOnly s (s.dropTlb core va) :=
  by
    unfold State.dropTlb
    exact cacheOnly_trans (cacheOnly_setCore s core _ (coreCaches_tlb _ _)) (cacheOnly_modCluster _ _ _ (fun _ => rfl))

theorem cacheOnly_walkReads {s t : State} {cached : Option Nat} {asid va : Nat} (h : s.walkReads cached asid va = some t) : CacheOnly s t := by
  unfold State.walkReads at h
  dsimp only at h
  split at h
  · cases h; exact cacheOnly_refl s
  · split at h <;> split at h <;> cases h <;> exact cacheOnly_siltUses _ _ _ _

theorem cacheOnly_afterWalk (s : State) (f : TransFault) : CacheOnly s (s.afterWalk f) := by
  unfold State.afterWalk
  split
  · exact cacheOnly_caches s _
  · exact cacheOnly_refl s

theorem cacheOnly_tlbLookup {s t : State} {core asid va : Nat} {e : TlbEntry} (h : s.tlbLookup core asid va = some (e, t)) : CacheOnly s t := by
  unfold State.tlbLookup at h
  split at h
  · cases h; exact cacheOnly_tlbUse _ _ _
  · simp only [Option.map_eq_some_iff] at h
    obtain ⟨_, _, h⟩ := h
    cases h; exact cacheOnly_fillTlb _ _ _ _

theorem cacheOnly_cachedLeaf {s t : State} {core asid va : Nat} {e : TlbEntry} (h : s.cachedLeaf core asid va = .ok (e, t)) : CacheOnly s t := by
  unfold State.cachedLeaf at h
  split at h
  · cases h; exact cacheOnly_tlbLookup ‹_›
  · split at h
    · cases h
    · split at h
      · cases h
      · split at h <;> cases h
        exact cacheOnly_trans (cacheOnly_walkReads ‹_›) (cacheOnly_fillTlb _ _ _ _)

theorem cacheOnly_freshLeaf {s t : State} {who : Option StrandId} {core asid va : Nat} {e : TlbEntry}
    (h : s.freshLeaf who core asid va = .ok (e, t)) : CacheOnly (s.settleWalk who) t := by
  unfold State.freshLeaf at h
  dsimp only at h
  split at h
  · cases h
  · split at h <;> cases h
    exact cacheOnly_trans (cacheOnly_walkReads ‹_›) (cacheOnly_trans (cacheOnly_dropTlb _ _ _) (cacheOnly_fillTlb _ _ _ _))

theorem checkLeaf_ok {r q : TlbEntry × State} {kind : Access} {user : Bool} (h : checkLeaf r kind user = .ok q) : q = r := by
  unfold checkLeaf at h; split at h <;> cases h; rfl

theorem cacheOnly_freshTranslate {s t : State} {who : Option StrandId} {core asid va : Nat} {kind : Access} {user : Bool} {e : TlbEntry}
    (h : s.freshTranslate who core asid va kind user = .ok (e, t)) : CacheOnly (s.settleWalk who) t := by
  unfold State.freshTranslate at h
  split at h
  · cases h
  · cases checkLeaf_ok h; exact cacheOnly_freshLeaf ‹_›

theorem cacheOnly_translate {s t : State} {who : Option StrandId} {core asid va : Nat} {kind : Access} {user : Bool} {e : TlbEntry}
    (h : s.translate who core asid va kind user = .ok (e, t)) : CacheOnly s t ∨ ∃ u, CacheOnly s u ∧ CacheOnly (u.settleWalk who) t := by
  unfold State.translate at h
  split at h
  · cases h
  · split at h
    · split at h
      · cases h
      · exact .inr ⟨_, cacheOnly_afterWalk s _, cacheOnly_freshTranslate h⟩
    · split at h
      · cases h
        rename_i hr _ hq
        cases checkLeaf_ok hq
        exact .inl (cacheOnly_cachedLeaf hr)
      · exact .inr ⟨_, cacheOnly_afterWalk s _, cacheOnly_freshTranslate h⟩

theorem cacheOnly_locateIn {s t : State} {who : Option StrandId} {core : Nat} {asid : Option Nat} {c : Cred} {user : Bool} {va : Nat}
    {kind : Access} {hidden : Bool} {p : Place} (h : s.locateIn who core asid c user va kind hidden = .ok (p, t)) :
    CacheOnly s t ∨ ∃ u, CacheOnly s u ∧ CacheOnly (u.settleWalk who) t := by
  unfold State.locateIn at h
  split at h
  · cases h
  · split at h
    · cases h; exact .inl (cacheOnly_refl s)
    · split at h
      · cases h
      · cases h; exact cacheOnly_translate ‹_›

theorem translated_refl (s : State) : Translated s s := .inl (cacheOnly_refl s)

theorem translated_locate {s t : State} {va : Nat} {kind : Access} {hidden : Bool} {p : Place}
    (h : s.locate s.cur va kind hidden = .ok (p, t)) : Translated s t := by
  unfold State.locate at h
  split at h
  · split at h <;> cases h; exact translated_refl s
  · exact cacheOnly_locateIn h

theorem cacheOnly_strand {s t : State} (h : CacheOnly s t) (i : StrandId) : t.strand i = s.strand i := by rw [h.1]; rfl
theorem cacheOnly_cur {s t : State} (h : CacheOnly s t) : t.cur = s.cur := by rw [h.1]
theorem cacheOnly_me {s t : State} (h : CacheOnly s t) : t.me = s.me := by rw [h.1]; rfl
theorem cacheOnly_mem {s t : State} (h : CacheOnly s t) : t.mem = s.mem := by rw [h.1]
theorem cacheOnly_free {s t : State} (h : CacheOnly s t) : t.free = s.free := by rw [h.1]
theorem cacheOnly_fresh {s t : State} (h : CacheOnly s t) : t.fresh = s.fresh := by rw [h.1]
theorem cacheOnly_s {s t : State} (h : CacheOnly s t) (c : Nat) : (t.core c).s = (s.core c).s := by rw [h.2.1]
theorem cacheOnly_buffer {s t : State} (h : CacheOnly s t) (c : Nat) : (t.core c).buffer = (s.core c).buffer := by rw [h.2.1]
theorem cacheOnly_x {s t : State} (h : CacheOnly s t) (r : IntReg) : t.x r = s.x r := by
  simp only [State.x, State.shared, cacheOnly_me h, cacheOnly_cur h, cacheOnly_s h]

end Sys2Proof.Machine
end

