-- ==== Sys2Proof/Laws/PerInstr.lean ====
section
/-! SUPPORT. Statements made instruction by instruction: decoding the word of a well-formed instruction gives it back. -/

namespace Sys2Proof.Laws

set_option Elab.async false

/-- A word field by field from bit 0 up: each field with its width. -/
def pack (l : List (Nat × Nat)) : Nat :=
  match l with
  | [] => 0
  | e :: rest => e.2 + 2 ^ e.1 * pack rest

/-- Every field fits its width. -/
def fits (l : List (Nat × Nat)) : Prop :=
  match l with
  | [] => True
  | e :: rest => e.2 < 2 ^ e.1 ∧ fits rest

/-- The width of a list of fields. -/
def width (l : List (Nat × Nat)) : Nat :=
  match l with
  | [] => 0
  | e :: rest => e.1 + width rest

theorem pack_lt {l : List (Nat × Nat)} (h : fits l) : pack l < 2 ^ width l := by
  induction l with
  | nil => exact Nat.one_pos
  | cons e r ih =>
    have := ih h.2
    have h1 := h.1
    simp only [pack, width, Nat.pow_add]
    calc e.2 + 2 ^ e.1 * pack r < 2 ^ e.1 + 2 ^ e.1 * pack r := Nat.add_lt_add_right h1 _
      _ = 2 ^ e.1 * (pack r + 1) := by rw [Nat.mul_succ, Nat.add_comm]
      _ ≤ 2 ^ e.1 * 2 ^ width r := Nat.mul_le_mul_left _ this

theorem pack_at (k : Nat) {l : List (Nat × Nat)} {lo n v : Nat} (h : fits l) (e : l[k]? = some (n, v)) (w : width (l.take k) = lo) :
    pack l / 2 ^ lo % 2 ^ n = v := by
  induction k generalizing l lo with
  | zero =>
    cases l with
    | nil => cases e
    | cons a r =>
      cases e; cases w
      simp only [pack, List.take_zero, width, Nat.pow_zero, Nat.div_one, Nat.add_mul_mod_self_left]
      exact Nat.mod_eq_of_lt h.1
  | succ k ih =>
    cases l with
    | nil => cases e
    | cons a r =>
      rw [List.take_succ_cons] at w
      simp only [width] at w
      rw [← w, Nat.pow_add, ← Nat.div_div_eq_div_mul, pack, Nat.add_mul_div_left _ _ (Nat.two_pow_pos _), Nat.div_eq_of_lt h.1, Nat.zero_add]
      exact ih h.2 e rfl

theorem toNat_encode {i : Instr} {l : List (Nat × Nat)} (h : encodeNat i = pack l) (f : fits l) (w : width l = 32) : (encode i).toNat = pack l := by
  unfold encode; rw [h, BitVec.toNat_ofNat, Nat.mod_eq_of_lt (w ▸ pack_lt f)]

theorem fldN_at (k : Nat) {w : IWord} {l : List (Nat × Nat)} {lo n v : Nat} (h : w.toNat = pack l ∧ fits l) (e : l[k]? = some (n, v))
    (t : width (l.take k) = lo) : fldN w lo n = v := by
  unfold fldN; rw [h.1]; exact pack_at k h.2 e t

theorem z_at (k : Nat) {w : IWord} {l : List (Nat × Nat)} {lo n : Nat} (h : w.toNat = pack l ∧ fits l) (e : l[k]? = some (n, 0))
    (t : width (l.take k) = lo) : z w lo n = true := by
  unfold z; rw [fldN_at k h e t]; rfl

theorem fld_at (k : Nat) {w : IWord} {l : List (Nat × Nat)} {lo n : Nat} {v : BitVec n} (h : w.toNat = pack l ∧ fits l)
    (e : l[k]? = some (n, v.toNat)) (t : width (l.take k) = lo) : fld w lo n = v := by
  unfold fld; rw [h.1]; exact BitVec.eq_of_toNat_eq (by rw [BitVec.toNat_ofNat]; exact pack_at k h.2 e t)

/-- A well-formed instruction is what its word decodes to. -/
def RoundTrip.Statement (i : Instr) : Prop := i.wellFormed = true → decode (encode i) = .ok i

theorem RoundTrip.himm (p) : RoundTrip.Statement (.himm p) := by
  intro _
  have f : fits [(24, p.toNat), (2, 0), (6, 1)] := ⟨p.isLt, by decide, by decide, trivial⟩
  have h := And.intro (toNat_encode (i := .himm p) (show 0x04000000 + p.toNat * 0x1 = _ by simp only [pack]; omega) f rfl) f
  generalize encode (.himm p) = iw at h ⊢
  have k : decode01 iw = .ok (.himm p) := by
    rw [decode01, fldN_at 1 (lo := 24) (n := 2) h rfl rfl, fld_at 0 (lo := 0) (v := p) h rfl rfl]; rfl
  rw [decode, fldN_at 2 (lo := 26) (n := 6) h rfl rfl, k]; rfl

theorem RoundTrip.hsched (b n u) : RoundTrip.Statement (.hsched b n u) := by
  intro hc
  have f : fits [(19, 0), (2, u.toNat), (1, n.toNat), (2, b.toNat), (2, 1), (6, 1)] := ⟨by decide, u.isLt, n.isLt, b.isLt, by decide, by decide, trivial⟩
  have h := And.intro (toNat_encode (i := .hsched b n u) (show 0x05000000 + b.toNat * 0x400000 + n.toNat * 0x200000 + u.toNat * 0x80000 = _ by simp only [pack]; omega) f rfl) f
  generalize encode (.hsched b n u) = iw at h ⊢
  have hc : (b != 3 && u != 3) = true := hc
  have k : decode01 iw = .ok (.hsched b n u) := by
    rw [decode01, fldN_at 4 (lo := 24) (n := 2) h rfl rfl, z_at 0 (lo := 0) (n := 19) h rfl rfl, fld_at 3 (lo := 22) (v := b) h rfl rfl, fld_at 1 (lo := 19) (v := u) h rfl rfl, fld_at 2 (lo := 21) (v := n) h rfl rfl, hc]; rfl
  rw [decode, fldN_at 5 (lo := 26) (n := 6) h rfl rfl, k]; rfl

theorem RoundTrip.hmodNofwd : RoundTrip.Statement (.hmodNofwd) := by
  intro _
  have f : fits [(16, 0), (8, 1), (2, 2), (6, 1)] := ⟨by decide, by decide, by decide, by decide, trivial⟩
  have h := And.intro (toNat_encode (i := .hmodNofwd) rfl f rfl) f
  generalize encode (.hmodNofwd) = iw at h ⊢
  have k : decode01 iw = .ok (.hmodNofwd) := by
    rw [decode01, fldN_at 2 (lo := 24) (n := 2) h rfl rfl, fldN_at 1 (lo := 16) (n := 8) h rfl rfl, z_at 0 (lo := 0) (n := 16) h rfl rfl]; rfl
  rw [decode, fldN_at 3 (lo := 26) (n := 6) h rfl rfl, k]; rfl

theorem RoundTrip.hmodL1na : RoundTrip.Statement (.hmodL1na) := by
  intro _
  have f : fits [(16, 0), (8, 2), (2, 2), (6, 1)] := ⟨by decide, by decide, by decide, by decide, trivial⟩
  have h := And.intro (toNat_encode (i := .hmodL1na) rfl f rfl) f
  generalize encode (.hmodL1na) = iw at h ⊢
  have k : decode01 iw = .ok (.hmodL1na) := by
    rw [decode01, fldN_at 2 (lo := 24) (n := 2) h rfl rfl, fldN_at 1 (lo := 16) (n := 8) h rfl rfl, z_at 0 (lo := 0) (n := 16) h rfl rfl]; rfl
  rw [decode, fldN_at 3 (lo := 26) (n := 6) h rfl rfl, k]; rfl

theorem RoundTrip.fmt (a b o r v) : RoundTrip.Statement (.fmt a b o r v) := by
  intro hc
  have f : fits [(1, v.toNat), (3, r.toNat), (8, 0), (4, o.toNat), (4, b.toNat), (4, a.toNat), (2, 3), (6, 1)] := ⟨v.isLt, r.isLt, by decide, o.isLt, b.isLt, a.isLt, by decide, by decide, trivial⟩
  have h := And.intro (toNat_encode (i := .fmt a b o r v) (show 0x07000000 + a.toNat * 0x100000 + b.toNat * 0x10000 + o.toNat * 0x1000 + r.toNat * 0x2 + v.toNat * 0x1 = _ by simp only [pack]; omega) f rfl) f
  generalize encode (.fmt a b o r v) = iw at h ⊢
  have hc : (r != 7) = true := hc
  have k : decode01 iw = .ok (.fmt a b o r v) := by
    rw [decode01, fldN_at 6 (lo := 24) (n := 2) h rfl rfl, z_at 2 (lo := 4) (n := 8) h rfl rfl, fld_at 1 (lo := 1) (v := r) h rfl rfl, fld_at 5 (lo := 20) (v := a) h rfl rfl, fld_at 4 (lo := 16) (v := b) h rfl rfl, fld_at 3 (lo := 12) (v := o) h rfl rfl, fld_at 0 (lo := 0) (v := v) h rfl rfl, hc]; rfl
  rw [decode, fldN_at 7 (lo := 26) (n := 6) h rfl rfl, k]; rfl

theorem RoundTrip.add (d a b) : RoundTrip.Statement (.add d a b) := by
  intro _
  have f : fits [(8, 0), (6, b.toNat), (6, a.toNat), (6, d.toNat), (6, 2)] := ⟨by decide, b.isLt, a.isLt, d.isLt, by decide, trivial⟩
  have h := And.intro (toNat_encode (i := .add d a b) (show 0x08000000 + d.toNat * 0x100000 + a.toNat * 0x4000 + b.toNat * 0x100 = _ by simp only [pack]; omega) f rfl) f
  generalize encode (.add d a b) = iw at h ⊢
  have k : decode02 iw = .ok (.add d a b) := by
    rw [decode02, fldN_at 0 (lo := 0) (n := 8) h rfl rfl, fld_at 3 (lo := 20) (v := d) h rfl rfl, fld_at 2 (lo := 14) (v := a) h rfl rfl, fld_at 1 (lo := 8) (v := b) h rfl rfl]; rfl
  rw [decode, fldN_at 4 (lo := 26) (n := 6) h rfl rfl, k]; rfl

theorem RoundTrip.sub (d a b) : RoundTrip.Statement (.sub d a b) := by
  intro _
  have f : fits [(8, 1), (6, b.toNat), (6, a.toNat), (6, d.toNat), (6, 2)] := ⟨by decide, b.isLt, a.isLt, d.isLt, by decide, trivial⟩
  have h := And.intro (toNat_encode (i := .sub d a b) (show 0x08000001 + d.toNat * 0x100000 + a.toNat * 0x4000 + b.toNat * 0x100 = _ by simp only [pack]; omega) f rfl) f
  generalize encode (.sub d a b) = iw at h ⊢
  have k : decode02 iw = .ok (.sub d a b) := by
    rw [decode02, fldN_at 0 (lo := 0) (n := 8) h rfl rfl, fld_at 3 (lo := 20) (v := d) h rfl rfl, fld_at 2 (lo := 14) (v := a) h rfl rfl, fld_at 1 (lo := 8) (v := b) h rfl rfl]; rfl
  rw [decode, fldN_at 4 (lo := 26) (n := 6) h rfl rfl, k]; rfl

theorem RoundTrip.and (d a b) : RoundTrip.Statement (.and d a b) := by
  intro _
  have f : fits [(8, 2), (6, b.toNat), (6, a.toNat), (6, d.toNat), (6, 2)] := ⟨by decide, b.isLt, a.isLt, d.isLt, by decide, trivial⟩
  have h := And.intro (toNat_encode (i := .and d a b) (show 0x08000002 + d.toNat * 0x100000 + a.toNat * 0x4000 + b.toNat * 0x100 = _ by simp only [pack]; omega) f rfl) f
  generalize encode (.and d a b) = iw at h ⊢
  have k : decode02 iw = .ok (.and d a b) := by
    rw [decode02, fldN_at 0 (lo := 0) (n := 8) h rfl rfl, fld_at 3 (lo := 20) (v := d) h rfl rfl, fld_at 2 (lo := 14) (v := a) h rfl rfl, fld_at 1 (lo := 8) (v := b) h rfl rfl]; rfl
  rw [decode, fldN_at 4 (lo := 26) (n := 6) h rfl rfl, k]; rfl

theorem RoundTrip.or (d a b) : RoundTrip.Statement (.or d a b) := by
  intro _
  have f : fits [(8, 3), (6, b.toNat), (6, a.toNat), (6, d.toNat), (6, 2)] := ⟨by decide, b.isLt, a.isLt, d.isLt, by decide, trivial⟩
  have h := And.intro (toNat_encode (i := .or d a b) (show 0x08000003 + d.toNat * 0x100000 + a.toNat * 0x4000 + b.toNat * 0x100 = _ by simp only [pack]; omega) f rfl) f
  generalize encode (.or d a b) = iw at h ⊢
  have k : decode02 iw = .ok (.or d a b) := by
    rw [decode02, fldN_at 0 (lo := 0) (n := 8) h rfl rfl, fld_at 3 (lo := 20) (v := d) h rfl rfl, fld_at 2 (lo := 14) (v := a) h rfl rfl, fld_at 1 (lo := 8) (v := b) h rfl rfl]; rfl
  rw [decode, fldN_at 4 (lo := 26) (n := 6) h rfl rfl, k]; rfl

theorem RoundTrip.xor (d a b) : RoundTrip.Statement (.xor d a b) := by
  intro _
  have f : fits [(8, 4), (6, b.toNat), (6, a.toNat), (6, d.toNat), (6, 2)] := ⟨by decide, b.isLt, a.isLt, d.isLt, by decide, trivial⟩
  have h := And.intro (toNat_encode (i := .xor d a b) (show 0x08000004 + d.toNat * 0x100000 + a.toNat * 0x4000 + b.toNat * 0x100 = _ by simp only [pack]; omega) f rfl) f
  generalize encode (.xor d a b) = iw at h ⊢
  have k : decode02 iw = .ok (.xor d a b) := by
    rw [decode02, fldN_at 0 (lo := 0) (n := 8) h rfl rfl, fld_at 3 (lo := 20) (v := d) h rfl rfl, fld_at 2 (lo := 14) (v := a) h rfl rfl, fld_at 1 (lo := 8) (v := b) h rfl rfl]; rfl
  rw [decode, fldN_at 4 (lo := 26) (n := 6) h rfl rfl, k]; rfl

theorem RoundTrip.andn (d a b) : RoundTrip.Statement (.andn d a b) := by
  intro _
  have f : fits [(8, 5), (6, b.toNat), (6, a.toNat), (6, d.toNat), (6, 2)] := ⟨by decide, b.isLt, a.isLt, d.isLt, by decide, trivial⟩
  have h := And.intro (toNat_encode (i := .andn d a b) (show 0x08000005 + d.toNat * 0x100000 + a.toNat * 0x4000 + b.toNat * 0x100 = _ by simp only [pack]; omega) f rfl) f
  generalize encode (.andn d a b) = iw at h ⊢
  have k : decode02 iw = .ok (.andn d a b) := by
    rw [decode02, fldN_at 0 (lo := 0) (n := 8) h rfl rfl, fld_at 3 (lo := 20) (v := d) h rfl rfl, fld_at 2 (lo := 14) (v := a) h rfl rfl, fld_at 1 (lo := 8) (v := b) h rfl rfl]; rfl
  rw [decode, fldN_at 4 (lo := 26) (n := 6) h rfl rfl, k]; rfl

theorem RoundTrip.orn (d a b) : RoundTrip.Statement (.orn d a b) := by
  intro _
  have f : fits [(8, 6), (6, b.toNat), (6, a.toNat), (6, d.toNat), (6, 2)] := ⟨by decide, b.isLt, a.isLt, d.isLt, by decide, trivial⟩
  have h := And.intro (toNat_encode (i := .orn d a b) (show 0x08000006 + d.toNat * 0x100000 + a.toNat * 0x4000 + b.toNat * 0x100 = _ by simp only [pack]; omega) f rfl) f
  generalize encode (.orn d a b) = iw at h ⊢
  have k : decode02 iw = .ok (.orn d a b) := by
    rw [decode02, fldN_at 0 (lo := 0) (n := 8) h rfl rfl, fld_at 3 (lo := 20) (v := d) h rfl rfl, fld_at 2 (lo := 14) (v := a) h rfl rfl, fld_at 1 (lo := 8) (v := b) h rfl rfl]; rfl
  rw [decode, fldN_at 4 (lo := 26) (n := 6) h rfl rfl, k]; rfl

theorem RoundTrip.xnor (d a b) : RoundTrip.Statement (.xnor d a b) := by
  intro _
  have f : fits [(8, 7), (6, b.toNat), (6, a.toNat), (6, d.toNat), (6, 2)] := ⟨by decide, b.isLt, a.isLt, d.isLt, by decide, trivial⟩
  have h := And.intro (toNat_encode (i := .xnor d a b) (show 0x08000007 + d.toNat * 0x100000 + a.toNat * 0x4000 + b.toNat * 0x100 = _ by simp only [pack]; omega) f rfl) f
  generalize encode (.xnor d a b) = iw at h ⊢
  have k : decode02 iw = .ok (.xnor d a b) := by
    rw [decode02, fldN_at 0 (lo := 0) (n := 8) h rfl rfl, fld_at 3 (lo := 20) (v := d) h rfl rfl, fld_at 2 (lo := 14) (v := a) h rfl rfl, fld_at 1 (lo := 8) (v := b) h rfl rfl]; rfl
  rw [decode, fldN_at 4 (lo := 26) (n := 6) h rfl rfl, k]; rfl

theorem RoundTrip.sll (d a b) : RoundTrip.Statement (.sll d a b) := by
  intro _
  have f : fits [(8, 8), (6, b.toNat), (6, a.toNat), (6, d.toNat), (6, 2)] := ⟨by decide, b.isLt, a.isLt, d.isLt, by decide, trivial⟩
  have h := And.intro (toNat_encode (i := .sll d a b) (show 0x08000008 + d.toNat * 0x100000 + a.toNat * 0x4000 + b.toNat * 0x100 = _ by simp only [pack]; omega) f rfl) f
  generalize encode (.sll d a b) = iw at h ⊢
  have k : decode02 iw = .ok (.sll d a b) := by
    rw [decode02, fldN_at 0 (lo := 0) (n := 8) h rfl rfl, fld_at 3 (lo := 20) (v := d) h rfl rfl, fld_at 2 (lo := 14) (v := a) h rfl rfl, fld_at 1 (lo := 8) (v := b) h rfl rfl]; rfl
  rw [decode, fldN_at 4 (lo := 26) (n := 6) h rfl rfl, k]; rfl

theorem RoundTrip.srl (d a b) : RoundTrip.Statement (.srl d a b) := by
  intro _
  have f : fits [(8, 9), (6, b.toNat), (6, a.toNat), (6, d.toNat), (6, 2)] := ⟨by decide, b.isLt, a.isLt, d.isLt, by decide, trivial⟩
  have h := And.intro (toNat_encode (i := .srl d a b) (show 0x08000009 + d.toNat * 0x100000 + a.toNat * 0x4000 + b.toNat * 0x100 = _ by simp only [pack]; omega) f rfl) f
  generalize encode (.srl d a b) = iw at h ⊢
  have k : decode02 iw = .ok (.srl d a b) := by
    rw [decode02, fldN_at 0 (lo := 0) (n := 8) h rfl rfl, fld_at 3 (lo := 20) (v := d) h rfl rfl, fld_at 2 (lo := 14) (v := a) h rfl rfl, fld_at 1 (lo := 8) (v := b) h rfl rfl]; rfl
  rw [decode, fldN_at 4 (lo := 26) (n := 6) h rfl rfl, k]; rfl

theorem RoundTrip.sra (d a b) : RoundTrip.Statement (.sra d a b) := by
  intro _
  have f : fits [(8, 10), (6, b.toNat), (6, a.toNat), (6, d.toNat), (6, 2)] := ⟨by decide, b.isLt, a.isLt, d.isLt, by decide, trivial⟩
  have h := And.intro (toNat_encode (i := .sra d a b) (show 0x0800000A + d.toNat * 0x100000 + a.toNat * 0x4000 + b.toNat * 0x100 = _ by simp only [pack]; omega) f rfl) f
  generalize encode (.sra d a b) = iw at h ⊢
  have k : decode02 iw = .ok (.sra d a b) := by
    rw [decode02, fldN_at 0 (lo := 0) (n := 8) h rfl rfl, fld_at 3 (lo := 20) (v := d) h rfl rfl, fld_at 2 (lo := 14) (v := a) h rfl rfl, fld_at 1 (lo := 8) (v := b) h rfl rfl]; rfl
  rw [decode, fldN_at 4 (lo := 26) (n := 6) h rfl rfl, k]; rfl

theorem RoundTrip.rol (d a b) : RoundTrip.Statement (.rol d a b) := by
  intro _
  have f : fits [(8, 11), (6, b.toNat), (6, a.toNat), (6, d.toNat), (6, 2)] := ⟨by decide, b.isLt, a.isLt, d.isLt, by decide, trivial⟩
  have h := And.intro (toNat_encode (i := .rol d a b) (show 0x0800000B + d.toNat * 0x100000 + a.toNat * 0x4000 + b.toNat * 0x100 = _ by simp only [pack]; omega) f rfl) f
  generalize encode (.rol d a b) = iw at h ⊢
  have k : decode02 iw = .ok (.rol d a b) := by
    rw [decode02, fldN_at 0 (lo := 0) (n := 8) h rfl rfl, fld_at 3 (lo := 20) (v := d) h rfl rfl, fld_at 2 (lo := 14) (v := a) h rfl rfl, fld_at 1 (lo := 8) (v := b) h rfl rfl]; rfl
  rw [decode, fldN_at 4 (lo := 26) (n := 6) h rfl rfl, k]; rfl

theorem RoundTrip.ror (d a b) : RoundTrip.Statement (.ror d a b) := by
  intro _
  have f : fits [(8, 12), (6, b.toNat), (6, a.toNat), (6, d.toNat), (6, 2)] := ⟨by decide, b.isLt, a.isLt, d.isLt, by decide, trivial⟩
  have h := And.intro (toNat_encode (i := .ror d a b) (show 0x0800000C + d.toNat * 0x100000 + a.toNat * 0x4000 + b.toNat * 0x100 = _ by simp only [pack]; omega) f rfl) f
  generalize encode (.ror d a b) = iw at h ⊢
  have k : decode02 iw = .ok (.ror d a b) := by
    rw [decode02, fldN_at 0 (lo := 0) (n := 8) h rfl rfl, fld_at 3 (lo := 20) (v := d) h rfl rfl, fld_at 2 (lo := 14) (v := a) h rfl rfl, fld_at 1 (lo := 8) (v := b) h rfl rfl]; rfl
  rw [decode, fldN_at 4 (lo := 26) (n := 6) h rfl rfl, k]; rfl

theorem RoundTrip.slt (d a b) : RoundTrip.Statement (.slt d a b) := by
  intro _
  have f : fits [(8, 13), (6, b.toNat), (6, a.toNat), (6, d.toNat), (6, 2)] := ⟨by decide, b.isLt, a.isLt, d.isLt, by decide, trivial⟩
  have h := And.intro (toNat_encode (i := .slt d a b) (show 0x0800000D + d.toNat * 0x100000 + a.toNat * 0x4000 + b.toNat * 0x100 = _ by simp only [pack]; omega) f rfl) f
  generalize encode (.slt d a b) = iw at h ⊢
  have k : decode02 iw = .ok (.slt d a b) := by
    rw [decode02, fldN_at 0 (lo := 0) (n := 8) h rfl rfl, fld_at 3 (lo := 20) (v := d) h rfl rfl, fld_at 2 (lo := 14) (v := a) h rfl rfl, fld_at 1 (lo := 8) (v := b) h rfl rfl]; rfl
  rw [decode, fldN_at 4 (lo := 26) (n := 6) h rfl rfl, k]; rfl

theorem RoundTrip.sltu (d a b) : RoundTrip.Statement (.sltu d a b) := by
  intro _
  have f : fits [(8, 14), (6, b.toNat), (6, a.toNat), (6, d.toNat), (6, 2)] := ⟨by decide, b.isLt, a.isLt, d.isLt, by decide, trivial⟩
  have h := And.intro (toNat_encode (i := .sltu d a b) (show 0x0800000E + d.toNat * 0x100000 + a.toNat * 0x4000 + b.toNat * 0x100 = _ by simp only [pack]; omega) f rfl) f
  generalize encode (.sltu d a b) = iw at h ⊢
  have k : decode02 iw = .ok (.sltu d a b) := by
    rw [decode02, fldN_at 0 (lo := 0) (n := 8) h rfl rfl, fld_at 3 (lo := 20) (v := d) h rfl rfl, fld_at 2 (lo := 14) (v := a) h rfl rfl, fld_at 1 (lo := 8) (v := b) h rfl rfl]; rfl
  rw [decode, fldN_at 4 (lo := 26) (n := 6) h rfl rfl, k]; rfl

theorem RoundTrip.min (d a b) : RoundTrip.Statement (.min d a b) := by
  intro _
  have f : fits [(8, 15), (6, b.toNat), (6, a.toNat), (6, d.toNat), (6, 2)] := ⟨by decide, b.isLt, a.isLt, d.isLt, by decide, trivial⟩
  have h := And.intro (toNat_encode (i := .min d a b) (show 0x0800000F + d.toNat * 0x100000 + a.toNat * 0x4000 + b.toNat * 0x100 = _ by simp only [pack]; omega) f rfl) f
  generalize encode (.min d a b) = iw at h ⊢
  have k : decode02 iw = .ok (.min d a b) := by
    rw [decode02, fldN_at 0 (lo := 0) (n := 8) h rfl rfl, fld_at 3 (lo := 20) (v := d) h rfl rfl, fld_at 2 (lo := 14) (v := a) h rfl rfl, fld_at 1 (lo := 8) (v := b) h rfl rfl]; rfl
  rw [decode, fldN_at 4 (lo := 26) (n := 6) h rfl rfl, k]; rfl

theorem RoundTrip.max (d a b) : RoundTrip.Statement (.max d a b) := by
  intro _
  have f : fits [(8, 16), (6, b.toNat), (6, a.toNat), (6, d.toNat), (6, 2)] := ⟨by decide, b.isLt, a.isLt, d.isLt, by decide, trivial⟩
  have h := And.intro (toNat_encode (i := .max d a b) (show 0x08000010 + d.toNat * 0x100000 + a.toNat * 0x4000 + b.toNat * 0x100 = _ by simp only [pack]; omega) f rfl) f
  generalize encode (.max d a b) = iw at h ⊢
  have k : decode02 iw = .ok (.max d a b) := by
    rw [decode02, fldN_at 0 (lo := 0) (n := 8) h rfl rfl, fld_at 3 (lo := 20) (v := d) h rfl rfl, fld_at 2 (lo := 14) (v := a) h rfl rfl, fld_at 1 (lo := 8) (v := b) h rfl rfl]; rfl
  rw [decode, fldN_at 4 (lo := 26) (n := 6) h rfl rfl, k]; rfl

theorem RoundTrip.minu (d a b) : RoundTrip.Statement (.minu d a b) := by
  intro _
  have f : fits [(8, 17), (6, b.toNat), (6, a.toNat), (6, d.toNat), (6, 2)] := ⟨by decide, b.isLt, a.isLt, d.isLt, by decide, trivial⟩
  have h := And.intro (toNat_encode (i := .minu d a b) (show 0x08000011 + d.toNat * 0x100000 + a.toNat * 0x4000 + b.toNat * 0x100 = _ by simp only [pack]; omega) f rfl) f
  generalize encode (.minu d a b) = iw at h ⊢
  have k : decode02 iw = .ok (.minu d a b) := by
    rw [decode02, fldN_at 0 (lo := 0) (n := 8) h rfl rfl, fld_at 3 (lo := 20) (v := d) h rfl rfl, fld_at 2 (lo := 14) (v := a) h rfl rfl, fld_at 1 (lo := 8) (v := b) h rfl rfl]; rfl
  rw [decode, fldN_at 4 (lo := 26) (n := 6) h rfl rfl, k]; rfl

theorem RoundTrip.maxu (d a b) : RoundTrip.Statement (.maxu d a b) := by
  intro _
  have f : fits [(8, 18), (6, b.toNat), (6, a.toNat), (6, d.toNat), (6, 2)] := ⟨by decide, b.isLt, a.isLt, d.isLt, by decide, trivial⟩
  have h := And.intro (toNat_encode (i := .maxu d a b) (show 0x08000012 + d.toNat * 0x100000 + a.toNat * 0x4000 + b.toNat * 0x100 = _ by simp only [pack]; omega) f rfl) f
  generalize encode (.maxu d a b) = iw at h ⊢
  have k : decode02 iw = .ok (.maxu d a b) := by
    rw [decode02, fldN_at 0 (lo := 0) (n := 8) h rfl rfl, fld_at 3 (lo := 20) (v := d) h rfl rfl, fld_at 2 (lo := 14) (v := a) h rfl rfl, fld_at 1 (lo := 8) (v := b) h rfl rfl]; rfl
  rw [decode, fldN_at 4 (lo := 26) (n := 6) h rfl rfl, k]; rfl

theorem RoundTrip.mul (d a b) : RoundTrip.Statement (.mul d a b) := by
  intro _
  have f : fits [(8, 19), (6, b.toNat), (6, a.toNat), (6, d.toNat), (6, 2)] := ⟨by decide, b.isLt, a.isLt, d.isLt, by decide, trivial⟩
  have h := And.intro (toNat_encode (i := .mul d a b) (show 0x08000013 + d.toNat * 0x100000 + a.toNat * 0x4000 + b.toNat * 0x100 = _ by simp only [pack]; omega) f rfl) f
  generalize encode (.mul d a b) = iw at h ⊢
  have k : decode02 iw = .ok (.mul d a b) := by
    rw [decode02, fldN_at 0 (lo := 0) (n := 8) h rfl rfl, fld_at 3 (lo := 20) (v := d) h rfl rfl, fld_at 2 (lo := 14) (v := a) h rfl rfl, fld_at 1 (lo := 8) (v := b) h rfl rfl]; rfl
  rw [decode, fldN_at 4 (lo := 26) (n := 6) h rfl rfl, k]; rfl

theorem RoundTrip.mulh (d a b) : RoundTrip.Statement (.mulh d a b) := by
  intro _
  have f : fits [(8, 20), (6, b.toNat), (6, a.toNat), (6, d.toNat), (6, 2)] := ⟨by decide, b.isLt, a.isLt, d.isLt, by decide, trivial⟩
  have h := And.intro (toNat_encode (i := .mulh d a b) (show 0x08000014 + d.toNat * 0x100000 + a.toNat * 0x4000 + b.toNat * 0x100 = _ by simp only [pack]; omega) f rfl) f
  generalize encode (.mulh d a b) = iw at h ⊢
  have k : decode02 iw = .ok (.mulh d a b) := by
    rw [decode02, fldN_at 0 (lo := 0) (n := 8) h rfl rfl, fld_at 3 (lo := 20) (v := d) h rfl rfl, fld_at 2 (lo := 14) (v := a) h rfl rfl, fld_at 1 (lo := 8) (v := b) h rfl rfl]; rfl
  rw [decode, fldN_at 4 (lo := 26) (n := 6) h rfl rfl, k]; rfl

theorem RoundTrip.mulhu (d a b) : RoundTrip.Statement (.mulhu d a b) := by
  intro _
  have f : fits [(8, 21), (6, b.toNat), (6, a.toNat), (6, d.toNat), (6, 2)] := ⟨by decide, b.isLt, a.isLt, d.isLt, by decide, trivial⟩
  have h := And.intro (toNat_encode (i := .mulhu d a b) (show 0x08000015 + d.toNat * 0x100000 + a.toNat * 0x4000 + b.toNat * 0x100 = _ by simp only [pack]; omega) f rfl) f
  generalize encode (.mulhu d a b) = iw at h ⊢
  have k : decode02 iw = .ok (.mulhu d a b) := by
    rw [decode02, fldN_at 0 (lo := 0) (n := 8) h rfl rfl, fld_at 3 (lo := 20) (v := d) h rfl rfl, fld_at 2 (lo := 14) (v := a) h rfl rfl, fld_at 1 (lo := 8) (v := b) h rfl rfl]; rfl
  rw [decode, fldN_at 4 (lo := 26) (n := 6) h rfl rfl, k]; rfl

theorem RoundTrip.mulhsu (d a b) : RoundTrip.Statement (.mulhsu d a b) := by
  intro _
  have f : fits [(8, 22), (6, b.toNat), (6, a.toNat), (6, d.toNat), (6, 2)] := ⟨by decide, b.isLt, a.isLt, d.isLt, by decide, trivial⟩
  have h := And.intro (toNat_encode (i := .mulhsu d a b) (show 0x08000016 + d.toNat * 0x100000 + a.toNat * 0x4000 + b.toNat * 0x100 = _ by simp only [pack]; omega) f rfl) f
  generalize encode (.mulhsu d a b) = iw at h ⊢
  have k : decode02 iw = .ok (.mulhsu d a b) := by
    rw [decode02, fldN_at 0 (lo := 0) (n := 8) h rfl rfl, fld_at 3 (lo := 20) (v := d) h rfl rfl, fld_at 2 (lo := 14) (v := a) h rfl rfl, fld_at 1 (lo := 8) (v := b) h rfl rfl]; rfl
  rw [decode, fldN_at 4 (lo := 26) (n := 6) h rfl rfl, k]; rfl

theorem RoundTrip.div (d a b) : RoundTrip.Statement (.div d a b) := by
  intro _
  have f : fits [(8, 23), (6, b.toNat), (6, a.toNat), (6, d.toNat), (6, 2)] := ⟨by decide, b.isLt, a.isLt, d.isLt, by decide, trivial⟩
  have h := And.intro (toNat_encode (i := .div d a b) (show 0x08000017 + d.toNat * 0x100000 + a.toNat * 0x4000 + b.toNat * 0x100 = _ by simp only [pack]; omega) f rfl) f
  generalize encode (.div d a b) = iw at h ⊢
  have k : decode02 iw = .ok (.div d a b) := by
    rw [decode02, fldN_at 0 (lo := 0) (n := 8) h rfl rfl, fld_at 3 (lo := 20) (v := d) h rfl rfl, fld_at 2 (lo := 14) (v := a) h rfl rfl, fld_at 1 (lo := 8) (v := b) h rfl rfl]; rfl
  rw [decode, fldN_at 4 (lo := 26) (n := 6) h rfl rfl, k]; rfl

theorem RoundTrip.divu (d a b) : RoundTrip.Statement (.divu d a b) := by
  intro _
  have f : fits [(8, 24), (6, b.toNat), (6, a.toNat), (6, d.toNat), (6, 2)] := ⟨by decide, b.isLt, a.isLt, d.isLt, by decide, trivial⟩
  have h := And.intro (toNat_encode (i := .divu d a b) (show 0x08000018 + d.toNat * 0x100000 + a.toNat * 0x4000 + b.toNat * 0x100 = _ by simp only [pack]; omega) f rfl) f
  generalize encode (.divu d a b) = iw at h ⊢
  have k : decode02 iw = .ok (.divu d a b) := by
    rw [decode02, fldN_at 0 (lo := 0) (n := 8) h rfl rfl, fld_at 3 (lo := 20) (v := d) h rfl rfl, fld_at 2 (lo := 14) (v := a) h rfl rfl, fld_at 1 (lo := 8) (v := b) h rfl rfl]; rfl
  rw [decode, fldN_at 4 (lo := 26) (n := 6) h rfl rfl, k]; rfl

theorem RoundTrip.rem (d a b) : RoundTrip.Statement (.rem d a b) := by
  intro _
  have f : fits [(8, 25), (6, b.toNat), (6, a.toNat), (6, d.toNat), (6, 2)] := ⟨by decide, b.isLt, a.isLt, d.isLt, by decide, trivial⟩
  have h := And.intro (toNat_encode (i := .rem d a b) (show 0x08000019 + d.toNat * 0x100000 + a.toNat * 0x4000 + b.toNat * 0x100 = _ by simp only [pack]; omega) f rfl) f
  generalize encode (.rem d a b) = iw at h ⊢
  have k : decode02 iw = .ok (.rem d a b) := by
    rw [decode02, fldN_at 0 (lo := 0) (n := 8) h rfl rfl, fld_at 3 (lo := 20) (v := d) h rfl rfl, fld_at 2 (lo := 14) (v := a) h rfl rfl, fld_at 1 (lo := 8) (v := b) h rfl rfl]; rfl
  rw [decode, fldN_at 4 (lo := 26) (n := 6) h rfl rfl, k]; rfl

theorem RoundTrip.remu (d a b) : RoundTrip.Statement (.remu d a b) := by
  intro _
  have f : fits [(8, 26), (6, b.toNat), (6, a.toNat), (6, d.toNat), (6, 2)] := ⟨by decide, b.isLt, a.isLt, d.isLt, by decide, trivial⟩
  have h := And.intro (toNat_encode (i := .remu d a b) (show 0x0800001A + d.toNat * 0x100000 + a.toNat * 0x4000 + b.toNat * 0x100 = _ by simp only [pack]; omega) f rfl) f
  generalize encode (.remu d a b) = iw at h ⊢
  have k : decode02 iw = .ok (.remu d a b) := by
    rw [decode02, fldN_at 0 (lo := 0) (n := 8) h rfl rfl, fld_at 3 (lo := 20) (v := d) h rfl rfl, fld_at 2 (lo := 14) (v := a) h rfl rfl, fld_at 1 (lo := 8) (v := b) h rfl rfl]; rfl
  rw [decode, fldN_at 4 (lo := 26) (n := 6) h rfl rfl, k]; rfl

theorem RoundTrip.clz (d a) : RoundTrip.Statement (.clz d a) := by
  intro _
  have f : fits [(8, 27), (6, 0), (6, a.toNat), (6, d.toNat), (6, 2)] := ⟨by decide, by decide, a.isLt, d.isLt, by decide, trivial⟩
  have h := And.intro (toNat_encode (i := .clz d a) (show 0x0800001B + d.toNat * 0x100000 + a.toNat * 0x4000 = _ by simp only [pack]; omega) f rfl) f
  generalize encode (.clz d a) = iw at h ⊢
  have k : decode02 iw = .ok (.clz d a) := by
    rw [decode02, fldN_at 0 (lo := 0) (n := 8) h rfl rfl, z_at 1 (lo := 8) (n := 6) h rfl rfl, fld_at 3 (lo := 20) (v := d) h rfl rfl, fld_at 2 (lo := 14) (v := a) h rfl rfl]; rfl
  rw [decode, fldN_at 4 (lo := 26) (n := 6) h rfl rfl, k]; rfl

theorem RoundTrip.ctz (d a) : RoundTrip.Statement (.ctz d a) := by
  intro _
  have f : fits [(8, 28), (6, 0), (6, a.toNat), (6, d.toNat), (6, 2)] := ⟨by decide, by decide, a.isLt, d.isLt, by decide, trivial⟩
  have h := And.intro (toNat_encode (i := .ctz d a) (show 0x0800001C + d.toNat * 0x100000 + a.toNat * 0x4000 = _ by simp only [pack]; omega) f rfl) f
  generalize encode (.ctz d a) = iw at h ⊢
  have k : decode02 iw = .ok (.ctz d a) := by
    rw [decode02, fldN_at 0 (lo := 0) (n := 8) h rfl rfl, z_at 1 (lo := 8) (n := 6) h rfl rfl, fld_at 3 (lo := 20) (v := d) h rfl rfl, fld_at 2 (lo := 14) (v := a) h rfl rfl]; rfl
  rw [decode, fldN_at 4 (lo := 26) (n := 6) h rfl rfl, k]; rfl

theorem RoundTrip.popc (d a) : RoundTrip.Statement (.popc d a) := by
  intro _
  have f : fits [(8, 29), (6, 0), (6, a.toNat), (6, d.toNat), (6, 2)] := ⟨by decide, by decide, a.isLt, d.isLt, by decide, trivial⟩
  have h := And.intro (toNat_encode (i := .popc d a) (show 0x0800001D + d.toNat * 0x100000 + a.toNat * 0x4000 = _ by simp only [pack]; omega) f rfl) f
  generalize encode (.popc d a) = iw at h ⊢
  have k : decode02 iw = .ok (.popc d a) := by
    rw [decode02, fldN_at 0 (lo := 0) (n := 8) h rfl rfl, z_at 1 (lo := 8) (n := 6) h rfl rfl, fld_at 3 (lo := 20) (v := d) h rfl rfl, fld_at 2 (lo := 14) (v := a) h rfl rfl]; rfl
  rw [decode, fldN_at 4 (lo := 26) (n := 6) h rfl rfl, k]; rfl

theorem RoundTrip.bswap (d a) : RoundTrip.Statement (.bswap d a) := by
  intro _
  have f : fits [(8, 30), (6, 0), (6, a.toNat), (6, d.toNat), (6, 2)] := ⟨by decide, by decide, a.isLt, d.isLt, by decide, trivial⟩
  have h := And.intro (toNat_encode (i := .bswap d a) (show 0x0800001E + d.toNat * 0x100000 + a.toNat * 0x4000 = _ by simp only [pack]; omega) f rfl) f
  generalize encode (.bswap d a) = iw at h ⊢
  have k : decode02 iw = .ok (.bswap d a) := by
    rw [decode02, fldN_at 0 (lo := 0) (n := 8) h rfl rfl, z_at 1 (lo := 8) (n := 6) h rfl rfl, fld_at 3 (lo := 20) (v := d) h rfl rfl, fld_at 2 (lo := 14) (v := a) h rfl rfl]; rfl
  rw [decode, fldN_at 4 (lo := 26) (n := 6) h rfl rfl, k]; rfl

theorem RoundTrip.sel (d a b) : RoundTrip.Statement (.sel d a b) := by
  intro _
  have f : fits [(8, 31), (6, b.toNat), (6, a.toNat), (6, d.toNat), (6, 2)] := ⟨by decide, b.isLt, a.isLt, d.isLt, by decide, trivial⟩
  have h := And.intro (toNat_encode (i := .sel d a b) (show 0x0800001F + d.toNat * 0x100000 + a.toNat * 0x4000 + b.toNat * 0x100 = _ by simp only [pack]; omega) f rfl) f
  generalize encode (.sel d a b) = iw at h ⊢
  have k : decode02 iw = .ok (.sel d a b) := by
    rw [decode02, fldN_at 0 (lo := 0) (n := 8) h rfl rfl, fld_at 3 (lo := 20) (v := d) h rfl rfl, fld_at 2 (lo := 14) (v := a) h rfl rfl, fld_at 1 (lo := 8) (v := b) h rfl rfl]; rfl
  rw [decode, fldN_at 4 (lo := 26) (n := 6) h rfl rfl, k]; rfl

theorem RoundTrip.addi (d a i) : RoundTrip.Statement (.addi d a i) := by
  intro _
  have f : fits [(14, i.toNat), (6, a.toNat), (6, d.toNat), (6, 3)] := ⟨i.isLt, a.isLt, d.isLt, by decide, trivial⟩
  have h := And.intro (toNat_encode (i := .addi d a i) (show 0x0C000000 + d.toNat * 0x100000 + a.toNat * 0x4000 + i.toNat * 0x1 = _ by simp only [pack]; omega) f rfl) f
  generalize encode (.addi d a i) = iw at h ⊢
  have k : decode03 iw = .ok (.addi d a i) := by
    rw [decode03, fld_at 2 (lo := 20) (v := d) h rfl rfl, fld_at 1 (lo := 14) (v := a) h rfl rfl, fld_at 0 (lo := 0) (v := i) h rfl rfl]
  rw [decode, fldN_at 3 (lo := 26) (n := 6) h rfl rfl, k]; rfl

theorem RoundTrip.andi (d a i) : RoundTrip.Statement (.andi d a i) := by
  intro _
  have f : fits [(14, i.toNat), (6, a.toNat), (6, d.toNat), (6, 4)] := ⟨i.isLt, a.isLt, d.isLt, by decide, trivial⟩
  have h := And.intro (toNat_encode (i := .andi d a i) (show 0x10000000 + d.toNat * 0x100000 + a.toNat * 0x4000 + i.toNat * 0x1 = _ by simp only [pack]; omega) f rfl) f
  generalize encode (.andi d a i) = iw at h ⊢
  have k : decode04 iw = .ok (.andi d a i) := by
    rw [decode04, fld_at 2 (lo := 20) (v := d) h rfl rfl, fld_at 1 (lo := 14) (v := a) h rfl rfl, fld_at 0 (lo := 0) (v := i) h rfl rfl]
  rw [decode, fldN_at 3 (lo := 26) (n := 6) h rfl rfl, k]; rfl

theorem RoundTrip.ori (d a i) : RoundTrip.Statement (.ori d a i) := by
  intro _
  have f : fits [(14, i.toNat), (6, a.toNat), (6, d.toNat), (6, 5)] := ⟨i.isLt, a.isLt, d.isLt, by decide, trivial⟩
  have h := And.intro (toNat_encode (i := .ori d a i) (show 0x14000000 + d.toNat * 0x100000 + a.toNat * 0x4000 + i.toNat * 0x1 = _ by simp only [pack]; omega) f rfl) f
  generalize encode (.ori d a i) = iw at h ⊢
  have k : decode05 iw = .ok (.ori d a i) := by
    rw [decode05, fld_at 2 (lo := 20) (v := d) h rfl rfl, fld_at 1 (lo := 14) (v := a) h rfl rfl, fld_at 0 (lo := 0) (v := i) h rfl rfl]
  rw [decode, fldN_at 3 (lo := 26) (n := 6) h rfl rfl, k]; rfl

theorem RoundTrip.xori (d a i) : RoundTrip.Statement (.xori d a i) := by
  intro _
  have f : fits [(14, i.toNat), (6, a.toNat), (6, d.toNat), (6, 6)] := ⟨i.isLt, a.isLt, d.isLt, by decide, trivial⟩
  have h := And.intro (toNat_encode (i := .xori d a i) (show 0x18000000 + d.toNat * 0x100000 + a.toNat * 0x4000 + i.toNat * 0x1 = _ by simp only [pack]; omega) f rfl) f
  generalize encode (.xori d a i) = iw at h ⊢
  have k : decode06 iw = .ok (.xori d a i) := by
    rw [decode06, fld_at 2 (lo := 20) (v := d) h rfl rfl, fld_at 1 (lo := 14) (v := a) h rfl rfl, fld_at 0 (lo := 0) (v := i) h rfl rfl]
  rw [decode, fldN_at 3 (lo := 26) (n := 6) h rfl rfl, k]; rfl

theorem RoundTrip.slli (d a n) : RoundTrip.Statement (.slli d a n) := by
  intro _
  have f : fits [(6, n.toNat), (6, 0), (2, 0), (6, a.toNat), (6, d.toNat), (6, 7)] := ⟨n.isLt, by decide, by decide, a.isLt, d.isLt, by decide, trivial⟩
  have h := And.intro (toNat_encode (i := .slli d a n) (show 0x1C000000 + d.toNat * 0x100000 + a.toNat * 0x4000 + n.toNat * 0x1 = _ by simp only [pack]; omega) f rfl) f
  generalize encode (.slli d a n) = iw at h ⊢
  have k : decode07 iw = .ok (.slli d a n) := by
    rw [decode07, fldN_at 2 (lo := 12) (n := 2) h rfl rfl, z_at 1 (lo := 6) (n := 6) h rfl rfl, fld_at 4 (lo := 20) (v := d) h rfl rfl, fld_at 3 (lo := 14) (v := a) h rfl rfl, fld_at 0 (lo := 0) (v := n) h rfl rfl]; rfl
  rw [decode, fldN_at 5 (lo := 26) (n := 6) h rfl rfl, k]; rfl

theorem RoundTrip.srli (d a n) : RoundTrip.Statement (.srli d a n) := by
  intro _
  have f : fits [(6, n.toNat), (6, 0), (2, 1), (6, a.toNat), (6, d.toNat), (6, 7)] := ⟨n.isLt, by decide, by decide, a.isLt, d.isLt, by decide, trivial⟩
  have h := And.intro (toNat_encode (i := .srli d a n) (show 0x1C001000 + d.toNat * 0x100000 + a.toNat * 0x4000 + n.toNat * 0x1 = _ by simp only [pack]; omega) f rfl) f
  generalize encode (.srli d a n) = iw at h ⊢
  have k : decode07 iw = .ok (.srli d a n) := by
    rw [decode07, fldN_at 2 (lo := 12) (n := 2) h rfl rfl, z_at 1 (lo := 6) (n := 6) h rfl rfl, fld_at 4 (lo := 20) (v := d) h rfl rfl, fld_at 3 (lo := 14) (v := a) h rfl rfl, fld_at 0 (lo := 0) (v := n) h rfl rfl]; rfl
  rw [decode, fldN_at 5 (lo := 26) (n := 6) h rfl rfl, k]; rfl

theorem RoundTrip.srai (d a n) : RoundTrip.Statement (.srai d a n) := by
  intro _
  have f : fits [(6, n.toNat), (6, 0), (2, 2), (6, a.toNat), (6, d.toNat), (6, 7)] := ⟨n.isLt, by decide, by decide, a.isLt, d.isLt, by decide, trivial⟩
  have h := And.intro (toNat_encode (i := .srai d a n) (show 0x1C002000 + d.toNat * 0x100000 + a.toNat * 0x4000 + n.toNat * 0x1 = _ by simp only [pack]; omega) f rfl) f
  generalize encode (.srai d a n) = iw at h ⊢
  have k : decode07 iw = .ok (.srai d a n) := by
    rw [decode07, fldN_at 2 (lo := 12) (n := 2) h rfl rfl, z_at 1 (lo := 6) (n := 6) h rfl rfl, fld_at 4 (lo := 20) (v := d) h rfl rfl, fld_at 3 (lo := 14) (v := a) h rfl rfl, fld_at 0 (lo := 0) (v := n) h rfl rfl]; rfl
  rw [decode, fldN_at 5 (lo := 26) (n := 6) h rfl rfl, k]; rfl

theorem RoundTrip.rori (d a n) : RoundTrip.Statement (.rori d a n) := by
  intro _
  have f : fits [(6, n.toNat), (6, 0), (2, 3), (6, a.toNat), (6, d.toNat), (6, 7)] := ⟨n.isLt, by decide, by decide, a.isLt, d.isLt, by decide, trivial⟩
  have h := And.intro (toNat_encode (i := .rori d a n) (show 0x1C003000 + d.toNat * 0x100000 + a.toNat * 0x4000 + n.toNat * 0x1 = _ by simp only [pack]; omega) f rfl) f
  generalize encode (.rori d a n) = iw at h ⊢
  have k : decode07 iw = .ok (.rori d a n) := by
    rw [decode07, fldN_at 2 (lo := 12) (n := 2) h rfl rfl, z_at 1 (lo := 6) (n := 6) h rfl rfl, fld_at 4 (lo := 20) (v := d) h rfl rfl, fld_at 3 (lo := 14) (v := a) h rfl rfl, fld_at 0 (lo := 0) (v := n) h rfl rfl]; rfl
  rw [decode, fldN_at 5 (lo := 26) (n := 6) h rfl rfl, k]; rfl

theorem RoundTrip.lih (d a i) : RoundTrip.Statement (.lih d a i) := by
  intro _
  have f : fits [(14, i.toNat), (6, a.toNat), (6, d.toNat), (6, 8)] := ⟨i.isLt, a.isLt, d.isLt, by decide, trivial⟩
  have h := And.intro (toNat_encode (i := .lih d a i) (show 0x20000000 + d.toNat * 0x100000 + a.toNat * 0x4000 + i.toNat * 0x1 = _ by simp only [pack]; omega) f rfl) f
  generalize encode (.lih d a i) = iw at h ⊢
  have k : decode08 iw = .ok (.lih d a i) := by
    rw [decode08, fld_at 2 (lo := 20) (v := d) h rfl rfl, fld_at 1 (lo := 14) (v := a) h rfl rfl, fld_at 0 (lo := 0) (v := i) h rfl rfl]
  rw [decode, fldN_at 3 (lo := 26) (n := 6) h rfl rfl, k]; rfl

theorem RoundTrip.slti (d a i) : RoundTrip.Statement (.slti d a i) := by
  intro _
  have f : fits [(14, i.toNat), (6, a.toNat), (6, d.toNat), (6, 9)] := ⟨i.isLt, a.isLt, d.isLt, by decide, trivial⟩
  have h := And.intro (toNat_encode (i := .slti d a i) (show 0x24000000 + d.toNat * 0x100000 + a.toNat * 0x4000 + i.toNat * 0x1 = _ by simp only [pack]; omega) f rfl) f
  generalize encode (.slti d a i) = iw at h ⊢
  have k : decode09 iw = .ok (.slti d a i) := by
    rw [decode09, fld_at 2 (lo := 20) (v := d) h rfl rfl, fld_at 1 (lo := 14) (v := a) h rfl rfl, fld_at 0 (lo := 0) (v := i) h rfl rfl]
  rw [decode, fldN_at 3 (lo := 26) (n := 6) h rfl rfl, k]; rfl

theorem RoundTrip.sltiu (d a i) : RoundTrip.Statement (.sltiu d a i) := by
  intro _
  have f : fits [(14, i.toNat), (6, a.toNat), (6, d.toNat), (6, 10)] := ⟨i.isLt, a.isLt, d.isLt, by decide, trivial⟩
  have h := And.intro (toNat_encode (i := .sltiu d a i) (show 0x28000000 + d.toNat * 0x100000 + a.toNat * 0x4000 + i.toNat * 0x1 = _ by simp only [pack]; omega) f rfl) f
  generalize encode (.sltiu d a i) = iw at h ⊢
  have k : decode0A iw = .ok (.sltiu d a i) := by
    rw [decode0A, fld_at 2 (lo := 20) (v := d) h rfl rfl, fld_at 1 (lo := 14) (v := a) h rfl rfl, fld_at 0 (lo := 0) (v := i) h rfl rfl]
  rw [decode, fldN_at 3 (lo := 26) (n := 6) h rfl rfl, k]; rfl

theorem RoundTrip.muli (d a i) : RoundTrip.Statement (.muli d a i) := by
  intro _
  have f : fits [(14, i.toNat), (6, a.toNat), (6, d.toNat), (6, 11)] := ⟨i.isLt, a.isLt, d.isLt, by decide, trivial⟩
  have h := And.intro (toNat_encode (i := .muli d a i) (show 0x2C000000 + d.toNat * 0x100000 + a.toNat * 0x4000 + i.toNat * 0x1 = _ by simp only [pack]; omega) f rfl) f
  generalize encode (.muli d a i) = iw at h ⊢
  have k : decode0B iw = .ok (.muli d a i) := by
    rw [decode0B, fld_at 2 (lo := 20) (v := d) h rfl rfl, fld_at 1 (lo := 14) (v := a) h rfl rfl, fld_at 0 (lo := 0) (v := i) h rfl rfl]
  rw [decode, fldN_at 3 (lo := 26) (n := 6) h rfl rfl, k]; rfl

theorem RoundTrip.ld (d b s e l p) : RoundTrip.Statement (.ld d b s e l p) := by
  intro hc
  have f : fits [(8, p.toNat), (1, l.toNat), (2, e.toNat), (3, s.toNat), (6, b.toNat), (6, d.toNat), (6, 12)] := ⟨p.isLt, l.isLt, e.isLt, s.isLt, b.isLt, d.isLt, by decide, trivial⟩
  have h := And.intro (toNat_encode (i := .ld d b s e l p) (show 0x30000000 + d.toNat * 0x100000 + b.toNat * 0x4000 + s.toNat * 0x800 + e.toNat * 0x200 + l.toNat * 0x100 + p.toNat * 0x1 = _ by simp only [pack]; omega) f rfl) f
  generalize encode (.ld d b s e l p) = iw at h ⊢
  have hc : (s != 7) = true := hc
  have k : decode0C iw = .ok (.ld d b s e l p) := by
    rw [decode0C, fldN_at 3 (lo := 11) (n := 3) h rfl rfl, fld_at 5 (lo := 20) (v := d) h rfl rfl, fld_at 4 (lo := 14) (v := b) h rfl rfl, fld_at 3 (lo := 11) (v := s) h rfl rfl, fld_at 2 (lo := 9) (v := e) h rfl rfl, fld_at 1 (lo := 8) (v := l) h rfl rfl, fld_at 0 (lo := 0) (v := p) h rfl rfl]
    split
    · rename_i e; rw [show s = 7 from BitVec.eq_of_toNat_eq e] at hc; exact Bool.noConfusion hc
    · rfl
  rw [decode, fldN_at 6 (lo := 26) (n := 6) h rfl rfl, k]; rfl

theorem RoundTrip.pf (b e l p) : RoundTrip.Statement (.pf b e l p) := by
  intro _
  have f : fits [(8, p.toNat), (1, l.toNat), (2, e.toNat), (3, 7), (6, b.toNat), (6, 0), (6, 12)] := ⟨p.isLt, l.isLt, e.isLt, by decide, b.isLt, by decide, by decide, trivial⟩
  have h := And.intro (toNat_encode (i := .pf b e l p) (show 0x30003800 + b.toNat * 0x4000 + e.toNat * 0x200 + l.toNat * 0x100 + p.toNat * 0x1 = _ by simp only [pack]; omega) f rfl) f
  generalize encode (.pf b e l p) = iw at h ⊢
  have k : decode0C iw = .ok (.pf b e l p) := by
    rw [decode0C, fldN_at 3 (lo := 11) (n := 3) h rfl rfl, z_at 5 (lo := 20) (n := 6) h rfl rfl, fld_at 4 (lo := 14) (v := b) h rfl rfl, fld_at 2 (lo := 9) (v := e) h rfl rfl, fld_at 1 (lo := 8) (v := l) h rfl rfl, fld_at 0 (lo := 0) (v := p) h rfl rfl]; rfl
  rw [decode, fldN_at 6 (lo := 26) (n := 6) h rfl rfl, k]; rfl

theorem RoundTrip.st (d b s e l p) : RoundTrip.Statement (.st d b s e l p) := by
  intro hc
  have f : fits [(8, p.toNat), (1, l.toNat), (2, e.toNat), (3, s.toNat), (6, b.toNat), (6, d.toNat), (6, 13)] := ⟨p.isLt, l.isLt, e.isLt, s.isLt, b.isLt, d.isLt, by decide, trivial⟩
  have h := And.intro (toNat_encode (i := .st d b s e l p) (show 0x34000000 + d.toNat * 0x100000 + b.toNat * 0x4000 + s.toNat * 0x800 + e.toNat * 0x200 + l.toNat * 0x100 + p.toNat * 0x1 = _ by simp only [pack]; omega) f rfl) f
  generalize encode (.st d b s e l p) = iw at h ⊢
  have hc : (s == 0 || s == 2 || s == 4 || s == 6) = true := hc
  have k : decode0D iw = .ok (.st d b s e l p) := by
    rw [decode0D, fld_at 3 (lo := 11) (v := s) h rfl rfl, fld_at 5 (lo := 20) (v := d) h rfl rfl, fld_at 4 (lo := 14) (v := b) h rfl rfl, fld_at 2 (lo := 9) (v := e) h rfl rfl, fld_at 1 (lo := 8) (v := l) h rfl rfl, fld_at 0 (lo := 0) (v := p) h rfl rfl, hc]; rfl
  rw [decode, fldN_at 6 (lo := 26) (n := 6) h rfl rfl, k]; rfl

theorem RoundTrip.ldx (d b s e l i) : RoundTrip.Statement (.ldx d b s e l i) := by
  intro hc
  have f : fits [(2, 0), (6, i.toNat), (1, l.toNat), (2, e.toNat), (3, s.toNat), (6, b.toNat), (6, d.toNat), (6, 14)] := ⟨by decide, i.isLt, l.isLt, e.isLt, s.isLt, b.isLt, d.isLt, by decide, trivial⟩
  have h := And.intro (toNat_encode (i := .ldx d b s e l i) (show 0x38000000 + d.toNat * 0x100000 + b.toNat * 0x4000 + s.toNat * 0x800 + e.toNat * 0x200 + l.toNat * 0x100 + i.toNat * 0x4 = _ by simp only [pack]; omega) f rfl) f
  generalize encode (.ldx d b s e l i) = iw at h ⊢
  have hc : (s != 7) = true := hc
  have k : decode0E iw = .ok (.ldx d b s e l i) := by
    rw [decode0E, fldN_at 4 (lo := 11) (n := 3) h rfl rfl, z_at 0 (lo := 0) (n := 2) h rfl rfl, fld_at 6 (lo := 20) (v := d) h rfl rfl, fld_at 5 (lo := 14) (v := b) h rfl rfl, fld_at 4 (lo := 11) (v := s) h rfl rfl, fld_at 3 (lo := 9) (v := e) h rfl rfl, fld_at 2 (lo := 8) (v := l) h rfl rfl, fld_at 1 (lo := 2) (v := i) h rfl rfl]
    split
    · rename_i e; rw [show s = 7 from BitVec.eq_of_toNat_eq e] at hc; exact Bool.noConfusion hc
    · rfl
  rw [decode, fldN_at 7 (lo := 26) (n := 6) h rfl rfl, k]; rfl

theorem RoundTrip.pfIndexed (b e l i) : RoundTrip.Statement (.pfIndexed b e l i) := by
  intro _
  have f : fits [(2, 0), (6, i.toNat), (1, l.toNat), (2, e.toNat), (3, 7), (6, b.toNat), (6, 0), (6, 14)] := ⟨by decide, i.isLt, l.isLt, e.isLt, by decide, b.isLt, by decide, by decide, trivial⟩
  have h := And.intro (toNat_encode (i := .pfIndexed b e l i) (show 0x38003800 + b.toNat * 0x4000 + e.toNat * 0x200 + l.toNat * 0x100 + i.toNat * 0x4 = _ by simp only [pack]; omega) f rfl) f
  generalize encode (.pfIndexed b e l i) = iw at h ⊢
  have k : decode0E iw = .ok (.pfIndexed b e l i) := by
    rw [decode0E, fldN_at 4 (lo := 11) (n := 3) h rfl rfl, z_at 0 (lo := 0) (n := 2) h rfl rfl, z_at 6 (lo := 20) (n := 6) h rfl rfl, fld_at 5 (lo := 14) (v := b) h rfl rfl, fld_at 3 (lo := 9) (v := e) h rfl rfl, fld_at 2 (lo := 8) (v := l) h rfl rfl, fld_at 1 (lo := 2) (v := i) h rfl rfl]; rfl
  rw [decode, fldN_at 7 (lo := 26) (n := 6) h rfl rfl, k]; rfl

theorem RoundTrip.stx (d b s e l i) : RoundTrip.Statement (.stx d b s e l i) := by
  intro hc
  have f : fits [(2, 0), (6, i.toNat), (1, l.toNat), (2, e.toNat), (3, s.toNat), (6, b.toNat), (6, d.toNat), (6, 15)] := ⟨by decide, i.isLt, l.isLt, e.isLt, s.isLt, b.isLt, d.isLt, by decide, trivial⟩
  have h := And.intro (toNat_encode (i := .stx d b s e l i) (show 0x3C000000 + d.toNat * 0x100000 + b.toNat * 0x4000 + s.toNat * 0x800 + e.toNat * 0x200 + l.toNat * 0x100 + i.toNat * 0x4 = _ by simp only [pack]; omega) f rfl) f
  generalize encode (.stx d b s e l i) = iw at h ⊢
  have hc : (s == 0 || s == 2 || s == 4 || s == 6) = true := hc
  have k : decode0F iw = .ok (.stx d b s e l i) := by
    rw [decode0F, z_at 0 (lo := 0) (n := 2) h rfl rfl, fld_at 4 (lo := 11) (v := s) h rfl rfl, fld_at 6 (lo := 20) (v := d) h rfl rfl, fld_at 5 (lo := 14) (v := b) h rfl rfl, fld_at 3 (lo := 9) (v := e) h rfl rfl, fld_at 2 (lo := 8) (v := l) h rfl rfl, fld_at 1 (lo := 2) (v := i) h rfl rfl, hc]; rfl
  rw [decode, fldN_at 7 (lo := 26) (n := 6) h rfl rfl, k]; rfl

theorem RoundTrip.amoSwap (d a b w) : RoundTrip.Statement (.amoSwap d a b w) := by
  intro _
  have f : fits [(7, 0), (1, w.toNat), (6, b.toNat), (6, a.toNat), (6, d.toNat), (6, 16)] := ⟨by decide, w.isLt, b.isLt, a.isLt, d.isLt, by decide, trivial⟩
  have h := And.intro (toNat_encode (i := .amoSwap d a b w) (show 0x40000000 + d.toNat * 0x100000 + a.toNat * 0x4000 + b.toNat * 0x100 + w.toNat * 0x80 = _ by simp only [pack]; omega) f rfl) f
  generalize encode (.amoSwap d a b w) = iw at h ⊢
  have k : decode10 iw = .ok (.amoSwap d a b w) := by
    rw [decode10, fldN_at 0 (lo := 0) (n := 7) h rfl rfl, fld_at 4 (lo := 20) (v := d) h rfl rfl, fld_at 3 (lo := 14) (v := a) h rfl rfl, fld_at 2 (lo := 8) (v := b) h rfl rfl, fld_at 1 (lo := 7) (v := w) h rfl rfl]; rfl
  rw [decode, fldN_at 5 (lo := 26) (n := 6) h rfl rfl, k]; rfl

theorem RoundTrip.amoCas (d a b w) : RoundTrip.Statement (.amoCas d a b w) := by
  intro _
  have f : fits [(7, 1), (1, w.toNat), (6, b.toNat), (6, a.toNat), (6, d.toNat), (6, 16)] := ⟨by decide, w.isLt, b.isLt, a.isLt, d.isLt, by decide, trivial⟩
  have h := And.intro (toNat_encode (i := .amoCas d a b w) (show 0x40000001 + d.toNat * 0x100000 + a.toNat * 0x4000 + b.toNat * 0x100 + w.toNat * 0x80 = _ by simp only [pack]; omega) f rfl) f
  generalize encode (.amoCas d a b w) = iw at h ⊢
  have k : decode10 iw = .ok (.amoCas d a b w) := by
    rw [decode10, fldN_at 0 (lo := 0) (n := 7) h rfl rfl, fld_at 4 (lo := 20) (v := d) h rfl rfl, fld_at 3 (lo := 14) (v := a) h rfl rfl, fld_at 2 (lo := 8) (v := b) h rfl rfl, fld_at 1 (lo := 7) (v := w) h rfl rfl]; rfl
  rw [decode, fldN_at 5 (lo := 26) (n := 6) h rfl rfl, k]; rfl

theorem RoundTrip.amoAdd (d a b w) : RoundTrip.Statement (.amoAdd d a b w) := by
  intro _
  have f : fits [(7, 2), (1, w.toNat), (6, b.toNat), (6, a.toNat), (6, d.toNat), (6, 16)] := ⟨by decide, w.isLt, b.isLt, a.isLt, d.isLt, by decide, trivial⟩
  have h := And.intro (toNat_encode (i := .amoAdd d a b w) (show 0x40000002 + d.toNat * 0x100000 + a.toNat * 0x4000 + b.toNat * 0x100 + w.toNat * 0x80 = _ by simp only [pack]; omega) f rfl) f
  generalize encode (.amoAdd d a b w) = iw at h ⊢
  have k : decode10 iw = .ok (.amoAdd d a b w) := by
    rw [decode10, fldN_at 0 (lo := 0) (n := 7) h rfl rfl, fld_at 4 (lo := 20) (v := d) h rfl rfl, fld_at 3 (lo := 14) (v := a) h rfl rfl, fld_at 2 (lo := 8) (v := b) h rfl rfl, fld_at 1 (lo := 7) (v := w) h rfl rfl]; rfl
  rw [decode, fldN_at 5 (lo := 26) (n := 6) h rfl rfl, k]; rfl

theorem RoundTrip.amoAnd (d a b w) : RoundTrip.Statement (.amoAnd d a b w) := by
  intro _
  have f : fits [(7, 3), (1, w.toNat), (6, b.toNat), (6, a.toNat), (6, d.toNat), (6, 16)] := ⟨by decide, w.isLt, b.isLt, a.isLt, d.isLt, by decide, trivial⟩
  have h := And.intro (toNat_encode (i := .amoAnd d a b w) (show 0x40000003 + d.toNat * 0x100000 + a.toNat * 0x4000 + b.toNat * 0x100 + w.toNat * 0x80 = _ by simp only [pack]; omega) f rfl) f
  generalize encode (.amoAnd d a b w) = iw at h ⊢
  have k : decode10 iw = .ok (.amoAnd d a b w) := by
    rw [decode10, fldN_at 0 (lo := 0) (n := 7) h rfl rfl, fld_at 4 (lo := 20) (v := d) h rfl rfl, fld_at 3 (lo := 14) (v := a) h rfl rfl, fld_at 2 (lo := 8) (v := b) h rfl rfl, fld_at 1 (lo := 7) (v := w) h rfl rfl]; rfl
  rw [decode, fldN_at 5 (lo := 26) (n := 6) h rfl rfl, k]; rfl

theorem RoundTrip.amoOr (d a b w) : RoundTrip.Statement (.amoOr d a b w) := by
  intro _
  have f : fits [(7, 4), (1, w.toNat), (6, b.toNat), (6, a.toNat), (6, d.toNat), (6, 16)] := ⟨by decide, w.isLt, b.isLt, a.isLt, d.isLt, by decide, trivial⟩
  have h := And.intro (toNat_encode (i := .amoOr d a b w) (show 0x40000004 + d.toNat * 0x100000 + a.toNat * 0x4000 + b.toNat * 0x100 + w.toNat * 0x80 = _ by simp only [pack]; omega) f rfl) f
  generalize encode (.amoOr d a b w) = iw at h ⊢
  have k : decode10 iw = .ok (.amoOr d a b w) := by
    rw [decode10, fldN_at 0 (lo := 0) (n := 7) h rfl rfl, fld_at 4 (lo := 20) (v := d) h rfl rfl, fld_at 3 (lo := 14) (v := a) h rfl rfl, fld_at 2 (lo := 8) (v := b) h rfl rfl, fld_at 1 (lo := 7) (v := w) h rfl rfl]; rfl
  rw [decode, fldN_at 5 (lo := 26) (n := 6) h rfl rfl, k]; rfl

theorem RoundTrip.amoXor (d a b w) : RoundTrip.Statement (.amoXor d a b w) := by
  intro _
  have f : fits [(7, 5), (1, w.toNat), (6, b.toNat), (6, a.toNat), (6, d.toNat), (6, 16)] := ⟨by decide, w.isLt, b.isLt, a.isLt, d.isLt, by decide, trivial⟩
  have h := And.intro (toNat_encode (i := .amoXor d a b w) (show 0x40000005 + d.toNat * 0x100000 + a.toNat * 0x4000 + b.toNat * 0x100 + w.toNat * 0x80 = _ by simp only [pack]; omega) f rfl) f
  generalize encode (.amoXor d a b w) = iw at h ⊢
  have k : decode10 iw = .ok (.amoXor d a b w) := by
    rw [decode10, fldN_at 0 (lo := 0) (n := 7) h rfl rfl, fld_at 4 (lo := 20) (v := d) h rfl rfl, fld_at 3 (lo := 14) (v := a) h rfl rfl, fld_at 2 (lo := 8) (v := b) h rfl rfl, fld_at 1 (lo := 7) (v := w) h rfl rfl]; rfl
  rw [decode, fldN_at 5 (lo := 26) (n := 6) h rfl rfl, k]; rfl

theorem RoundTrip.amoMin (d a b w) : RoundTrip.Statement (.amoMin d a b w) := by
  intro _
  have f : fits [(7, 6), (1, w.toNat), (6, b.toNat), (6, a.toNat), (6, d.toNat), (6, 16)] := ⟨by decide, w.isLt, b.isLt, a.isLt, d.isLt, by decide, trivial⟩
  have h := And.intro (toNat_encode (i := .amoMin d a b w) (show 0x40000006 + d.toNat * 0x100000 + a.toNat * 0x4000 + b.toNat * 0x100 + w.toNat * 0x80 = _ by simp only [pack]; omega) f rfl) f
  generalize encode (.amoMin d a b w) = iw at h ⊢
  have k : decode10 iw = .ok (.amoMin d a b w) := by
    rw [decode10, fldN_at 0 (lo := 0) (n := 7) h rfl rfl, fld_at 4 (lo := 20) (v := d) h rfl rfl, fld_at 3 (lo := 14) (v := a) h rfl rfl, fld_at 2 (lo := 8) (v := b) h rfl rfl, fld_at 1 (lo := 7) (v := w) h rfl rfl]; rfl
  rw [decode, fldN_at 5 (lo := 26) (n := 6) h rfl rfl, k]; rfl

theorem RoundTrip.amoMax (d a b w) : RoundTrip.Statement (.amoMax d a b w) := by
  intro _
  have f : fits [(7, 7), (1, w.toNat), (6, b.toNat), (6, a.toNat), (6, d.toNat), (6, 16)] := ⟨by decide, w.isLt, b.isLt, a.isLt, d.isLt, by decide, trivial⟩
  have h := And.intro (toNat_encode (i := .amoMax d a b w) (show 0x40000007 + d.toNat * 0x100000 + a.toNat * 0x4000 + b.toNat * 0x100 + w.toNat * 0x80 = _ by simp only [pack]; omega) f rfl) f
  generalize encode (.amoMax d a b w) = iw at h ⊢
  have k : decode10 iw = .ok (.amoMax d a b w) := by
    rw [decode10, fldN_at 0 (lo := 0) (n := 7) h rfl rfl, fld_at 4 (lo := 20) (v := d) h rfl rfl, fld_at 3 (lo := 14) (v := a) h rfl rfl, fld_at 2 (lo := 8) (v := b) h rfl rfl, fld_at 1 (lo := 7) (v := w) h rfl rfl]; rfl
  rw [decode, fldN_at 5 (lo := 26) (n := 6) h rfl rfl, k]; rfl

theorem RoundTrip.amoMinu (d a b w) : RoundTrip.Statement (.amoMinu d a b w) := by
  intro _
  have f : fits [(7, 8), (1, w.toNat), (6, b.toNat), (6, a.toNat), (6, d.toNat), (6, 16)] := ⟨by decide, w.isLt, b.isLt, a.isLt, d.isLt, by decide, trivial⟩
  have h := And.intro (toNat_encode (i := .amoMinu d a b w) (show 0x40000008 + d.toNat * 0x100000 + a.toNat * 0x4000 + b.toNat * 0x100 + w.toNat * 0x80 = _ by simp only [pack]; omega) f rfl) f
  generalize encode (.amoMinu d a b w) = iw at h ⊢
  have k : decode10 iw = .ok (.amoMinu d a b w) := by
    rw [decode10, fldN_at 0 (lo := 0) (n := 7) h rfl rfl, fld_at 4 (lo := 20) (v := d) h rfl rfl, fld_at 3 (lo := 14) (v := a) h rfl rfl, fld_at 2 (lo := 8) (v := b) h rfl rfl, fld_at 1 (lo := 7) (v := w) h rfl rfl]; rfl
  rw [decode, fldN_at 5 (lo := 26) (n := 6) h rfl rfl, k]; rfl

theorem RoundTrip.amoMaxu (d a b w) : RoundTrip.Statement (.amoMaxu d a b w) := by
  intro _
  have f : fits [(7, 9), (1, w.toNat), (6, b.toNat), (6, a.toNat), (6, d.toNat), (6, 16)] := ⟨by decide, w.isLt, b.isLt, a.isLt, d.isLt, by decide, trivial⟩
  have h := And.intro (toNat_encode (i := .amoMaxu d a b w) (show 0x40000009 + d.toNat * 0x100000 + a.toNat * 0x4000 + b.toNat * 0x100 + w.toNat * 0x80 = _ by simp only [pack]; omega) f rfl) f
  generalize encode (.amoMaxu d a b w) = iw at h ⊢
  have k : decode10 iw = .ok (.amoMaxu d a b w) := by
    rw [decode10, fldN_at 0 (lo := 0) (n := 7) h rfl rfl, fld_at 4 (lo := 20) (v := d) h rfl rfl, fld_at 3 (lo := 14) (v := a) h rfl rfl, fld_at 2 (lo := 8) (v := b) h rfl rfl, fld_at 1 (lo := 7) (v := w) h rfl rfl]; rfl
  rw [decode, fldN_at 5 (lo := 26) (n := 6) h rfl rfl, k]; rfl

theorem RoundTrip.ldc (d a) : RoundTrip.Statement (.ldc d a) := by
  intro _
  have f : fits [(8, 0), (6, 0), (6, a.toNat), (6, d.toNat), (6, 17)] := ⟨by decide, by decide, a.isLt, d.isLt, by decide, trivial⟩
  have h := And.intro (toNat_encode (i := .ldc d a) (show 0x44000000 + d.toNat * 0x100000 + a.toNat * 0x4000 = _ by simp only [pack]; omega) f rfl) f
  generalize encode (.ldc d a) = iw at h ⊢
  have k : decode11 iw = .ok (.ldc d a) := by
    rw [decode11, fldN_at 0 (lo := 0) (n := 8) h rfl rfl, z_at 1 (lo := 8) (n := 6) h rfl rfl, fld_at 3 (lo := 20) (v := d) h rfl rfl, fld_at 2 (lo := 14) (v := a) h rfl rfl]; rfl
  rw [decode, fldN_at 4 (lo := 26) (n := 6) h rfl rfl, k]; rfl

theorem RoundTrip.stp (a b) : RoundTrip.Statement (.stp a b) := by
  intro _
  have f : fits [(8, 1), (6, b.toNat), (6, a.toNat), (6, 0), (6, 17)] := ⟨by decide, b.isLt, a.isLt, by decide, by decide, trivial⟩
  have h := And.intro (toNat_encode (i := .stp a b) (show 0x44000001 + a.toNat * 0x4000 + b.toNat * 0x100 = _ by simp only [pack]; omega) f rfl) f
  generalize encode (.stp a b) = iw at h ⊢
  have k : decode11 iw = .ok (.stp a b) := by
    rw [decode11, fldN_at 0 (lo := 0) (n := 8) h rfl rfl, z_at 3 (lo := 20) (n := 6) h rfl rfl, fld_at 2 (lo := 14) (v := a) h rfl rfl, fld_at 1 (lo := 8) (v := b) h rfl rfl]; rfl
  rw [decode, fldN_at 4 (lo := 26) (n := 6) h rfl rfl, k]; rfl

theorem RoundTrip.ldf (d a) : RoundTrip.Statement (.ldf d a) := by
  intro _
  have f : fits [(8, 2), (6, 0), (6, a.toNat), (6, d.toNat), (6, 17)] := ⟨by decide, by decide, a.isLt, d.isLt, by decide, trivial⟩
  have h := And.intro (toNat_encode (i := .ldf d a) (show 0x44000002 + d.toNat * 0x100000 + a.toNat * 0x4000 = _ by simp only [pack]; omega) f rfl) f
  generalize encode (.ldf d a) = iw at h ⊢
  have k : decode11 iw = .ok (.ldf d a) := by
    rw [decode11, fldN_at 0 (lo := 0) (n := 8) h rfl rfl, z_at 1 (lo := 8) (n := 6) h rfl rfl, fld_at 3 (lo := 20) (v := d) h rfl rfl, fld_at 2 (lo := 14) (v := a) h rfl rfl]; rfl
  rw [decode, fldN_at 4 (lo := 26) (n := 6) h rfl rfl, k]; rfl

theorem RoundTrip.feSet (a) : RoundTrip.Statement (.feSet a) := by
  intro _
  have f : fits [(8, 3), (6, 0), (6, a.toNat), (6, 0), (6, 17)] := ⟨by decide, by decide, a.isLt, by decide, by decide, trivial⟩
  have h := And.intro (toNat_encode (i := .feSet a) (show 0x44000003 + a.toNat * 0x4000 = _ by simp only [pack]; omega) f rfl) f
  generalize encode (.feSet a) = iw at h ⊢
  have k : decode11 iw = .ok (.feSet a) := by
    rw [decode11, fldN_at 0 (lo := 0) (n := 8) h rfl rfl, z_at 1 (lo := 8) (n := 6) h rfl rfl, z_at 3 (lo := 20) (n := 6) h rfl rfl, fld_at 2 (lo := 14) (v := a) h rfl rfl]; rfl
  rw [decode, fldN_at 4 (lo := 26) (n := 6) h rfl rfl, k]; rfl

theorem RoundTrip.feFill (a) : RoundTrip.Statement (.feFill a) := by
  intro _
  have f : fits [(8, 4), (6, 0), (6, a.toNat), (6, 0), (6, 17)] := ⟨by decide, by decide, a.isLt, by decide, by decide, trivial⟩
  have h := And.intro (toNat_encode (i := .feFill a) (show 0x44000004 + a.toNat * 0x4000 = _ by simp only [pack]; omega) f rfl) f
  generalize encode (.feFill a) = iw at h ⊢
  have k : decode11 iw = .ok (.feFill a) := by
    rw [decode11, fldN_at 0 (lo := 0) (n := 8) h rfl rfl, z_at 1 (lo := 8) (n := 6) h rfl rfl, z_at 3 (lo := 20) (n := 6) h rfl rfl, fld_at 2 (lo := 14) (v := a) h rfl rfl]; rfl
  rw [decode, fldN_at 4 (lo := 26) (n := 6) h rfl rfl, k]; rfl

theorem RoundTrip.feProbe (d a) : RoundTrip.Statement (.feProbe d a) := by
  intro _
  have f : fits [(8, 5), (6, 0), (6, a.toNat), (6, d.toNat), (6, 17)] := ⟨by decide, by decide, a.isLt, d.isLt, by decide, trivial⟩
  have h := And.intro (toNat_encode (i := .feProbe d a) (show 0x44000005 + d.toNat * 0x100000 + a.toNat * 0x4000 = _ by simp only [pack]; omega) f rfl) f
  generalize encode (.feProbe d a) = iw at h ⊢
  have k : decode11 iw = .ok (.feProbe d a) := by
    rw [decode11, fldN_at 0 (lo := 0) (n := 8) h rfl rfl, z_at 1 (lo := 8) (n := 6) h rfl rfl, fld_at 3 (lo := 20) (v := d) h rfl rfl, fld_at 2 (lo := 14) (v := a) h rfl rfl]; rfl
  rw [decode, fldN_at 4 (lo := 26) (n := 6) h rfl rfl, k]; rfl

theorem RoundTrip.beq (a b o) : RoundTrip.Statement (.beq a b o) := by
  intro _
  have f : fits [(14, o.toNat), (6, b.toNat), (6, a.toNat), (6, 18)] := ⟨o.isLt, b.isLt, a.isLt, by decide, trivial⟩
  have h := And.intro (toNat_encode (i := .beq a b o) (show 0x48000000 + a.toNat * 0x100000 + b.toNat * 0x4000 + o.toNat * 0x1 = _ by simp only [pack]; omega) f rfl) f
  generalize encode (.beq a b o) = iw at h ⊢
  have k : decode12 iw = .ok (.beq a b o) := by
    rw [decode12, fld_at 2 (lo := 20) (v := a) h rfl rfl, fld_at 1 (lo := 14) (v := b) h rfl rfl, fld_at 0 (lo := 0) (v := o) h rfl rfl]
  rw [decode, fldN_at 3 (lo := 26) (n := 6) h rfl rfl, k]; rfl

theorem RoundTrip.bne (a b o) : RoundTrip.Statement (.bne a b o) := by
  intro _
  have f : fits [(14, o.toNat), (6, b.toNat), (6, a.toNat), (6, 19)] := ⟨o.isLt, b.isLt, a.isLt, by decide, trivial⟩
  have h := And.intro (toNat_encode (i := .bne a b o) (show 0x4C000000 + a.toNat * 0x100000 + b.toNat * 0x4000 + o.toNat * 0x1 = _ by simp only [pack]; omega) f rfl) f
  generalize encode (.bne a b o) = iw at h ⊢
  have k : decode13 iw = .ok (.bne a b o) := by
    rw [decode13, fld_at 2 (lo := 20) (v := a) h rfl rfl, fld_at 1 (lo := 14) (v := b) h rfl rfl, fld_at 0 (lo := 0) (v := o) h rfl rfl]
  rw [decode, fldN_at 3 (lo := 26) (n := 6) h rfl rfl, k]; rfl

theorem RoundTrip.blt (a b o) : RoundTrip.Statement (.blt a b o) := by
  intro _
  have f : fits [(14, o.toNat), (6, b.toNat), (6, a.toNat), (6, 20)] := ⟨o.isLt, b.isLt, a.isLt, by decide, trivial⟩
  have h := And.intro (toNat_encode (i := .blt a b o) (show 0x50000000 + a.toNat * 0x100000 + b.toNat * 0x4000 + o.toNat * 0x1 = _ by simp only [pack]; omega) f rfl) f
  generalize encode (.blt a b o) = iw at h ⊢
  have k : decode14 iw = .ok (.blt a b o) := by
    rw [decode14, fld_at 2 (lo := 20) (v := a) h rfl rfl, fld_at 1 (lo := 14) (v := b) h rfl rfl, fld_at 0 (lo := 0) (v := o) h rfl rfl]
  rw [decode, fldN_at 3 (lo := 26) (n := 6) h rfl rfl, k]; rfl

theorem RoundTrip.bge (a b o) : RoundTrip.Statement (.bge a b o) := by
  intro _
  have f : fits [(14, o.toNat), (6, b.toNat), (6, a.toNat), (6, 21)] := ⟨o.isLt, b.isLt, a.isLt, by decide, trivial⟩
  have h := And.intro (toNat_encode (i := .bge a b o) (show 0x54000000 + a.toNat * 0x100000 + b.toNat * 0x4000 + o.toNat * 0x1 = _ by simp only [pack]; omega) f rfl) f
  generalize encode (.bge a b o) = iw at h ⊢
  have k : decode15 iw = .ok (.bge a b o) := by
    rw [decode15, fld_at 2 (lo := 20) (v := a) h rfl rfl, fld_at 1 (lo := 14) (v := b) h rfl rfl, fld_at 0 (lo := 0) (v := o) h rfl rfl]
  rw [decode, fldN_at 3 (lo := 26) (n := 6) h rfl rfl, k]; rfl

theorem RoundTrip.bltu (a b o) : RoundTrip.Statement (.bltu a b o) := by
  intro _
  have f : fits [(14, o.toNat), (6, b.toNat), (6, a.toNat), (6, 22)] := ⟨o.isLt, b.isLt, a.isLt, by decide, trivial⟩
  have h := And.intro (toNat_encode (i := .bltu a b o) (show 0x58000000 + a.toNat * 0x100000 + b.toNat * 0x4000 + o.toNat * 0x1 = _ by simp only [pack]; omega) f rfl) f
  generalize encode (.bltu a b o) = iw at h ⊢
  have k : decode16 iw = .ok (.bltu a b o) := by
    rw [decode16, fld_at 2 (lo := 20) (v := a) h rfl rfl, fld_at 1 (lo := 14) (v := b) h rfl rfl, fld_at 0 (lo := 0) (v := o) h rfl rfl]
  rw [decode, fldN_at 3 (lo := 26) (n := 6) h rfl rfl, k]; rfl

theorem RoundTrip.bgeu (a b o) : RoundTrip.Statement (.bgeu a b o) := by
  intro _
  have f : fits [(14, o.toNat), (6, b.toNat), (6, a.toNat), (6, 23)] := ⟨o.isLt, b.isLt, a.isLt, by decide, trivial⟩
  have h := And.intro (toNat_encode (i := .bgeu a b o) (show 0x5C000000 + a.toNat * 0x100000 + b.toNat * 0x4000 + o.toNat * 0x1 = _ by simp only [pack]; omega) f rfl) f
  generalize encode (.bgeu a b o) = iw at h ⊢
  have k : decode17 iw = .ok (.bgeu a b o) := by
    rw [decode17, fld_at 2 (lo := 20) (v := a) h rfl rfl, fld_at 1 (lo := 14) (v := b) h rfl rfl, fld_at 0 (lo := 0) (v := o) h rfl rfl]
  rw [decode, fldN_at 3 (lo := 26) (n := 6) h rfl rfl, k]; rfl

theorem RoundTrip.j (o) : RoundTrip.Statement (.j o) := by
  intro _
  have f : fits [(26, o.toNat), (6, 24)] := ⟨o.isLt, by decide, trivial⟩
  have h := And.intro (toNat_encode (i := .j o) (show 0x60000000 + o.toNat * 0x1 = _ by simp only [pack]; omega) f rfl) f
  generalize encode (.j o) = iw at h ⊢
  have k : decode18 iw = .ok (.j o) := by
    rw [decode18, fld_at 0 (lo := 0) (v := o) h rfl rfl]
  rw [decode, fldN_at 1 (lo := 26) (n := 6) h rfl rfl, k]; rfl

theorem RoundTrip.call (o) : RoundTrip.Statement (.call o) := by
  intro _
  have f : fits [(26, o.toNat), (6, 25)] := ⟨o.isLt, by decide, trivial⟩
  have h := And.intro (toNat_encode (i := .call o) (show 0x64000000 + o.toNat * 0x1 = _ by simp only [pack]; omega) f rfl) f
  generalize encode (.call o) = iw at h ⊢
  have k : decode19 iw = .ok (.call o) := by
    rw [decode19, fld_at 0 (lo := 0) (v := o) h rfl rfl]
  rw [decode, fldN_at 1 (lo := 26) (n := 6) h rfl rfl, k]; rfl

theorem RoundTrip.jr (a) : RoundTrip.Statement (.jr a) := by
  intro _
  have f : fits [(8, 0), (6, 0), (6, a.toNat), (6, 0), (6, 26)] := ⟨by decide, by decide, a.isLt, by decide, by decide, trivial⟩
  have h := And.intro (toNat_encode (i := .jr a) (show 0x68000000 + a.toNat * 0x4000 = _ by simp only [pack]; omega) f rfl) f
  generalize encode (.jr a) = iw at h ⊢
  have k : decode1A iw = .ok (.jr a) := by
    rw [decode1A, fldN_at 0 (lo := 0) (n := 8) h rfl rfl, z_at 1 (lo := 8) (n := 6) h rfl rfl, z_at 3 (lo := 20) (n := 6) h rfl rfl, fld_at 2 (lo := 14) (v := a) h rfl rfl]; rfl
  rw [decode, fldN_at 4 (lo := 26) (n := 6) h rfl rfl, k]; rfl

theorem RoundTrip.callr (a) : RoundTrip.Statement (.callr a) := by
  intro _
  have f : fits [(8, 1), (6, 0), (6, a.toNat), (6, 0), (6, 26)] := ⟨by decide, by decide, a.isLt, by decide, by decide, trivial⟩
  have h := And.intro (toNat_encode (i := .callr a) (show 0x68000001 + a.toNat * 0x4000 = _ by simp only [pack]; omega) f rfl) f
  generalize encode (.callr a) = iw at h ⊢
  have k : decode1A iw = .ok (.callr a) := by
    rw [decode1A, fldN_at 0 (lo := 0) (n := 8) h rfl rfl, z_at 1 (lo := 8) (n := 6) h rfl rfl, z_at 3 (lo := 20) (n := 6) h rfl rfl, fld_at 2 (lo := 14) (v := a) h rfl rfl]; rfl
  rw [decode, fldN_at 4 (lo := 26) (n := 6) h rfl rfl, k]; rfl

theorem RoundTrip.ret : RoundTrip.Statement (.ret) := by
  intro _
  have f : fits [(8, 2), (18, 0), (6, 26)] := ⟨by decide, by decide, by decide, trivial⟩
  have h := And.intro (toNat_encode (i := .ret) rfl f rfl) f
  generalize encode (.ret) = iw at h ⊢
  have k : decode1A iw = .ok (.ret) := by
    rw [decode1A, fldN_at 0 (lo := 0) (n := 8) h rfl rfl, z_at 1 (lo := 8) (n := 18) h rfl rfl]; rfl
  rw [decode, fldN_at 2 (lo := 26) (n := 6) h rfl rfl, k]; rfl

theorem RoundTrip.fadd (d a b) : RoundTrip.Statement (.fadd d a b) := by
  intro _
  have f : fits [(6, 0), (5, 0), (5, b.toNat), (5, a.toNat), (5, d.toNat), (6, 28)] := ⟨by decide, by decide, b.isLt, a.isLt, d.isLt, by decide, trivial⟩
  have h := And.intro (toNat_encode (i := .fadd d a b) (show 0x70000000 + d.toNat * 0x200000 + a.toNat * 0x10000 + b.toNat * 0x800 = _ by simp only [pack]; omega) f rfl) f
  generalize encode (.fadd d a b) = iw at h ⊢
  have k : decode1C iw = .ok (.fadd d a b) := by
    rw [decode1C, fldN_at 0 (lo := 0) (n := 6) h rfl rfl, z_at 1 (lo := 6) (n := 5) h rfl rfl, fld_at 4 (lo := 21) (v := d) h rfl rfl, fld_at 3 (lo := 16) (v := a) h rfl rfl, fld_at 2 (lo := 11) (v := b) h rfl rfl]; rfl
  rw [decode, fldN_at 5 (lo := 26) (n := 6) h rfl rfl, k]; rfl

theorem RoundTrip.fsub (d a b) : RoundTrip.Statement (.fsub d a b) := by
  intro _
  have f : fits [(6, 1), (5, 0), (5, b.toNat), (5, a.toNat), (5, d.toNat), (6, 28)] := ⟨by decide, by decide, b.isLt, a.isLt, d.isLt, by decide, trivial⟩
  have h := And.intro (toNat_encode (i := .fsub d a b) (show 0x70000001 + d.toNat * 0x200000 + a.toNat * 0x10000 + b.toNat * 0x800 = _ by simp only [pack]; omega) f rfl) f
  generalize encode (.fsub d a b) = iw at h ⊢
  have k : decode1C iw = .ok (.fsub d a b) := by
    rw [decode1C, fldN_at 0 (lo := 0) (n := 6) h rfl rfl, z_at 1 (lo := 6) (n := 5) h rfl rfl, fld_at 4 (lo := 21) (v := d) h rfl rfl, fld_at 3 (lo := 16) (v := a) h rfl rfl, fld_at 2 (lo := 11) (v := b) h rfl rfl]; rfl
  rw [decode, fldN_at 5 (lo := 26) (n := 6) h rfl rfl, k]; rfl

theorem RoundTrip.fmul (d a b) : RoundTrip.Statement (.fmul d a b) := by
  intro _
  have f : fits [(6, 2), (5, 0), (5, b.toNat), (5, a.toNat), (5, d.toNat), (6, 28)] := ⟨by decide, by decide, b.isLt, a.isLt, d.isLt, by decide, trivial⟩
  have h := And.intro (toNat_encode (i := .fmul d a b) (show 0x70000002 + d.toNat * 0x200000 + a.toNat * 0x10000 + b.toNat * 0x800 = _ by simp only [pack]; omega) f rfl) f
  generalize encode (.fmul d a b) = iw at h ⊢
  have k : decode1C iw = .ok (.fmul d a b) := by
    rw [decode1C, fldN_at 0 (lo := 0) (n := 6) h rfl rfl, z_at 1 (lo := 6) (n := 5) h rfl rfl, fld_at 4 (lo := 21) (v := d) h rfl rfl, fld_at 3 (lo := 16) (v := a) h rfl rfl, fld_at 2 (lo := 11) (v := b) h rfl rfl]; rfl
  rw [decode, fldN_at 5 (lo := 26) (n := 6) h rfl rfl, k]; rfl

theorem RoundTrip.fdiv (d a b) : RoundTrip.Statement (.fdiv d a b) := by
  intro _
  have f : fits [(6, 3), (5, 0), (5, b.toNat), (5, a.toNat), (5, d.toNat), (6, 28)] := ⟨by decide, by decide, b.isLt, a.isLt, d.isLt, by decide, trivial⟩
  have h := And.intro (toNat_encode (i := .fdiv d a b) (show 0x70000003 + d.toNat * 0x200000 + a.toNat * 0x10000 + b.toNat * 0x800 = _ by simp only [pack]; omega) f rfl) f
  generalize encode (.fdiv d a b) = iw at h ⊢
  have k : decode1C iw = .ok (.fdiv d a b) := by
    rw [decode1C, fldN_at 0 (lo := 0) (n := 6) h rfl rfl, z_at 1 (lo := 6) (n := 5) h rfl rfl, fld_at 4 (lo := 21) (v := d) h rfl rfl, fld_at 3 (lo := 16) (v := a) h rfl rfl, fld_at 2 (lo := 11) (v := b) h rfl rfl]; rfl
  rw [decode, fldN_at 5 (lo := 26) (n := 6) h rfl rfl, k]; rfl

theorem RoundTrip.fsqrt (d a) : RoundTrip.Statement (.fsqrt d a) := by
  intro _
  have f : fits [(6, 4), (10, 0), (5, a.toNat), (5, d.toNat), (6, 28)] := ⟨by decide, by decide, a.isLt, d.isLt, by decide, trivial⟩
  have h := And.intro (toNat_encode (i := .fsqrt d a) (show 0x70000004 + d.toNat * 0x200000 + a.toNat * 0x10000 = _ by simp only [pack]; omega) f rfl) f
  generalize encode (.fsqrt d a) = iw at h ⊢
  have k : decode1C iw = .ok (.fsqrt d a) := by
    rw [decode1C, fldN_at 0 (lo := 0) (n := 6) h rfl rfl, z_at 1 (lo := 6) (n := 10) h rfl rfl, fld_at 3 (lo := 21) (v := d) h rfl rfl, fld_at 2 (lo := 16) (v := a) h rfl rfl]; rfl
  rw [decode, fldN_at 4 (lo := 26) (n := 6) h rfl rfl, k]; rfl

theorem RoundTrip.fma (d a b c) : RoundTrip.Statement (.fma d a b c) := by
  intro _
  have f : fits [(6, 5), (5, c.toNat), (5, b.toNat), (5, a.toNat), (5, d.toNat), (6, 28)] := ⟨by decide, c.isLt, b.isLt, a.isLt, d.isLt, by decide, trivial⟩
  have h := And.intro (toNat_encode (i := .fma d a b c) (show 0x70000005 + d.toNat * 0x200000 + a.toNat * 0x10000 + b.toNat * 0x800 + c.toNat * 0x40 = _ by simp only [pack]; omega) f rfl) f
  generalize encode (.fma d a b c) = iw at h ⊢
  have k : decode1C iw = .ok (.fma d a b c) := by
    rw [decode1C, fldN_at 0 (lo := 0) (n := 6) h rfl rfl, fld_at 4 (lo := 21) (v := d) h rfl rfl, fld_at 3 (lo := 16) (v := a) h rfl rfl, fld_at 2 (lo := 11) (v := b) h rfl rfl, fld_at 1 (lo := 6) (v := c) h rfl rfl]; rfl
  rw [decode, fldN_at 5 (lo := 26) (n := 6) h rfl rfl, k]; rfl

theorem RoundTrip.fms (d a b c) : RoundTrip.Statement (.fms d a b c) := by
  intro _
  have f : fits [(6, 6), (5, c.toNat), (5, b.toNat), (5, a.toNat), (5, d.toNat), (6, 28)] := ⟨by decide, c.isLt, b.isLt, a.isLt, d.isLt, by decide, trivial⟩
  have h := And.intro (toNat_encode (i := .fms d a b c) (show 0x70000006 + d.toNat * 0x200000 + a.toNat * 0x10000 + b.toNat * 0x800 + c.toNat * 0x40 = _ by simp only [pack]; omega) f rfl) f
  generalize encode (.fms d a b c) = iw at h ⊢
  have k : decode1C iw = .ok (.fms d a b c) := by
    rw [decode1C, fldN_at 0 (lo := 0) (n := 6) h rfl rfl, fld_at 4 (lo := 21) (v := d) h rfl rfl, fld_at 3 (lo := 16) (v := a) h rfl rfl, fld_at 2 (lo := 11) (v := b) h rfl rfl, fld_at 1 (lo := 6) (v := c) h rfl rfl]; rfl
  rw [decode, fldN_at 5 (lo := 26) (n := 6) h rfl rfl, k]; rfl

theorem RoundTrip.fnma (d a b c) : RoundTrip.Statement (.fnma d a b c) := by
  intro _
  have f : fits [(6, 7), (5, c.toNat), (5, b.toNat), (5, a.toNat), (5, d.toNat), (6, 28)] := ⟨by decide, c.isLt, b.isLt, a.isLt, d.isLt, by decide, trivial⟩
  have h := And.intro (toNat_encode (i := .fnma d a b c) (show 0x70000007 + d.toNat * 0x200000 + a.toNat * 0x10000 + b.toNat * 0x800 + c.toNat * 0x40 = _ by simp only [pack]; omega) f rfl) f
  generalize encode (.fnma d a b c) = iw at h ⊢
  have k : decode1C iw = .ok (.fnma d a b c) := by
    rw [decode1C, fldN_at 0 (lo := 0) (n := 6) h rfl rfl, fld_at 4 (lo := 21) (v := d) h rfl rfl, fld_at 3 (lo := 16) (v := a) h rfl rfl, fld_at 2 (lo := 11) (v := b) h rfl rfl, fld_at 1 (lo := 6) (v := c) h rfl rfl]; rfl
  rw [decode, fldN_at 5 (lo := 26) (n := 6) h rfl rfl, k]; rfl

theorem RoundTrip.fmin (d a b) : RoundTrip.Statement (.fmin d a b) := by
  intro _
  have f : fits [(6, 8), (5, 0), (5, b.toNat), (5, a.toNat), (5, d.toNat), (6, 28)] := ⟨by decide, by decide, b.isLt, a.isLt, d.isLt, by decide, trivial⟩
  have h := And.intro (toNat_encode (i := .fmin d a b) (show 0x70000008 + d.toNat * 0x200000 + a.toNat * 0x10000 + b.toNat * 0x800 = _ by simp only [pack]; omega) f rfl) f
  generalize encode (.fmin d a b) = iw at h ⊢
  have k : decode1C iw = .ok (.fmin d a b) := by
    rw [decode1C, fldN_at 0 (lo := 0) (n := 6) h rfl rfl, z_at 1 (lo := 6) (n := 5) h rfl rfl, fld_at 4 (lo := 21) (v := d) h rfl rfl, fld_at 3 (lo := 16) (v := a) h rfl rfl, fld_at 2 (lo := 11) (v := b) h rfl rfl]; rfl
  rw [decode, fldN_at 5 (lo := 26) (n := 6) h rfl rfl, k]; rfl

theorem RoundTrip.fmax (d a b) : RoundTrip.Statement (.fmax d a b) := by
  intro _
  have f : fits [(6, 9), (5, 0), (5, b.toNat), (5, a.toNat), (5, d.toNat), (6, 28)] := ⟨by decide, by decide, b.isLt, a.isLt, d.isLt, by decide, trivial⟩
  have h := And.intro (toNat_encode (i := .fmax d a b) (show 0x70000009 + d.toNat * 0x200000 + a.toNat * 0x10000 + b.toNat * 0x800 = _ by simp only [pack]; omega) f rfl) f
  generalize encode (.fmax d a b) = iw at h ⊢
  have k : decode1C iw = .ok (.fmax d a b) := by
    rw [decode1C, fldN_at 0 (lo := 0) (n := 6) h rfl rfl, z_at 1 (lo := 6) (n := 5) h rfl rfl, fld_at 4 (lo := 21) (v := d) h rfl rfl, fld_at 3 (lo := 16) (v := a) h rfl rfl, fld_at 2 (lo := 11) (v := b) h rfl rfl]; rfl
  rw [decode, fldN_at 5 (lo := 26) (n := 6) h rfl rfl, k]; rfl

theorem RoundTrip.ftwosum (d a b c) : RoundTrip.Statement (.ftwosum d a b c) := by
  intro _
  have f : fits [(6, 10), (5, c.toNat), (5, b.toNat), (5, a.toNat), (5, d.toNat), (6, 28)] := ⟨by decide, c.isLt, b.isLt, a.isLt, d.isLt, by decide, trivial⟩
  have h := And.intro (toNat_encode (i := .ftwosum d a b c) (show 0x7000000A + d.toNat * 0x200000 + a.toNat * 0x10000 + b.toNat * 0x800 + c.toNat * 0x40 = _ by simp only [pack]; omega) f rfl) f
  generalize encode (.ftwosum d a b c) = iw at h ⊢
  have k : decode1C iw = .ok (.ftwosum d a b c) := by
    rw [decode1C, fldN_at 0 (lo := 0) (n := 6) h rfl rfl, fld_at 4 (lo := 21) (v := d) h rfl rfl, fld_at 3 (lo := 16) (v := a) h rfl rfl, fld_at 2 (lo := 11) (v := b) h rfl rfl, fld_at 1 (lo := 6) (v := c) h rfl rfl]; rfl
  rw [decode, fldN_at 5 (lo := 26) (n := 6) h rfl rfl, k]; rfl

theorem RoundTrip.ftwoprod (d a b c) : RoundTrip.Statement (.ftwoprod d a b c) := by
  intro _
  have f : fits [(6, 11), (5, c.toNat), (5, b.toNat), (5, a.toNat), (5, d.toNat), (6, 28)] := ⟨by decide, c.isLt, b.isLt, a.isLt, d.isLt, by decide, trivial⟩
  have h := And.intro (toNat_encode (i := .ftwoprod d a b c) (show 0x7000000B + d.toNat * 0x200000 + a.toNat * 0x10000 + b.toNat * 0x800 + c.toNat * 0x40 = _ by simp only [pack]; omega) f rfl) f
  generalize encode (.ftwoprod d a b c) = iw at h ⊢
  have k : decode1C iw = .ok (.ftwoprod d a b c) := by
    rw [decode1C, fldN_at 0 (lo := 0) (n := 6) h rfl rfl, fld_at 4 (lo := 21) (v := d) h rfl rfl, fld_at 3 (lo := 16) (v := a) h rfl rfl, fld_at 2 (lo := 11) (v := b) h rfl rfl, fld_at 1 (lo := 6) (v := c) h rfl rfl]; rfl
  rw [decode, fldN_at 5 (lo := 26) (n := 6) h rfl rfl, k]; rfl

theorem RoundTrip.fround (d a) : RoundTrip.Statement (.fround d a) := by
  intro _
  have f : fits [(6, 12), (10, 0), (5, a.toNat), (5, d.toNat), (6, 28)] := ⟨by decide, by decide, a.isLt, d.isLt, by decide, trivial⟩
  have h := And.intro (toNat_encode (i := .fround d a) (show 0x7000000C + d.toNat * 0x200000 + a.toNat * 0x10000 = _ by simp only [pack]; omega) f rfl) f
  generalize encode (.fround d a) = iw at h ⊢
  have k : decode1C iw = .ok (.fround d a) := by
    rw [decode1C, fldN_at 0 (lo := 0) (n := 6) h rfl rfl, z_at 1 (lo := 6) (n := 10) h rfl rfl, fld_at 3 (lo := 21) (v := d) h rfl rfl, fld_at 2 (lo := 16) (v := a) h rfl rfl]; rfl
  rw [decode, fldN_at 4 (lo := 26) (n := 6) h rfl rfl, k]; rfl

theorem RoundTrip.fscale (d a b) : RoundTrip.Statement (.fscale d a b) := by
  intro _
  have f : fits [(6, 13), (5, 0), (5, b.toNat), (5, a.toNat), (5, d.toNat), (6, 28)] := ⟨by decide, by decide, b.isLt, a.isLt, d.isLt, by decide, trivial⟩
  have h := And.intro (toNat_encode (i := .fscale d a b) (show 0x7000000D + d.toNat * 0x200000 + a.toNat * 0x10000 + b.toNat * 0x800 = _ by simp only [pack]; omega) f rfl) f
  generalize encode (.fscale d a b) = iw at h ⊢
  have k : decode1C iw = .ok (.fscale d a b) := by
    rw [decode1C, fldN_at 0 (lo := 0) (n := 6) h rfl rfl, z_at 1 (lo := 6) (n := 5) h rfl rfl, fld_at 4 (lo := 21) (v := d) h rfl rfl, fld_at 3 (lo := 16) (v := a) h rfl rfl, fld_at 2 (lo := 11) (v := b) h rfl rfl]; rfl
  rw [decode, fldN_at 5 (lo := 26) (n := 6) h rfl rfl, k]; rfl

theorem RoundTrip.fmov (d a) : RoundTrip.Statement (.fmov d a) := by
  intro _
  have f : fits [(6, 14), (10, 0), (5, a.toNat), (5, d.toNat), (6, 28)] := ⟨by decide, by decide, a.isLt, d.isLt, by decide, trivial⟩
  have h := And.intro (toNat_encode (i := .fmov d a) (show 0x7000000E + d.toNat * 0x200000 + a.toNat * 0x10000 = _ by simp only [pack]; omega) f rfl) f
  generalize encode (.fmov d a) = iw at h ⊢
  have k : decode1C iw = .ok (.fmov d a) := by
    rw [decode1C, fldN_at 0 (lo := 0) (n := 6) h rfl rfl, z_at 1 (lo := 6) (n := 10) h rfl rfl, fld_at 3 (lo := 21) (v := d) h rfl rfl, fld_at 2 (lo := 16) (v := a) h rfl rfl]; rfl
  rw [decode, fldN_at 4 (lo := 26) (n := 6) h rfl rfl, k]; rfl

theorem RoundTrip.fneg (d a) : RoundTrip.Statement (.fneg d a) := by
  intro _
  have f : fits [(6, 15), (10, 0), (5, a.toNat), (5, d.toNat), (6, 28)] := ⟨by decide, by decide, a.isLt, d.isLt, by decide, trivial⟩
  have h := And.intro (toNat_encode (i := .fneg d a) (show 0x7000000F + d.toNat * 0x200000 + a.toNat * 0x10000 = _ by simp only [pack]; omega) f rfl) f
  generalize encode (.fneg d a) = iw at h ⊢
  have k : decode1C iw = .ok (.fneg d a) := by
    rw [decode1C, fldN_at 0 (lo := 0) (n := 6) h rfl rfl, z_at 1 (lo := 6) (n := 10) h rfl rfl, fld_at 3 (lo := 21) (v := d) h rfl rfl, fld_at 2 (lo := 16) (v := a) h rfl rfl]; rfl
  rw [decode, fldN_at 4 (lo := 26) (n := 6) h rfl rfl, k]; rfl

theorem RoundTrip.fabs (d a) : RoundTrip.Statement (.fabs d a) := by
  intro _
  have f : fits [(6, 16), (10, 0), (5, a.toNat), (5, d.toNat), (6, 28)] := ⟨by decide, by decide, a.isLt, d.isLt, by decide, trivial⟩
  have h := And.intro (toNat_encode (i := .fabs d a) (show 0x70000010 + d.toNat * 0x200000 + a.toNat * 0x10000 = _ by simp only [pack]; omega) f rfl) f
  generalize encode (.fabs d a) = iw at h ⊢
  have k : decode1C iw = .ok (.fabs d a) := by
    rw [decode1C, fldN_at 0 (lo := 0) (n := 6) h rfl rfl, z_at 1 (lo := 6) (n := 10) h rfl rfl, fld_at 3 (lo := 21) (v := d) h rfl rfl, fld_at 2 (lo := 16) (v := a) h rfl rfl]; rfl
  rw [decode, fldN_at 4 (lo := 26) (n := 6) h rfl rfl, k]; rfl

theorem RoundTrip.fld (d b p) : RoundTrip.Statement (.fld d b p) := by
  intro _
  have f : fits [(12, p.toNat), (3, 0), (6, b.toNat), (5, d.toNat), (6, 29)] := ⟨p.isLt, by decide, b.isLt, d.isLt, by decide, trivial⟩
  have h := And.intro (toNat_encode (i := .fld d b p) (show 0x74000000 + d.toNat * 0x200000 + b.toNat * 0x8000 + p.toNat * 0x1 = _ by simp only [pack]; omega) f rfl) f
  generalize encode (.fld d b p) = iw at h ⊢
  have k : decode1D iw = .ok (.fld d b p) := by
    rw [decode1D, fldN_at 1 (lo := 12) (n := 3) h rfl rfl, fld_at 3 (lo := 21) (v := d) h rfl rfl, fld_at 2 (lo := 15) (v := b) h rfl rfl, fld_at 0 (lo := 0) (v := p) h rfl rfl]; rfl
  rw [decode, fldN_at 4 (lo := 26) (n := 6) h rfl rfl, k]; rfl

theorem RoundTrip.fst (d b p) : RoundTrip.Statement (.fst d b p) := by
  intro _
  have f : fits [(12, p.toNat), (3, 1), (6, b.toNat), (5, d.toNat), (6, 29)] := ⟨p.isLt, by decide, b.isLt, d.isLt, by decide, trivial⟩
  have h := And.intro (toNat_encode (i := .fst d b p) (show 0x74001000 + d.toNat * 0x200000 + b.toNat * 0x8000 + p.toNat * 0x1 = _ by simp only [pack]; omega) f rfl) f
  generalize encode (.fst d b p) = iw at h ⊢
  have k : decode1D iw = .ok (.fst d b p) := by
    rw [decode1D, fldN_at 1 (lo := 12) (n := 3) h rfl rfl, fld_at 3 (lo := 21) (v := d) h rfl rfl, fld_at 2 (lo := 15) (v := b) h rfl rfl, fld_at 0 (lo := 0) (v := p) h rfl rfl]; rfl
  rw [decode, fldN_at 4 (lo := 26) (n := 6) h rfl rfl, k]; rfl

theorem RoundTrip.fldS (d b i) : RoundTrip.Statement (.fldS d b i) := by
  intro _
  have f : fits [(6, 0), (6, i.toNat), (3, 2), (6, b.toNat), (5, d.toNat), (6, 29)] := ⟨by decide, i.isLt, by decide, b.isLt, d.isLt, by decide, trivial⟩
  have h := And.intro (toNat_encode (i := .fldS d b i) (show 0x74002000 + d.toNat * 0x200000 + b.toNat * 0x8000 + i.toNat * 0x40 = _ by simp only [pack]; omega) f rfl) f
  generalize encode (.fldS d b i) = iw at h ⊢
  have k : decode1D iw = .ok (.fldS d b i) := by
    rw [decode1D, fldN_at 2 (lo := 12) (n := 3) h rfl rfl, z_at 0 (lo := 0) (n := 6) h rfl rfl, fld_at 4 (lo := 21) (v := d) h rfl rfl, fld_at 3 (lo := 15) (v := b) h rfl rfl, fld_at 1 (lo := 6) (v := i) h rfl rfl]; rfl
  rw [decode, fldN_at 5 (lo := 26) (n := 6) h rfl rfl, k]; rfl

theorem RoundTrip.fstS (d b i) : RoundTrip.Statement (.fstS d b i) := by
  intro _
  have f : fits [(6, 0), (6, i.toNat), (3, 3), (6, b.toNat), (5, d.toNat), (6, 29)] := ⟨by decide, i.isLt, by decide, b.isLt, d.isLt, by decide, trivial⟩
  have h := And.intro (toNat_encode (i := .fstS d b i) (show 0x74003000 + d.toNat * 0x200000 + b.toNat * 0x8000 + i.toNat * 0x40 = _ by simp only [pack]; omega) f rfl) f
  generalize encode (.fstS d b i) = iw at h ⊢
  have k : decode1D iw = .ok (.fstS d b i) := by
    rw [decode1D, fldN_at 2 (lo := 12) (n := 3) h rfl rfl, z_at 0 (lo := 0) (n := 6) h rfl rfl, fld_at 4 (lo := 21) (v := d) h rfl rfl, fld_at 3 (lo := 15) (v := b) h rfl rfl, fld_at 1 (lo := 6) (v := i) h rfl rfl]; rfl
  rw [decode, fldN_at 5 (lo := 26) (n := 6) h rfl rfl, k]; rfl

theorem RoundTrip.setprec (a) : RoundTrip.Statement (.setprec a) := by
  intro _
  have f : fits [(6, 0), (10, 0), (5, a.toNat), (5, 0), (6, 30)] := ⟨by decide, by decide, a.isLt, by decide, by decide, trivial⟩
  have h := And.intro (toNat_encode (i := .setprec a) (show 0x78000000 + a.toNat * 0x10000 = _ by simp only [pack]; omega) f rfl) f
  generalize encode (.setprec a) = iw at h ⊢
  have k : decode1E iw = .ok (.setprec a) := by
    rw [decode1E, fldN_at 0 (lo := 0) (n := 6) h rfl rfl, z_at 1 (lo := 6) (n := 10) h rfl rfl, z_at 3 (lo := 21) (n := 5) h rfl rfl, fld_at 2 (lo := 16) (v := a) h rfl rfl]; rfl
  rw [decode, fldN_at 4 (lo := 26) (n := 6) h rfl rfl, k]; rfl

theorem RoundTrip.getprec (d) : RoundTrip.Statement (.getprec d) := by
  intro _
  have f : fits [(6, 1), (15, 0), (5, d.toNat), (6, 30)] := ⟨by decide, by decide, d.isLt, by decide, trivial⟩
  have h := And.intro (toNat_encode (i := .getprec d) (show 0x78000001 + d.toNat * 0x200000 = _ by simp only [pack]; omega) f rfl) f
  generalize encode (.getprec d) = iw at h ⊢
  have k : decode1E iw = .ok (.getprec d) := by
    rw [decode1E, fldN_at 0 (lo := 0) (n := 6) h rfl rfl, z_at 1 (lo := 6) (n := 15) h rfl rfl, fld_at 2 (lo := 21) (v := d) h rfl rfl]; rfl
  rw [decode, fldN_at 3 (lo := 26) (n := 6) h rfl rfl, k]; rfl

theorem RoundTrip.setrnd (a) : RoundTrip.Statement (.setrnd a) := by
  intro _
  have f : fits [(6, 2), (10, 0), (5, a.toNat), (5, 0), (6, 30)] := ⟨by decide, by decide, a.isLt, by decide, by decide, trivial⟩
  have h := And.intro (toNat_encode (i := .setrnd a) (show 0x78000002 + a.toNat * 0x10000 = _ by simp only [pack]; omega) f rfl) f
  generalize encode (.setrnd a) = iw at h ⊢
  have k : decode1E iw = .ok (.setrnd a) := by
    rw [decode1E, fldN_at 0 (lo := 0) (n := 6) h rfl rfl, z_at 1 (lo := 6) (n := 10) h rfl rfl, z_at 3 (lo := 21) (n := 5) h rfl rfl, fld_at 2 (lo := 16) (v := a) h rfl rfl]; rfl
  rw [decode, fldN_at 4 (lo := 26) (n := 6) h rfl rfl, k]; rfl

theorem RoundTrip.fcvtElD (d a) : RoundTrip.Statement (.fcvtElD d a) := by
  intro _
  have f : fits [(6, 16), (10, 0), (5, a.toNat), (5, d.toNat), (6, 30)] := ⟨by decide, by decide, a.isLt, d.isLt, by decide, trivial⟩
  have h := And.intro (toNat_encode (i := .fcvtElD d a) (show 0x78000010 + d.toNat * 0x200000 + a.toNat * 0x10000 = _ by simp only [pack]; omega) f rfl) f
  generalize encode (.fcvtElD d a) = iw at h ⊢
  have k : decode1E iw = .ok (.fcvtElD d a) := by
    rw [decode1E, fldN_at 0 (lo := 0) (n := 6) h rfl rfl, z_at 1 (lo := 6) (n := 10) h rfl rfl, fld_at 3 (lo := 21) (v := d) h rfl rfl, fld_at 2 (lo := 16) (v := a) h rfl rfl]; rfl
  rw [decode, fldN_at 4 (lo := 26) (n := 6) h rfl rfl, k]; rfl

theorem RoundTrip.fcvtElDu (d a) : RoundTrip.Statement (.fcvtElDu d a) := by
  intro _
  have f : fits [(6, 17), (10, 0), (5, a.toNat), (5, d.toNat), (6, 30)] := ⟨by decide, by decide, a.isLt, d.isLt, by decide, trivial⟩
  have h := And.intro (toNat_encode (i := .fcvtElDu d a) (show 0x78000011 + d.toNat * 0x200000 + a.toNat * 0x10000 = _ by simp only [pack]; omega) f rfl) f
  generalize encode (.fcvtElDu d a) = iw at h ⊢
  have k : decode1E iw = .ok (.fcvtElDu d a) := by
    rw [decode1E, fldN_at 0 (lo := 0) (n := 6) h rfl rfl, z_at 1 (lo := 6) (n := 10) h rfl rfl, fld_at 3 (lo := 21) (v := d) h rfl rfl, fld_at 2 (lo := 16) (v := a) h rfl rfl]; rfl
  rw [decode, fldN_at 4 (lo := 26) (n := 6) h rfl rfl, k]; rfl

theorem RoundTrip.fcvtDEl (d a) : RoundTrip.Statement (.fcvtDEl d a) := by
  intro _
  have f : fits [(6, 18), (10, 0), (5, a.toNat), (5, d.toNat), (6, 30)] := ⟨by decide, by decide, a.isLt, d.isLt, by decide, trivial⟩
  have h := And.intro (toNat_encode (i := .fcvtDEl d a) (show 0x78000012 + d.toNat * 0x200000 + a.toNat * 0x10000 = _ by simp only [pack]; omega) f rfl) f
  generalize encode (.fcvtDEl d a) = iw at h ⊢
  have k : decode1E iw = .ok (.fcvtDEl d a) := by
    rw [decode1E, fldN_at 0 (lo := 0) (n := 6) h rfl rfl, z_at 1 (lo := 6) (n := 10) h rfl rfl, fld_at 3 (lo := 21) (v := d) h rfl rfl, fld_at 2 (lo := 16) (v := a) h rfl rfl]; rfl
  rw [decode, fldN_at 4 (lo := 26) (n := 6) h rfl rfl, k]; rfl

theorem RoundTrip.fcvtDuEl (d a) : RoundTrip.Statement (.fcvtDuEl d a) := by
  intro _
  have f : fits [(6, 19), (10, 0), (5, a.toNat), (5, d.toNat), (6, 30)] := ⟨by decide, by decide, a.isLt, d.isLt, by decide, trivial⟩
  have h := And.intro (toNat_encode (i := .fcvtDuEl d a) (show 0x78000013 + d.toNat * 0x200000 + a.toNat * 0x10000 = _ by simp only [pack]; omega) f rfl) f
  generalize encode (.fcvtDuEl d a) = iw at h ⊢
  have k : decode1E iw = .ok (.fcvtDuEl d a) := by
    rw [decode1E, fldN_at 0 (lo := 0) (n := 6) h rfl rfl, z_at 1 (lo := 6) (n := 10) h rfl rfl, fld_at 3 (lo := 21) (v := d) h rfl rfl, fld_at 2 (lo := 16) (v := a) h rfl rfl]; rfl
  rw [decode, fldN_at 4 (lo := 26) (n := 6) h rfl rfl, k]; rfl

theorem RoundTrip.fcvtElDf (d a) : RoundTrip.Statement (.fcvtElDf d a) := by
  intro _
  have f : fits [(6, 20), (10, 0), (5, a.toNat), (5, d.toNat), (6, 30)] := ⟨by decide, by decide, a.isLt, d.isLt, by decide, trivial⟩
  have h := And.intro (toNat_encode (i := .fcvtElDf d a) (show 0x78000014 + d.toNat * 0x200000 + a.toNat * 0x10000 = _ by simp only [pack]; omega) f rfl) f
  generalize encode (.fcvtElDf d a) = iw at h ⊢
  have k : decode1E iw = .ok (.fcvtElDf d a) := by
    rw [decode1E, fldN_at 0 (lo := 0) (n := 6) h rfl rfl, z_at 1 (lo := 6) (n := 10) h rfl rfl, fld_at 3 (lo := 21) (v := d) h rfl rfl, fld_at 2 (lo := 16) (v := a) h rfl rfl]; rfl
  rw [decode, fldN_at 4 (lo := 26) (n := 6) h rfl rfl, k]; rfl

theorem RoundTrip.fcvtDfEl (d a) : RoundTrip.Statement (.fcvtDfEl d a) := by
  intro _
  have f : fits [(6, 21), (10, 0), (5, a.toNat), (5, d.toNat), (6, 30)] := ⟨by decide, by decide, a.isLt, d.isLt, by decide, trivial⟩
  have h := And.intro (toNat_encode (i := .fcvtDfEl d a) (show 0x78000015 + d.toNat * 0x200000 + a.toNat * 0x10000 = _ by simp only [pack]; omega) f rfl) f
  generalize encode (.fcvtDfEl d a) = iw at h ⊢
  have k : decode1E iw = .ok (.fcvtDfEl d a) := by
    rw [decode1E, fldN_at 0 (lo := 0) (n := 6) h rfl rfl, z_at 1 (lo := 6) (n := 10) h rfl rfl, fld_at 3 (lo := 21) (v := d) h rfl rfl, fld_at 2 (lo := 16) (v := a) h rfl rfl]; rfl
  rw [decode, fldN_at 4 (lo := 26) (n := 6) h rfl rfl, k]; rfl

theorem RoundTrip.fcvtElSf (d a) : RoundTrip.Statement (.fcvtElSf d a) := by
  intro _
  have f : fits [(6, 22), (10, 0), (5, a.toNat), (5, d.toNat), (6, 30)] := ⟨by decide, by decide, a.isLt, d.isLt, by decide, trivial⟩
  have h := And.intro (toNat_encode (i := .fcvtElSf d a) (show 0x78000016 + d.toNat * 0x200000 + a.toNat * 0x10000 = _ by simp only [pack]; omega) f rfl) f
  generalize encode (.fcvtElSf d a) = iw at h ⊢
  have k : decode1E iw = .ok (.fcvtElSf d a) := by
    rw [decode1E, fldN_at 0 (lo := 0) (n := 6) h rfl rfl, z_at 1 (lo := 6) (n := 10) h rfl rfl, fld_at 3 (lo := 21) (v := d) h rfl rfl, fld_at 2 (lo := 16) (v := a) h rfl rfl]; rfl
  rw [decode, fldN_at 4 (lo := 26) (n := 6) h rfl rfl, k]; rfl

theorem RoundTrip.fcvtSfEl (d a) : RoundTrip.Statement (.fcvtSfEl d a) := by
  intro _
  have f : fits [(6, 23), (10, 0), (5, a.toNat), (5, d.toNat), (6, 30)] := ⟨by decide, by decide, a.isLt, d.isLt, by decide, trivial⟩
  have h := And.intro (toNat_encode (i := .fcvtSfEl d a) (show 0x78000017 + d.toNat * 0x200000 + a.toNat * 0x10000 = _ by simp only [pack]; omega) f rfl) f
  generalize encode (.fcvtSfEl d a) = iw at h ⊢
  have k : decode1E iw = .ok (.fcvtSfEl d a) := by
    rw [decode1E, fldN_at 0 (lo := 0) (n := 6) h rfl rfl, z_at 1 (lo := 6) (n := 10) h rfl rfl, fld_at 3 (lo := 21) (v := d) h rfl rfl, fld_at 2 (lo := 16) (v := a) h rfl rfl]; rfl
  rw [decode, fldN_at 4 (lo := 26) (n := 6) h rfl rfl, k]; rfl

theorem RoundTrip.fcmpEq (d a b) : RoundTrip.Statement (.fcmpEq d a b) := by
  intro _
  have f : fits [(6, 32), (5, 0), (5, b.toNat), (5, a.toNat), (5, d.toNat), (6, 30)] := ⟨by decide, by decide, b.isLt, a.isLt, d.isLt, by decide, trivial⟩
  have h := And.intro (toNat_encode (i := .fcmpEq d a b) (show 0x78000020 + d.toNat * 0x200000 + a.toNat * 0x10000 + b.toNat * 0x800 = _ by simp only [pack]; omega) f rfl) f
  generalize encode (.fcmpEq d a b) = iw at h ⊢
  have k : decode1E iw = .ok (.fcmpEq d a b) := by
    rw [decode1E, fldN_at 0 (lo := 0) (n := 6) h rfl rfl, z_at 1 (lo := 6) (n := 5) h rfl rfl, fld_at 4 (lo := 21) (v := d) h rfl rfl, fld_at 3 (lo := 16) (v := a) h rfl rfl, fld_at 2 (lo := 11) (v := b) h rfl rfl]; rfl
  rw [decode, fldN_at 5 (lo := 26) (n := 6) h rfl rfl, k]; rfl

theorem RoundTrip.fcmpLt (d a b) : RoundTrip.Statement (.fcmpLt d a b) := by
  intro _
  have f : fits [(6, 33), (5, 0), (5, b.toNat), (5, a.toNat), (5, d.toNat), (6, 30)] := ⟨by decide, by decide, b.isLt, a.isLt, d.isLt, by decide, trivial⟩
  have h := And.intro (toNat_encode (i := .fcmpLt d a b) (show 0x78000021 + d.toNat * 0x200000 + a.toNat * 0x10000 + b.toNat * 0x800 = _ by simp only [pack]; omega) f rfl) f
  generalize encode (.fcmpLt d a b) = iw at h ⊢
  have k : decode1E iw = .ok (.fcmpLt d a b) := by
    rw [decode1E, fldN_at 0 (lo := 0) (n := 6) h rfl rfl, z_at 1 (lo := 6) (n := 5) h rfl rfl, fld_at 4 (lo := 21) (v := d) h rfl rfl, fld_at 3 (lo := 16) (v := a) h rfl rfl, fld_at 2 (lo := 11) (v := b) h rfl rfl]; rfl
  rw [decode, fldN_at 5 (lo := 26) (n := 6) h rfl rfl, k]; rfl

theorem RoundTrip.fcmpLe (d a b) : RoundTrip.Statement (.fcmpLe d a b) := by
  intro _
  have f : fits [(6, 34), (5, 0), (5, b.toNat), (5, a.toNat), (5, d.toNat), (6, 30)] := ⟨by decide, by decide, b.isLt, a.isLt, d.isLt, by decide, trivial⟩
  have h := And.intro (toNat_encode (i := .fcmpLe d a b) (show 0x78000022 + d.toNat * 0x200000 + a.toNat * 0x10000 + b.toNat * 0x800 = _ by simp only [pack]; omega) f rfl) f
  generalize encode (.fcmpLe d a b) = iw at h ⊢
  have k : decode1E iw = .ok (.fcmpLe d a b) := by
    rw [decode1E, fldN_at 0 (lo := 0) (n := 6) h rfl rfl, z_at 1 (lo := 6) (n := 5) h rfl rfl, fld_at 4 (lo := 21) (v := d) h rfl rfl, fld_at 3 (lo := 16) (v := a) h rfl rfl, fld_at 2 (lo := 11) (v := b) h rfl rfl]; rfl
  rw [decode, fldN_at 5 (lo := 26) (n := 6) h rfl rfl, k]; rfl

theorem RoundTrip.fcmpUn (d a b) : RoundTrip.Statement (.fcmpUn d a b) := by
  intro _
  have f : fits [(6, 35), (5, 0), (5, b.toNat), (5, a.toNat), (5, d.toNat), (6, 30)] := ⟨by decide, by decide, b.isLt, a.isLt, d.isLt, by decide, trivial⟩
  have h := And.intro (toNat_encode (i := .fcmpUn d a b) (show 0x78000023 + d.toNat * 0x200000 + a.toNat * 0x10000 + b.toNat * 0x800 = _ by simp only [pack]; omega) f rfl) f
  generalize encode (.fcmpUn d a b) = iw at h ⊢
  have k : decode1E iw = .ok (.fcmpUn d a b) := by
    rw [decode1E, fldN_at 0 (lo := 0) (n := 6) h rfl rfl, z_at 1 (lo := 6) (n := 5) h rfl rfl, fld_at 4 (lo := 21) (v := d) h rfl rfl, fld_at 3 (lo := 16) (v := a) h rfl rfl, fld_at 2 (lo := 11) (v := b) h rfl rfl]; rfl
  rw [decode, fldN_at 5 (lo := 26) (n := 6) h rfl rfl, k]; rfl

theorem RoundTrip.fclass (d a) : RoundTrip.Statement (.fclass d a) := by
  intro _
  have f : fits [(6, 36), (10, 0), (5, a.toNat), (5, d.toNat), (6, 30)] := ⟨by decide, by decide, a.isLt, d.isLt, by decide, trivial⟩
  have h := And.intro (toNat_encode (i := .fclass d a) (show 0x78000024 + d.toNat * 0x200000 + a.toNat * 0x10000 = _ by simp only [pack]; omega) f rfl) f
  generalize encode (.fclass d a) = iw at h ⊢
  have k : decode1E iw = .ok (.fclass d a) := by
    rw [decode1E, fldN_at 0 (lo := 0) (n := 6) h rfl rfl, z_at 1 (lo := 6) (n := 10) h rfl rfl, fld_at 3 (lo := 21) (v := d) h rfl rfl, fld_at 2 (lo := 16) (v := a) h rfl rfl]; rfl
  rw [decode, fldN_at 4 (lo := 26) (n := 6) h rfl rfl, k]; rfl

theorem RoundTrip.vadd (d a b k w) : RoundTrip.Statement (.vadd d a b k w) := by
  intro _
  have f : fits [(2, w.toNat), (1, 0), (5, 0), (3, k.toNat), (5, b.toNat), (5, a.toNat), (5, d.toNat), (6, 32)] := ⟨w.isLt, by decide, by decide, k.isLt, b.isLt, a.isLt, d.isLt, by decide, trivial⟩
  have h := And.intro (toNat_encode (i := .vadd d a b k w) (show 0x80000000 + d.toNat * 0x200000 + a.toNat * 0x10000 + b.toNat * 0x800 + k.toNat * 0x100 + w.toNat * 0x1 = _ by simp only [pack]; omega) f rfl) f
  generalize encode (.vadd d a b k w) = iw at h ⊢
  have k : decode20 iw = .ok (.vadd d a b k w) := by
    rw [decode20, fldN_at 2 (lo := 3) (n := 5) h rfl rfl, z_at 1 (lo := 2) (n := 1) h rfl rfl, fld_at 6 (lo := 21) (v := d) h rfl rfl, fld_at 5 (lo := 16) (v := a) h rfl rfl, fld_at 4 (lo := 11) (v := b) h rfl rfl, fld_at 3 (lo := 8) (v := k) h rfl rfl, fld_at 0 (lo := 0) (v := w) h rfl rfl]; rfl
  rw [decode, fldN_at 7 (lo := 26) (n := 6) h rfl rfl, k]; rfl

theorem RoundTrip.vsub (d a b k w) : RoundTrip.Statement (.vsub d a b k w) := by
  intro _
  have f : fits [(2, w.toNat), (1, 0), (5, 1), (3, k.toNat), (5, b.toNat), (5, a.toNat), (5, d.toNat), (6, 32)] := ⟨w.isLt, by decide, by decide, k.isLt, b.isLt, a.isLt, d.isLt, by decide, trivial⟩
  have h := And.intro (toNat_encode (i := .vsub d a b k w) (show 0x80000008 + d.toNat * 0x200000 + a.toNat * 0x10000 + b.toNat * 0x800 + k.toNat * 0x100 + w.toNat * 0x1 = _ by simp only [pack]; omega) f rfl) f
  generalize encode (.vsub d a b k w) = iw at h ⊢
  have k : decode20 iw = .ok (.vsub d a b k w) := by
    rw [decode20, fldN_at 2 (lo := 3) (n := 5) h rfl rfl, z_at 1 (lo := 2) (n := 1) h rfl rfl, fld_at 6 (lo := 21) (v := d) h rfl rfl, fld_at 5 (lo := 16) (v := a) h rfl rfl, fld_at 4 (lo := 11) (v := b) h rfl rfl, fld_at 3 (lo := 8) (v := k) h rfl rfl, fld_at 0 (lo := 0) (v := w) h rfl rfl]; rfl
  rw [decode, fldN_at 7 (lo := 26) (n := 6) h rfl rfl, k]; rfl

theorem RoundTrip.vmul (d a b k w) : RoundTrip.Statement (.vmul d a b k w) := by
  intro _
  have f : fits [(2, w.toNat), (1, 0), (5, 2), (3, k.toNat), (5, b.toNat), (5, a.toNat), (5, d.toNat), (6, 32)] := ⟨w.isLt, by decide, by decide, k.isLt, b.isLt, a.isLt, d.isLt, by decide, trivial⟩
  have h := And.intro (toNat_encode (i := .vmul d a b k w) (show 0x80000010 + d.toNat * 0x200000 + a.toNat * 0x10000 + b.toNat * 0x800 + k.toNat * 0x100 + w.toNat * 0x1 = _ by simp only [pack]; omega) f rfl) f
  generalize encode (.vmul d a b k w) = iw at h ⊢
  have k : decode20 iw = .ok (.vmul d a b k w) := by
    rw [decode20, fldN_at 2 (lo := 3) (n := 5) h rfl rfl, z_at 1 (lo := 2) (n := 1) h rfl rfl, fld_at 6 (lo := 21) (v := d) h rfl rfl, fld_at 5 (lo := 16) (v := a) h rfl rfl, fld_at 4 (lo := 11) (v := b) h rfl rfl, fld_at 3 (lo := 8) (v := k) h rfl rfl, fld_at 0 (lo := 0) (v := w) h rfl rfl]; rfl
  rw [decode, fldN_at 7 (lo := 26) (n := 6) h rfl rfl, k]; rfl

theorem RoundTrip.vmulh (d a b k w) : RoundTrip.Statement (.vmulh d a b k w) := by
  intro _
  have f : fits [(2, w.toNat), (1, 0), (5, 3), (3, k.toNat), (5, b.toNat), (5, a.toNat), (5, d.toNat), (6, 32)] := ⟨w.isLt, by decide, by decide, k.isLt, b.isLt, a.isLt, d.isLt, by decide, trivial⟩
  have h := And.intro (toNat_encode (i := .vmulh d a b k w) (show 0x80000018 + d.toNat * 0x200000 + a.toNat * 0x10000 + b.toNat * 0x800 + k.toNat * 0x100 + w.toNat * 0x1 = _ by simp only [pack]; omega) f rfl) f
  generalize encode (.vmulh d a b k w) = iw at h ⊢
  have k : decode20 iw = .ok (.vmulh d a b k w) := by
    rw [decode20, fldN_at 2 (lo := 3) (n := 5) h rfl rfl, z_at 1 (lo := 2) (n := 1) h rfl rfl, fld_at 6 (lo := 21) (v := d) h rfl rfl, fld_at 5 (lo := 16) (v := a) h rfl rfl, fld_at 4 (lo := 11) (v := b) h rfl rfl, fld_at 3 (lo := 8) (v := k) h rfl rfl, fld_at 0 (lo := 0) (v := w) h rfl rfl]; rfl
  rw [decode, fldN_at 7 (lo := 26) (n := 6) h rfl rfl, k]; rfl

theorem RoundTrip.vand (d a b k w) : RoundTrip.Statement (.vand d a b k w) := by
  intro _
  have f : fits [(2, w.toNat), (1, 0), (5, 4), (3, k.toNat), (5, b.toNat), (5, a.toNat), (5, d.toNat), (6, 32)] := ⟨w.isLt, by decide, by decide, k.isLt, b.isLt, a.isLt, d.isLt, by decide, trivial⟩
  have h := And.intro (toNat_encode (i := .vand d a b k w) (show 0x80000020 + d.toNat * 0x200000 + a.toNat * 0x10000 + b.toNat * 0x800 + k.toNat * 0x100 + w.toNat * 0x1 = _ by simp only [pack]; omega) f rfl) f
  generalize encode (.vand d a b k w) = iw at h ⊢
  have k : decode20 iw = .ok (.vand d a b k w) := by
    rw [decode20, fldN_at 2 (lo := 3) (n := 5) h rfl rfl, z_at 1 (lo := 2) (n := 1) h rfl rfl, fld_at 6 (lo := 21) (v := d) h rfl rfl, fld_at 5 (lo := 16) (v := a) h rfl rfl, fld_at 4 (lo := 11) (v := b) h rfl rfl, fld_at 3 (lo := 8) (v := k) h rfl rfl, fld_at 0 (lo := 0) (v := w) h rfl rfl]; rfl
  rw [decode, fldN_at 7 (lo := 26) (n := 6) h rfl rfl, k]; rfl

theorem RoundTrip.vor (d a b k w) : RoundTrip.Statement (.vor d a b k w) := by
  intro _
  have f : fits [(2, w.toNat), (1, 0), (5, 5), (3, k.toNat), (5, b.toNat), (5, a.toNat), (5, d.toNat), (6, 32)] := ⟨w.isLt, by decide, by decide, k.isLt, b.isLt, a.isLt, d.isLt, by decide, trivial⟩
  have h := And.intro (toNat_encode (i := .vor d a b k w) (show 0x80000028 + d.toNat * 0x200000 + a.toNat * 0x10000 + b.toNat * 0x800 + k.toNat * 0x100 + w.toNat * 0x1 = _ by simp only [pack]; omega) f rfl) f
  generalize encode (.vor d a b k w) = iw at h ⊢
  have k : decode20 iw = .ok (.vor d a b k w) := by
    rw [decode20, fldN_at 2 (lo := 3) (n := 5) h rfl rfl, z_at 1 (lo := 2) (n := 1) h rfl rfl, fld_at 6 (lo := 21) (v := d) h rfl rfl, fld_at 5 (lo := 16) (v := a) h rfl rfl, fld_at 4 (lo := 11) (v := b) h rfl rfl, fld_at 3 (lo := 8) (v := k) h rfl rfl, fld_at 0 (lo := 0) (v := w) h rfl rfl]; rfl
  rw [decode, fldN_at 7 (lo := 26) (n := 6) h rfl rfl, k]; rfl

theorem RoundTrip.vxor (d a b k w) : RoundTrip.Statement (.vxor d a b k w) := by
  intro _
  have f : fits [(2, w.toNat), (1, 0), (5, 6), (3, k.toNat), (5, b.toNat), (5, a.toNat), (5, d.toNat), (6, 32)] := ⟨w.isLt, by decide, by decide, k.isLt, b.isLt, a.isLt, d.isLt, by decide, trivial⟩
  have h := And.intro (toNat_encode (i := .vxor d a b k w) (show 0x80000030 + d.toNat * 0x200000 + a.toNat * 0x10000 + b.toNat * 0x800 + k.toNat * 0x100 + w.toNat * 0x1 = _ by simp only [pack]; omega) f rfl) f
  generalize encode (.vxor d a b k w) = iw at h ⊢
  have k : decode20 iw = .ok (.vxor d a b k w) := by
    rw [decode20, fldN_at 2 (lo := 3) (n := 5) h rfl rfl, z_at 1 (lo := 2) (n := 1) h rfl rfl, fld_at 6 (lo := 21) (v := d) h rfl rfl, fld_at 5 (lo := 16) (v := a) h rfl rfl, fld_at 4 (lo := 11) (v := b) h rfl rfl, fld_at 3 (lo := 8) (v := k) h rfl rfl, fld_at 0 (lo := 0) (v := w) h rfl rfl]; rfl
  rw [decode, fldN_at 7 (lo := 26) (n := 6) h rfl rfl, k]; rfl

theorem RoundTrip.vsll (d a b k w) : RoundTrip.Statement (.vsll d a b k w) := by
  intro _
  have f : fits [(2, w.toNat), (1, 0), (5, 7), (3, k.toNat), (5, b.toNat), (5, a.toNat), (5, d.toNat), (6, 32)] := ⟨w.isLt, by decide, by decide, k.isLt, b.isLt, a.isLt, d.isLt, by decide, trivial⟩
  have h := And.intro (toNat_encode (i := .vsll d a b k w) (show 0x80000038 + d.toNat * 0x200000 + a.toNat * 0x10000 + b.toNat * 0x800 + k.toNat * 0x100 + w.toNat * 0x1 = _ by simp only [pack]; omega) f rfl) f
  generalize encode (.vsll d a b k w) = iw at h ⊢
  have k : decode20 iw = .ok (.vsll d a b k w) := by
    rw [decode20, fldN_at 2 (lo := 3) (n := 5) h rfl rfl, z_at 1 (lo := 2) (n := 1) h rfl rfl, fld_at 6 (lo := 21) (v := d) h rfl rfl, fld_at 5 (lo := 16) (v := a) h rfl rfl, fld_at 4 (lo := 11) (v := b) h rfl rfl, fld_at 3 (lo := 8) (v := k) h rfl rfl, fld_at 0 (lo := 0) (v := w) h rfl rfl]; rfl
  rw [decode, fldN_at 7 (lo := 26) (n := 6) h rfl rfl, k]; rfl

theorem RoundTrip.vsrl (d a b k w) : RoundTrip.Statement (.vsrl d a b k w) := by
  intro _
  have f : fits [(2, w.toNat), (1, 0), (5, 8), (3, k.toNat), (5, b.toNat), (5, a.toNat), (5, d.toNat), (6, 32)] := ⟨w.isLt, by decide, by decide, k.isLt, b.isLt, a.isLt, d.isLt, by decide, trivial⟩
  have h := And.intro (toNat_encode (i := .vsrl d a b k w) (show 0x80000040 + d.toNat * 0x200000 + a.toNat * 0x10000 + b.toNat * 0x800 + k.toNat * 0x100 + w.toNat * 0x1 = _ by simp only [pack]; omega) f rfl) f
  generalize encode (.vsrl d a b k w) = iw at h ⊢
  have k : decode20 iw = .ok (.vsrl d a b k w) := by
    rw [decode20, fldN_at 2 (lo := 3) (n := 5) h rfl rfl, z_at 1 (lo := 2) (n := 1) h rfl rfl, fld_at 6 (lo := 21) (v := d) h rfl rfl, fld_at 5 (lo := 16) (v := a) h rfl rfl, fld_at 4 (lo := 11) (v := b) h rfl rfl, fld_at 3 (lo := 8) (v := k) h rfl rfl, fld_at 0 (lo := 0) (v := w) h rfl rfl]; rfl
  rw [decode, fldN_at 7 (lo := 26) (n := 6) h rfl rfl, k]; rfl

theorem RoundTrip.vsra (d a b k w) : RoundTrip.Statement (.vsra d a b k w) := by
  intro _
  have f : fits [(2, w.toNat), (1, 0), (5, 9), (3, k.toNat), (5, b.toNat), (5, a.toNat), (5, d.toNat), (6, 32)] := ⟨w.isLt, by decide, by decide, k.isLt, b.isLt, a.isLt, d.isLt, by decide, trivial⟩
  have h := And.intro (toNat_encode (i := .vsra d a b k w) (show 0x80000048 + d.toNat * 0x200000 + a.toNat * 0x10000 + b.toNat * 0x800 + k.toNat * 0x100 + w.toNat * 0x1 = _ by simp only [pack]; omega) f rfl) f
  generalize encode (.vsra d a b k w) = iw at h ⊢
  have k : decode20 iw = .ok (.vsra d a b k w) := by
    rw [decode20, fldN_at 2 (lo := 3) (n := 5) h rfl rfl, z_at 1 (lo := 2) (n := 1) h rfl rfl, fld_at 6 (lo := 21) (v := d) h rfl rfl, fld_at 5 (lo := 16) (v := a) h rfl rfl, fld_at 4 (lo := 11) (v := b) h rfl rfl, fld_at 3 (lo := 8) (v := k) h rfl rfl, fld_at 0 (lo := 0) (v := w) h rfl rfl]; rfl
  rw [decode, fldN_at 7 (lo := 26) (n := 6) h rfl rfl, k]; rfl

theorem RoundTrip.vmin (d a b k w) : RoundTrip.Statement (.vmin d a b k w) := by
  intro _
  have f : fits [(2, w.toNat), (1, 0), (5, 10), (3, k.toNat), (5, b.toNat), (5, a.toNat), (5, d.toNat), (6, 32)] := ⟨w.isLt, by decide, by decide, k.isLt, b.isLt, a.isLt, d.isLt, by decide, trivial⟩
  have h := And.intro (toNat_encode (i := .vmin d a b k w) (show 0x80000050 + d.toNat * 0x200000 + a.toNat * 0x10000 + b.toNat * 0x800 + k.toNat * 0x100 + w.toNat * 0x1 = _ by simp only [pack]; omega) f rfl) f
  generalize encode (.vmin d a b k w) = iw at h ⊢
  have k : decode20 iw = .ok (.vmin d a b k w) := by
    rw [decode20, fldN_at 2 (lo := 3) (n := 5) h rfl rfl, z_at 1 (lo := 2) (n := 1) h rfl rfl, fld_at 6 (lo := 21) (v := d) h rfl rfl, fld_at 5 (lo := 16) (v := a) h rfl rfl, fld_at 4 (lo := 11) (v := b) h rfl rfl, fld_at 3 (lo := 8) (v := k) h rfl rfl, fld_at 0 (lo := 0) (v := w) h rfl rfl]; rfl
  rw [decode, fldN_at 7 (lo := 26) (n := 6) h rfl rfl, k]; rfl

theorem RoundTrip.vmax (d a b k w) : RoundTrip.Statement (.vmax d a b k w) := by
  intro _
  have f : fits [(2, w.toNat), (1, 0), (5, 11), (3, k.toNat), (5, b.toNat), (5, a.toNat), (5, d.toNat), (6, 32)] := ⟨w.isLt, by decide, by decide, k.isLt, b.isLt, a.isLt, d.isLt, by decide, trivial⟩
  have h := And.intro (toNat_encode (i := .vmax d a b k w) (show 0x80000058 + d.toNat * 0x200000 + a.toNat * 0x10000 + b.toNat * 0x800 + k.toNat * 0x100 + w.toNat * 0x1 = _ by simp only [pack]; omega) f rfl) f
  generalize encode (.vmax d a b k w) = iw at h ⊢
  have k : decode20 iw = .ok (.vmax d a b k w) := by
    rw [decode20, fldN_at 2 (lo := 3) (n := 5) h rfl rfl, z_at 1 (lo := 2) (n := 1) h rfl rfl, fld_at 6 (lo := 21) (v := d) h rfl rfl, fld_at 5 (lo := 16) (v := a) h rfl rfl, fld_at 4 (lo := 11) (v := b) h rfl rfl, fld_at 3 (lo := 8) (v := k) h rfl rfl, fld_at 0 (lo := 0) (v := w) h rfl rfl]; rfl
  rw [decode, fldN_at 7 (lo := 26) (n := 6) h rfl rfl, k]; rfl

theorem RoundTrip.vminu (d a b k w) : RoundTrip.Statement (.vminu d a b k w) := by
  intro _
  have f : fits [(2, w.toNat), (1, 0), (5, 12), (3, k.toNat), (5, b.toNat), (5, a.toNat), (5, d.toNat), (6, 32)] := ⟨w.isLt, by decide, by decide, k.isLt, b.isLt, a.isLt, d.isLt, by decide, trivial⟩
  have h := And.intro (toNat_encode (i := .vminu d a b k w) (show 0x80000060 + d.toNat * 0x200000 + a.toNat * 0x10000 + b.toNat * 0x800 + k.toNat * 0x100 + w.toNat * 0x1 = _ by simp only [pack]; omega) f rfl) f
  generalize encode (.vminu d a b k w) = iw at h ⊢
  have k : decode20 iw = .ok (.vminu d a b k w) := by
    rw [decode20, fldN_at 2 (lo := 3) (n := 5) h rfl rfl, z_at 1 (lo := 2) (n := 1) h rfl rfl, fld_at 6 (lo := 21) (v := d) h rfl rfl, fld_at 5 (lo := 16) (v := a) h rfl rfl, fld_at 4 (lo := 11) (v := b) h rfl rfl, fld_at 3 (lo := 8) (v := k) h rfl rfl, fld_at 0 (lo := 0) (v := w) h rfl rfl]; rfl
  rw [decode, fldN_at 7 (lo := 26) (n := 6) h rfl rfl, k]; rfl

theorem RoundTrip.vmaxu (d a b k w) : RoundTrip.Statement (.vmaxu d a b k w) := by
  intro _
  have f : fits [(2, w.toNat), (1, 0), (5, 13), (3, k.toNat), (5, b.toNat), (5, a.toNat), (5, d.toNat), (6, 32)] := ⟨w.isLt, by decide, by decide, k.isLt, b.isLt, a.isLt, d.isLt, by decide, trivial⟩
  have h := And.intro (toNat_encode (i := .vmaxu d a b k w) (show 0x80000068 + d.toNat * 0x200000 + a.toNat * 0x10000 + b.toNat * 0x800 + k.toNat * 0x100 + w.toNat * 0x1 = _ by simp only [pack]; omega) f rfl) f
  generalize encode (.vmaxu d a b k w) = iw at h ⊢
  have k : decode20 iw = .ok (.vmaxu d a b k w) := by
    rw [decode20, fldN_at 2 (lo := 3) (n := 5) h rfl rfl, z_at 1 (lo := 2) (n := 1) h rfl rfl, fld_at 6 (lo := 21) (v := d) h rfl rfl, fld_at 5 (lo := 16) (v := a) h rfl rfl, fld_at 4 (lo := 11) (v := b) h rfl rfl, fld_at 3 (lo := 8) (v := k) h rfl rfl, fld_at 0 (lo := 0) (v := w) h rfl rfl]; rfl
  rw [decode, fldN_at 7 (lo := 26) (n := 6) h rfl rfl, k]; rfl

theorem RoundTrip.vcmpEq (d a b k w) : RoundTrip.Statement (.vcmpEq d a b k w) := by
  intro _
  have f : fits [(2, w.toNat), (1, 0), (5, 14), (3, k.toNat), (5, b.toNat), (5, a.toNat), (3, d.toNat), (2, 0), (6, 32)] := ⟨w.isLt, by decide, by decide, k.isLt, b.isLt, a.isLt, d.isLt, by decide, by decide, trivial⟩
  have h := And.intro (toNat_encode (i := .vcmpEq d a b k w) (show 0x80000070 + d.toNat * 0x200000 + a.toNat * 0x10000 + b.toNat * 0x800 + k.toNat * 0x100 + w.toNat * 0x1 = _ by simp only [pack]; omega) f rfl) f
  generalize encode (.vcmpEq d a b k w) = iw at h ⊢
  have k : decode20 iw = .ok (.vcmpEq d a b k w) := by
    rw [decode20, fldN_at 2 (lo := 3) (n := 5) h rfl rfl, z_at 1 (lo := 2) (n := 1) h rfl rfl, z_at 7 (lo := 24) (n := 2) h rfl rfl, fld_at 6 (lo := 21) (v := d) h rfl rfl, fld_at 5 (lo := 16) (v := a) h rfl rfl, fld_at 4 (lo := 11) (v := b) h rfl rfl, fld_at 3 (lo := 8) (v := k) h rfl rfl, fld_at 0 (lo := 0) (v := w) h rfl rfl]; rfl
  rw [decode, fldN_at 8 (lo := 26) (n := 6) h rfl rfl, k]; rfl

theorem RoundTrip.vcmpLt (d a b k w) : RoundTrip.Statement (.vcmpLt d a b k w) := by
  intro _
  have f : fits [(2, w.toNat), (1, 0), (5, 15), (3, k.toNat), (5, b.toNat), (5, a.toNat), (3, d.toNat), (2, 0), (6, 32)] := ⟨w.isLt, by decide, by decide, k.isLt, b.isLt, a.isLt, d.isLt, by decide, by decide, trivial⟩
  have h := And.intro (toNat_encode (i := .vcmpLt d a b k w) (show 0x80000078 + d.toNat * 0x200000 + a.toNat * 0x10000 + b.toNat * 0x800 + k.toNat * 0x100 + w.toNat * 0x1 = _ by simp only [pack]; omega) f rfl) f
  generalize encode (.vcmpLt d a b k w) = iw at h ⊢
  have k : decode20 iw = .ok (.vcmpLt d a b k w) := by
    rw [decode20, fldN_at 2 (lo := 3) (n := 5) h rfl rfl, z_at 1 (lo := 2) (n := 1) h rfl rfl, z_at 7 (lo := 24) (n := 2) h rfl rfl, fld_at 6 (lo := 21) (v := d) h rfl rfl, fld_at 5 (lo := 16) (v := a) h rfl rfl, fld_at 4 (lo := 11) (v := b) h rfl rfl, fld_at 3 (lo := 8) (v := k) h rfl rfl, fld_at 0 (lo := 0) (v := w) h rfl rfl]; rfl
  rw [decode, fldN_at 8 (lo := 26) (n := 6) h rfl rfl, k]; rfl

theorem RoundTrip.vcmpLtu (d a b k w) : RoundTrip.Statement (.vcmpLtu d a b k w) := by
  intro _
  have f : fits [(2, w.toNat), (1, 0), (5, 16), (3, k.toNat), (5, b.toNat), (5, a.toNat), (3, d.toNat), (2, 0), (6, 32)] := ⟨w.isLt, by decide, by decide, k.isLt, b.isLt, a.isLt, d.isLt, by decide, by decide, trivial⟩
  have h := And.intro (toNat_encode (i := .vcmpLtu d a b k w) (show 0x80000080 + d.toNat * 0x200000 + a.toNat * 0x10000 + b.toNat * 0x800 + k.toNat * 0x100 + w.toNat * 0x1 = _ by simp only [pack]; omega) f rfl) f
  generalize encode (.vcmpLtu d a b k w) = iw at h ⊢
  have k : decode20 iw = .ok (.vcmpLtu d a b k w) := by
    rw [decode20, fldN_at 2 (lo := 3) (n := 5) h rfl rfl, z_at 1 (lo := 2) (n := 1) h rfl rfl, z_at 7 (lo := 24) (n := 2) h rfl rfl, fld_at 6 (lo := 21) (v := d) h rfl rfl, fld_at 5 (lo := 16) (v := a) h rfl rfl, fld_at 4 (lo := 11) (v := b) h rfl rfl, fld_at 3 (lo := 8) (v := k) h rfl rfl, fld_at 0 (lo := 0) (v := w) h rfl rfl]; rfl
  rw [decode, fldN_at 8 (lo := 26) (n := 6) h rfl rfl, k]; rfl

theorem RoundTrip.vdot4 (d a b k) : RoundTrip.Statement (.vdot4 d a b k) := by
  intro _
  have f : fits [(3, 0), (5, 17), (3, k.toNat), (5, b.toNat), (5, a.toNat), (5, d.toNat), (6, 32)] := ⟨by decide, by decide, k.isLt, b.isLt, a.isLt, d.isLt, by decide, trivial⟩
  have h := And.intro (toNat_encode (i := .vdot4 d a b k) (show 0x80000088 + d.toNat * 0x200000 + a.toNat * 0x10000 + b.toNat * 0x800 + k.toNat * 0x100 = _ by simp only [pack]; omega) f rfl) f
  generalize encode (.vdot4 d a b k) = iw at h ⊢
  have k : decode20 iw = .ok (.vdot4 d a b k) := by
    rw [decode20, fldN_at 1 (lo := 3) (n := 5) h rfl rfl, z_at 0 (lo := 0) (n := 3) h rfl rfl, fld_at 5 (lo := 21) (v := d) h rfl rfl, fld_at 4 (lo := 16) (v := a) h rfl rfl, fld_at 3 (lo := 11) (v := b) h rfl rfl, fld_at 2 (lo := 8) (v := k) h rfl rfl]; rfl
  rw [decode, fldN_at 6 (lo := 26) (n := 6) h rfl rfl, k]; rfl

theorem RoundTrip.vfadd (d a b k w) : RoundTrip.Statement (.vfadd d a b k w) := by
  intro hc
  have f : fits [(3, w.toNat), (5, 0), (3, k.toNat), (5, b.toNat), (5, a.toNat), (5, d.toNat), (6, 33)] := ⟨w.isLt, by decide, k.isLt, b.isLt, a.isLt, d.isLt, by decide, trivial⟩
  have h := And.intro (toNat_encode (i := .vfadd d a b k w) (show 0x84000000 + d.toNat * 0x200000 + a.toNat * 0x10000 + b.toNat * 0x800 + k.toNat * 0x100 + w.toNat * 0x1 = _ by simp only [pack]; omega) f rfl) f
  generalize encode (.vfadd d a b k w) = iw at h ⊢
  have hc : (decide (w.toNat < 6)) = true := hc
  have k : decode21 iw = .ok (.vfadd d a b k w) := by
    rw [decode21, fldN_at 1 (lo := 3) (n := 5) h rfl rfl, fld_at 0 (lo := 0) (v := w) h rfl rfl, fld_at 5 (lo := 21) (v := d) h rfl rfl, fld_at 4 (lo := 16) (v := a) h rfl rfl, fld_at 3 (lo := 11) (v := b) h rfl rfl, fld_at 2 (lo := 8) (v := k) h rfl rfl, hc]; rfl
  rw [decode, fldN_at 6 (lo := 26) (n := 6) h rfl rfl, k]; rfl

theorem RoundTrip.vfsub (d a b k w) : RoundTrip.Statement (.vfsub d a b k w) := by
  intro hc
  have f : fits [(3, w.toNat), (5, 1), (3, k.toNat), (5, b.toNat), (5, a.toNat), (5, d.toNat), (6, 33)] := ⟨w.isLt, by decide, k.isLt, b.isLt, a.isLt, d.isLt, by decide, trivial⟩
  have h := And.intro (toNat_encode (i := .vfsub d a b k w) (show 0x84000008 + d.toNat * 0x200000 + a.toNat * 0x10000 + b.toNat * 0x800 + k.toNat * 0x100 + w.toNat * 0x1 = _ by simp only [pack]; omega) f rfl) f
  generalize encode (.vfsub d a b k w) = iw at h ⊢
  have hc : (decide (w.toNat < 6)) = true := hc
  have k : decode21 iw = .ok (.vfsub d a b k w) := by
    rw [decode21, fldN_at 1 (lo := 3) (n := 5) h rfl rfl, fld_at 0 (lo := 0) (v := w) h rfl rfl, fld_at 5 (lo := 21) (v := d) h rfl rfl, fld_at 4 (lo := 16) (v := a) h rfl rfl, fld_at 3 (lo := 11) (v := b) h rfl rfl, fld_at 2 (lo := 8) (v := k) h rfl rfl, hc]; rfl
  rw [decode, fldN_at 6 (lo := 26) (n := 6) h rfl rfl, k]; rfl

theorem RoundTrip.vfmul (d a b k w) : RoundTrip.Statement (.vfmul d a b k w) := by
  intro hc
  have f : fits [(3, w.toNat), (5, 2), (3, k.toNat), (5, b.toNat), (5, a.toNat), (5, d.toNat), (6, 33)] := ⟨w.isLt, by decide, k.isLt, b.isLt, a.isLt, d.isLt, by decide, trivial⟩
  have h := And.intro (toNat_encode (i := .vfmul d a b k w) (show 0x84000010 + d.toNat * 0x200000 + a.toNat * 0x10000 + b.toNat * 0x800 + k.toNat * 0x100 + w.toNat * 0x1 = _ by simp only [pack]; omega) f rfl) f
  generalize encode (.vfmul d a b k w) = iw at h ⊢
  have hc : (decide (w.toNat < 6)) = true := hc
  have k : decode21 iw = .ok (.vfmul d a b k w) := by
    rw [decode21, fldN_at 1 (lo := 3) (n := 5) h rfl rfl, fld_at 0 (lo := 0) (v := w) h rfl rfl, fld_at 5 (lo := 21) (v := d) h rfl rfl, fld_at 4 (lo := 16) (v := a) h rfl rfl, fld_at 3 (lo := 11) (v := b) h rfl rfl, fld_at 2 (lo := 8) (v := k) h rfl rfl, hc]; rfl
  rw [decode, fldN_at 6 (lo := 26) (n := 6) h rfl rfl, k]; rfl

theorem RoundTrip.vfdiv (d a b k w) : RoundTrip.Statement (.vfdiv d a b k w) := by
  intro hc
  have f : fits [(3, w.toNat), (5, 3), (3, k.toNat), (5, b.toNat), (5, a.toNat), (5, d.toNat), (6, 33)] := ⟨w.isLt, by decide, k.isLt, b.isLt, a.isLt, d.isLt, by decide, trivial⟩
  have h := And.intro (toNat_encode (i := .vfdiv d a b k w) (show 0x84000018 + d.toNat * 0x200000 + a.toNat * 0x10000 + b.toNat * 0x800 + k.toNat * 0x100 + w.toNat * 0x1 = _ by simp only [pack]; omega) f rfl) f
  generalize encode (.vfdiv d a b k w) = iw at h ⊢
  have hc : (decide (w.toNat < 6)) = true := hc
  have k : decode21 iw = .ok (.vfdiv d a b k w) := by
    rw [decode21, fldN_at 1 (lo := 3) (n := 5) h rfl rfl, fld_at 0 (lo := 0) (v := w) h rfl rfl, fld_at 5 (lo := 21) (v := d) h rfl rfl, fld_at 4 (lo := 16) (v := a) h rfl rfl, fld_at 3 (lo := 11) (v := b) h rfl rfl, fld_at 2 (lo := 8) (v := k) h rfl rfl, hc]; rfl
  rw [decode, fldN_at 6 (lo := 26) (n := 6) h rfl rfl, k]; rfl

theorem RoundTrip.vfsqrt (d a k w) : RoundTrip.Statement (.vfsqrt d a k w) := by
  intro hc
  have f : fits [(3, w.toNat), (5, 4), (3, k.toNat), (5, 0), (5, a.toNat), (5, d.toNat), (6, 33)] := ⟨w.isLt, by decide, k.isLt, by decide, a.isLt, d.isLt, by decide, trivial⟩
  have h := And.intro (toNat_encode (i := .vfsqrt d a k w) (show 0x84000020 + d.toNat * 0x200000 + a.toNat * 0x10000 + k.toNat * 0x100 + w.toNat * 0x1 = _ by simp only [pack]; omega) f rfl) f
  generalize encode (.vfsqrt d a k w) = iw at h ⊢
  have hc : (decide (w.toNat < 6)) = true := hc
  have k : decode21 iw = .ok (.vfsqrt d a k w) := by
    rw [decode21, fldN_at 1 (lo := 3) (n := 5) h rfl rfl, z_at 3 (lo := 11) (n := 5) h rfl rfl, fld_at 0 (lo := 0) (v := w) h rfl rfl, fld_at 5 (lo := 21) (v := d) h rfl rfl, fld_at 4 (lo := 16) (v := a) h rfl rfl, fld_at 2 (lo := 8) (v := k) h rfl rfl, hc]; rfl
  rw [decode, fldN_at 6 (lo := 26) (n := 6) h rfl rfl, k]; rfl

theorem RoundTrip.vfma (d a b k w) : RoundTrip.Statement (.vfma d a b k w) := by
  intro hc
  have f : fits [(3, w.toNat), (5, 5), (3, k.toNat), (5, b.toNat), (5, a.toNat), (5, d.toNat), (6, 33)] := ⟨w.isLt, by decide, k.isLt, b.isLt, a.isLt, d.isLt, by decide, trivial⟩
  have h := And.intro (toNat_encode (i := .vfma d a b k w) (show 0x84000028 + d.toNat * 0x200000 + a.toNat * 0x10000 + b.toNat * 0x800 + k.toNat * 0x100 + w.toNat * 0x1 = _ by simp only [pack]; omega) f rfl) f
  generalize encode (.vfma d a b k w) = iw at h ⊢
  have hc : (decide (w.toNat < 6)) = true := hc
  have k : decode21 iw = .ok (.vfma d a b k w) := by
    rw [decode21, fldN_at 1 (lo := 3) (n := 5) h rfl rfl, fld_at 0 (lo := 0) (v := w) h rfl rfl, fld_at 5 (lo := 21) (v := d) h rfl rfl, fld_at 4 (lo := 16) (v := a) h rfl rfl, fld_at 3 (lo := 11) (v := b) h rfl rfl, fld_at 2 (lo := 8) (v := k) h rfl rfl, hc]; rfl
  rw [decode, fldN_at 6 (lo := 26) (n := 6) h rfl rfl, k]; rfl

theorem RoundTrip.vfmin (d a b k w) : RoundTrip.Statement (.vfmin d a b k w) := by
  intro hc
  have f : fits [(3, w.toNat), (5, 6), (3, k.toNat), (5, b.toNat), (5, a.toNat), (5, d.toNat), (6, 33)] := ⟨w.isLt, by decide, k.isLt, b.isLt, a.isLt, d.isLt, by decide, trivial⟩
  have h := And.intro (toNat_encode (i := .vfmin d a b k w) (show 0x84000030 + d.toNat * 0x200000 + a.toNat * 0x10000 + b.toNat * 0x800 + k.toNat * 0x100 + w.toNat * 0x1 = _ by simp only [pack]; omega) f rfl) f
  generalize encode (.vfmin d a b k w) = iw at h ⊢
  have hc : (decide (w.toNat < 6)) = true := hc
  have k : decode21 iw = .ok (.vfmin d a b k w) := by
    rw [decode21, fldN_at 1 (lo := 3) (n := 5) h rfl rfl, fld_at 0 (lo := 0) (v := w) h rfl rfl, fld_at 5 (lo := 21) (v := d) h rfl rfl, fld_at 4 (lo := 16) (v := a) h rfl rfl, fld_at 3 (lo := 11) (v := b) h rfl rfl, fld_at 2 (lo := 8) (v := k) h rfl rfl, hc]; rfl
  rw [decode, fldN_at 6 (lo := 26) (n := 6) h rfl rfl, k]; rfl

theorem RoundTrip.vfmax (d a b k w) : RoundTrip.Statement (.vfmax d a b k w) := by
  intro hc
  have f : fits [(3, w.toNat), (5, 7), (3, k.toNat), (5, b.toNat), (5, a.toNat), (5, d.toNat), (6, 33)] := ⟨w.isLt, by decide, k.isLt, b.isLt, a.isLt, d.isLt, by decide, trivial⟩
  have h := And.intro (toNat_encode (i := .vfmax d a b k w) (show 0x84000038 + d.toNat * 0x200000 + a.toNat * 0x10000 + b.toNat * 0x800 + k.toNat * 0x100 + w.toNat * 0x1 = _ by simp only [pack]; omega) f rfl) f
  generalize encode (.vfmax d a b k w) = iw at h ⊢
  have hc : (decide (w.toNat < 6)) = true := hc
  have k : decode21 iw = .ok (.vfmax d a b k w) := by
    rw [decode21, fldN_at 1 (lo := 3) (n := 5) h rfl rfl, fld_at 0 (lo := 0) (v := w) h rfl rfl, fld_at 5 (lo := 21) (v := d) h rfl rfl, fld_at 4 (lo := 16) (v := a) h rfl rfl, fld_at 3 (lo := 11) (v := b) h rfl rfl, fld_at 2 (lo := 8) (v := k) h rfl rfl, hc]; rfl
  rw [decode, fldN_at 6 (lo := 26) (n := 6) h rfl rfl, k]; rfl

theorem RoundTrip.vfcmpEq (d a b k w) : RoundTrip.Statement (.vfcmpEq d a b k w) := by
  intro hc
  have f : fits [(3, w.toNat), (5, 8), (3, k.toNat), (5, b.toNat), (5, a.toNat), (3, d.toNat), (2, 0), (6, 33)] := ⟨w.isLt, by decide, k.isLt, b.isLt, a.isLt, d.isLt, by decide, by decide, trivial⟩
  have h := And.intro (toNat_encode (i := .vfcmpEq d a b k w) (show 0x84000040 + d.toNat * 0x200000 + a.toNat * 0x10000 + b.toNat * 0x800 + k.toNat * 0x100 + w.toNat * 0x1 = _ by simp only [pack]; omega) f rfl) f
  generalize encode (.vfcmpEq d a b k w) = iw at h ⊢
  have hc : (decide (w.toNat < 6)) = true := hc
  have k : decode21 iw = .ok (.vfcmpEq d a b k w) := by
    rw [decode21, fldN_at 1 (lo := 3) (n := 5) h rfl rfl, z_at 6 (lo := 24) (n := 2) h rfl rfl, fld_at 0 (lo := 0) (v := w) h rfl rfl, fld_at 5 (lo := 21) (v := d) h rfl rfl, fld_at 4 (lo := 16) (v := a) h rfl rfl, fld_at 3 (lo := 11) (v := b) h rfl rfl, fld_at 2 (lo := 8) (v := k) h rfl rfl, hc]; rfl
  rw [decode, fldN_at 7 (lo := 26) (n := 6) h rfl rfl, k]; rfl

theorem RoundTrip.vfcmpLt (d a b k w) : RoundTrip.Statement (.vfcmpLt d a b k w) := by
  intro hc
  have f : fits [(3, w.toNat), (5, 9), (3, k.toNat), (5, b.toNat), (5, a.toNat), (3, d.toNat), (2, 0), (6, 33)] := ⟨w.isLt, by decide, k.isLt, b.isLt, a.isLt, d.isLt, by decide, by decide, trivial⟩
  have h := And.intro (toNat_encode (i := .vfcmpLt d a b k w) (show 0x84000048 + d.toNat * 0x200000 + a.toNat * 0x10000 + b.toNat * 0x800 + k.toNat * 0x100 + w.toNat * 0x1 = _ by simp only [pack]; omega) f rfl) f
  generalize encode (.vfcmpLt d a b k w) = iw at h ⊢
  have hc : (decide (w.toNat < 6)) = true := hc
  have k : decode21 iw = .ok (.vfcmpLt d a b k w) := by
    rw [decode21, fldN_at 1 (lo := 3) (n := 5) h rfl rfl, z_at 6 (lo := 24) (n := 2) h rfl rfl, fld_at 0 (lo := 0) (v := w) h rfl rfl, fld_at 5 (lo := 21) (v := d) h rfl rfl, fld_at 4 (lo := 16) (v := a) h rfl rfl, fld_at 3 (lo := 11) (v := b) h rfl rfl, fld_at 2 (lo := 8) (v := k) h rfl rfl, hc]; rfl
  rw [decode, fldN_at 7 (lo := 26) (n := 6) h rfl rfl, k]; rfl

theorem RoundTrip.vfcmpLe (d a b k w) : RoundTrip.Statement (.vfcmpLe d a b k w) := by
  intro hc
  have f : fits [(3, w.toNat), (5, 10), (3, k.toNat), (5, b.toNat), (5, a.toNat), (3, d.toNat), (2, 0), (6, 33)] := ⟨w.isLt, by decide, k.isLt, b.isLt, a.isLt, d.isLt, by decide, by decide, trivial⟩
  have h := And.intro (toNat_encode (i := .vfcmpLe d a b k w) (show 0x84000050 + d.toNat * 0x200000 + a.toNat * 0x10000 + b.toNat * 0x800 + k.toNat * 0x100 + w.toNat * 0x1 = _ by simp only [pack]; omega) f rfl) f
  generalize encode (.vfcmpLe d a b k w) = iw at h ⊢
  have hc : (decide (w.toNat < 6)) = true := hc
  have k : decode21 iw = .ok (.vfcmpLe d a b k w) := by
    rw [decode21, fldN_at 1 (lo := 3) (n := 5) h rfl rfl, z_at 6 (lo := 24) (n := 2) h rfl rfl, fld_at 0 (lo := 0) (v := w) h rfl rfl, fld_at 5 (lo := 21) (v := d) h rfl rfl, fld_at 4 (lo := 16) (v := a) h rfl rfl, fld_at 3 (lo := 11) (v := b) h rfl rfl, fld_at 2 (lo := 8) (v := k) h rfl rfl, hc]; rfl
  rw [decode, fldN_at 7 (lo := 26) (n := 6) h rfl rfl, k]; rfl

theorem RoundTrip.vfcmpUn (d a b k w) : RoundTrip.Statement (.vfcmpUn d a b k w) := by
  intro hc
  have f : fits [(3, w.toNat), (5, 11), (3, k.toNat), (5, b.toNat), (5, a.toNat), (3, d.toNat), (2, 0), (6, 33)] := ⟨w.isLt, by decide, k.isLt, b.isLt, a.isLt, d.isLt, by decide, by decide, trivial⟩
  have h := And.intro (toNat_encode (i := .vfcmpUn d a b k w) (show 0x84000058 + d.toNat * 0x200000 + a.toNat * 0x10000 + b.toNat * 0x800 + k.toNat * 0x100 + w.toNat * 0x1 = _ by simp only [pack]; omega) f rfl) f
  generalize encode (.vfcmpUn d a b k w) = iw at h ⊢
  have hc : (decide (w.toNat < 6)) = true := hc
  have k : decode21 iw = .ok (.vfcmpUn d a b k w) := by
    rw [decode21, fldN_at 1 (lo := 3) (n := 5) h rfl rfl, z_at 6 (lo := 24) (n := 2) h rfl rfl, fld_at 0 (lo := 0) (v := w) h rfl rfl, fld_at 5 (lo := 21) (v := d) h rfl rfl, fld_at 4 (lo := 16) (v := a) h rfl rfl, fld_at 3 (lo := 11) (v := b) h rfl rfl, fld_at 2 (lo := 8) (v := k) h rfl rfl, hc]; rfl
  rw [decode, fldN_at 7 (lo := 26) (n := 6) h rfl rfl, k]; rfl

theorem RoundTrip.vfcvt (d a s k w) : RoundTrip.Statement (.vfcvt d a s k w) := by
  intro hc
  have f : fits [(3, w.toNat), (5, 12), (3, k.toNat), (3, s.toNat), (2, 0), (5, a.toNat), (5, d.toNat), (6, 33)] := ⟨w.isLt, by decide, k.isLt, s.isLt, by decide, a.isLt, d.isLt, by decide, trivial⟩
  have h := And.intro (toNat_encode (i := .vfcvt d a s k w) (show 0x84000060 + d.toNat * 0x200000 + a.toNat * 0x10000 + s.toNat * 0x800 + k.toNat * 0x100 + w.toNat * 0x1 = _ by simp only [pack]; omega) f rfl) f
  generalize encode (.vfcvt d a s k w) = iw at h ⊢
  have hc : (decide (w.toNat < 6) && decide (s.toNat < 6)) = true := hc
  have k : decode21 iw = .ok (.vfcvt d a s k w) := by
    rw [decode21, fldN_at 1 (lo := 3) (n := 5) h rfl rfl, z_at 4 (lo := 14) (n := 2) h rfl rfl, fld_at 0 (lo := 0) (v := w) h rfl rfl, fld_at 3 (lo := 11) (v := s) h rfl rfl, fld_at 6 (lo := 21) (v := d) h rfl rfl, fld_at 5 (lo := 16) (v := a) h rfl rfl, fld_at 2 (lo := 8) (v := k) h rfl rfl, hc]; rfl
  rw [decode, fldN_at 7 (lo := 26) (n := 6) h rfl rfl, k]; rfl

theorem RoundTrip.veadd (d a b k) : RoundTrip.Statement (.veadd d a b k) := by
  intro _
  have f : fits [(3, 7), (5, 0), (3, k.toNat), (5, b.toNat), (5, a.toNat), (5, d.toNat), (6, 34)] := ⟨by decide, by decide, k.isLt, b.isLt, a.isLt, d.isLt, by decide, trivial⟩
  have h := And.intro (toNat_encode (i := .veadd d a b k) (show 0x88000007 + d.toNat * 0x200000 + a.toNat * 0x10000 + b.toNat * 0x800 + k.toNat * 0x100 = _ by simp only [pack]; omega) f rfl) f
  generalize encode (.veadd d a b k) = iw at h ⊢
  have k : decode22 iw = .ok (.veadd d a b k) := by
    rw [decode22, fldN_at 1 (lo := 3) (n := 5) h rfl rfl, fldN_at 0 (lo := 0) (n := 3) h rfl rfl, fld_at 5 (lo := 21) (v := d) h rfl rfl, fld_at 4 (lo := 16) (v := a) h rfl rfl, fld_at 3 (lo := 11) (v := b) h rfl rfl, fld_at 2 (lo := 8) (v := k) h rfl rfl]; rfl
  rw [decode, fldN_at 6 (lo := 26) (n := 6) h rfl rfl, k]; rfl

theorem RoundTrip.vesub (d a b k) : RoundTrip.Statement (.vesub d a b k) := by
  intro _
  have f : fits [(3, 7), (5, 1), (3, k.toNat), (5, b.toNat), (5, a.toNat), (5, d.toNat), (6, 34)] := ⟨by decide, by decide, k.isLt, b.isLt, a.isLt, d.isLt, by decide, trivial⟩
  have h := And.intro (toNat_encode (i := .vesub d a b k) (show 0x8800000F + d.toNat * 0x200000 + a.toNat * 0x10000 + b.toNat * 0x800 + k.toNat * 0x100 = _ by simp only [pack]; omega) f rfl) f
  generalize encode (.vesub d a b k) = iw at h ⊢
  have k : decode22 iw = .ok (.vesub d a b k) := by
    rw [decode22, fldN_at 1 (lo := 3) (n := 5) h rfl rfl, fldN_at 0 (lo := 0) (n := 3) h rfl rfl, fld_at 5 (lo := 21) (v := d) h rfl rfl, fld_at 4 (lo := 16) (v := a) h rfl rfl, fld_at 3 (lo := 11) (v := b) h rfl rfl, fld_at 2 (lo := 8) (v := k) h rfl rfl]; rfl
  rw [decode, fldN_at 6 (lo := 26) (n := 6) h rfl rfl, k]; rfl

theorem RoundTrip.vemul (d a b k) : RoundTrip.Statement (.vemul d a b k) := by
  intro _
  have f : fits [(3, 7), (5, 2), (3, k.toNat), (5, b.toNat), (5, a.toNat), (5, d.toNat), (6, 34)] := ⟨by decide, by decide, k.isLt, b.isLt, a.isLt, d.isLt, by decide, trivial⟩
  have h := And.intro (toNat_encode (i := .vemul d a b k) (show 0x88000017 + d.toNat * 0x200000 + a.toNat * 0x10000 + b.toNat * 0x800 + k.toNat * 0x100 = _ by simp only [pack]; omega) f rfl) f
  generalize encode (.vemul d a b k) = iw at h ⊢
  have k : decode22 iw = .ok (.vemul d a b k) := by
    rw [decode22, fldN_at 1 (lo := 3) (n := 5) h rfl rfl, fldN_at 0 (lo := 0) (n := 3) h rfl rfl, fld_at 5 (lo := 21) (v := d) h rfl rfl, fld_at 4 (lo := 16) (v := a) h rfl rfl, fld_at 3 (lo := 11) (v := b) h rfl rfl, fld_at 2 (lo := 8) (v := k) h rfl rfl]; rfl
  rw [decode, fldN_at 6 (lo := 26) (n := 6) h rfl rfl, k]; rfl

theorem RoundTrip.vefma (d a b k) : RoundTrip.Statement (.vefma d a b k) := by
  intro _
  have f : fits [(3, 7), (5, 3), (3, k.toNat), (5, b.toNat), (5, a.toNat), (5, d.toNat), (6, 34)] := ⟨by decide, by decide, k.isLt, b.isLt, a.isLt, d.isLt, by decide, trivial⟩
  have h := And.intro (toNat_encode (i := .vefma d a b k) (show 0x8800001F + d.toNat * 0x200000 + a.toNat * 0x10000 + b.toNat * 0x800 + k.toNat * 0x100 = _ by simp only [pack]; omega) f rfl) f
  generalize encode (.vefma d a b k) = iw at h ⊢
  have k : decode22 iw = .ok (.vefma d a b k) := by
    rw [decode22, fldN_at 1 (lo := 3) (n := 5) h rfl rfl, fldN_at 0 (lo := 0) (n := 3) h rfl rfl, fld_at 5 (lo := 21) (v := d) h rfl rfl, fld_at 4 (lo := 16) (v := a) h rfl rfl, fld_at 3 (lo := 11) (v := b) h rfl rfl, fld_at 2 (lo := 8) (v := k) h rfl rfl]; rfl
  rw [decode, fldN_at 6 (lo := 26) (n := 6) h rfl rfl, k]; rfl

theorem RoundTrip.vld (d b k w) : RoundTrip.Statement (.vld d b k w) := by
  intro _
  have f : fits [(2, w.toNat), (4, 0), (3, k.toNat), (6, 0), (6, b.toNat), (5, d.toNat), (6, 35)] := ⟨w.isLt, by decide, k.isLt, by decide, b.isLt, d.isLt, by decide, trivial⟩
  have h := And.intro (toNat_encode (i := .vld d b k w) (show 0x8C000000 + d.toNat * 0x200000 + b.toNat * 0x8000 + k.toNat * 0x40 + w.toNat * 0x1 = _ by simp only [pack]; omega) f rfl) f
  generalize encode (.vld d b k w) = iw at h ⊢
  have k : decode23 iw = .ok (.vld d b k w) := by
    rw [decode23, fldN_at 1 (lo := 2) (n := 4) h rfl rfl, z_at 3 (lo := 9) (n := 6) h rfl rfl, fld_at 5 (lo := 21) (v := d) h rfl rfl, fld_at 4 (lo := 15) (v := b) h rfl rfl, fld_at 2 (lo := 6) (v := k) h rfl rfl, fld_at 0 (lo := 0) (v := w) h rfl rfl]; rfl
  rw [decode, fldN_at 6 (lo := 26) (n := 6) h rfl rfl, k]; rfl

theorem RoundTrip.vst (d b k w) : RoundTrip.Statement (.vst d b k w) := by
  intro _
  have f : fits [(2, w.toNat), (4, 1), (3, k.toNat), (6, 0), (6, b.toNat), (5, d.toNat), (6, 35)] := ⟨w.isLt, by decide, k.isLt, by decide, b.isLt, d.isLt, by decide, trivial⟩
  have h := And.intro (toNat_encode (i := .vst d b k w) (show 0x8C000004 + d.toNat * 0x200000 + b.toNat * 0x8000 + k.toNat * 0x40 + w.toNat * 0x1 = _ by simp only [pack]; omega) f rfl) f
  generalize encode (.vst d b k w) = iw at h ⊢
  have k : decode23 iw = .ok (.vst d b k w) := by
    rw [decode23, fldN_at 1 (lo := 2) (n := 4) h rfl rfl, z_at 3 (lo := 9) (n := 6) h rfl rfl, fld_at 5 (lo := 21) (v := d) h rfl rfl, fld_at 4 (lo := 15) (v := b) h rfl rfl, fld_at 2 (lo := 6) (v := k) h rfl rfl, fld_at 0 (lo := 0) (v := w) h rfl rfl]; rfl
  rw [decode, fldN_at 6 (lo := 26) (n := 6) h rfl rfl, k]; rfl

theorem RoundTrip.vlds (d b c k w) : RoundTrip.Statement (.vlds d b c k w) := by
  intro _
  have f : fits [(2, w.toNat), (4, 2), (3, k.toNat), (6, c.toNat), (6, b.toNat), (5, d.toNat), (6, 35)] := ⟨w.isLt, by decide, k.isLt, c.isLt, b.isLt, d.isLt, by decide, trivial⟩
  have h := And.intro (toNat_encode (i := .vlds d b c k w) (show 0x8C000008 + d.toNat * 0x200000 + b.toNat * 0x8000 + c.toNat * 0x200 + k.toNat * 0x40 + w.toNat * 0x1 = _ by simp only [pack]; omega) f rfl) f
  generalize encode (.vlds d b c k w) = iw at h ⊢
  have k : decode23 iw = .ok (.vlds d b c k w) := by
    rw [decode23, fldN_at 1 (lo := 2) (n := 4) h rfl rfl, fld_at 5 (lo := 21) (v := d) h rfl rfl, fld_at 4 (lo := 15) (v := b) h rfl rfl, fld_at 3 (lo := 9) (v := c) h rfl rfl, fld_at 2 (lo := 6) (v := k) h rfl rfl, fld_at 0 (lo := 0) (v := w) h rfl rfl]; rfl
  rw [decode, fldN_at 6 (lo := 26) (n := 6) h rfl rfl, k]; rfl

theorem RoundTrip.vsts (d b c k w) : RoundTrip.Statement (.vsts d b c k w) := by
  intro _
  have f : fits [(2, w.toNat), (4, 3), (3, k.toNat), (6, c.toNat), (6, b.toNat), (5, d.toNat), (6, 35)] := ⟨w.isLt, by decide, k.isLt, c.isLt, b.isLt, d.isLt, by decide, trivial⟩
  have h := And.intro (toNat_encode (i := .vsts d b c k w) (show 0x8C00000C + d.toNat * 0x200000 + b.toNat * 0x8000 + c.toNat * 0x200 + k.toNat * 0x40 + w.toNat * 0x1 = _ by simp only [pack]; omega) f rfl) f
  generalize encode (.vsts d b c k w) = iw at h ⊢
  have k : decode23 iw = .ok (.vsts d b c k w) := by
    rw [decode23, fldN_at 1 (lo := 2) (n := 4) h rfl rfl, fld_at 5 (lo := 21) (v := d) h rfl rfl, fld_at 4 (lo := 15) (v := b) h rfl rfl, fld_at 3 (lo := 9) (v := c) h rfl rfl, fld_at 2 (lo := 6) (v := k) h rfl rfl, fld_at 0 (lo := 0) (v := w) h rfl rfl]; rfl
  rw [decode, fldN_at 6 (lo := 26) (n := 6) h rfl rfl, k]; rfl

theorem RoundTrip.vgath (d b c k w) : RoundTrip.Statement (.vgath d b c k w) := by
  intro _
  have f : fits [(2, w.toNat), (4, 4), (3, k.toNat), (5, c.toNat), (1, 0), (6, b.toNat), (5, d.toNat), (6, 35)] := ⟨w.isLt, by decide, k.isLt, c.isLt, by decide, b.isLt, d.isLt, by decide, trivial⟩
  have h := And.intro (toNat_encode (i := .vgath d b c k w) (show 0x8C000010 + d.toNat * 0x200000 + b.toNat * 0x8000 + c.toNat * 0x200 + k.toNat * 0x40 + w.toNat * 0x1 = _ by simp only [pack]; omega) f rfl) f
  generalize encode (.vgath d b c k w) = iw at h ⊢
  have k : decode23 iw = .ok (.vgath d b c k w) := by
    rw [decode23, fldN_at 1 (lo := 2) (n := 4) h rfl rfl, z_at 4 (lo := 14) (n := 1) h rfl rfl, fld_at 6 (lo := 21) (v := d) h rfl rfl, fld_at 5 (lo := 15) (v := b) h rfl rfl, fld_at 3 (lo := 9) (v := c) h rfl rfl, fld_at 2 (lo := 6) (v := k) h rfl rfl, fld_at 0 (lo := 0) (v := w) h rfl rfl]; rfl
  rw [decode, fldN_at 7 (lo := 26) (n := 6) h rfl rfl, k]; rfl

theorem RoundTrip.vgathT (d b c k w) : RoundTrip.Statement (.vgathT d b c k w) := by
  intro hc
  have f : fits [(2, w.toNat), (4, 5), (3, k.toNat), (5, c.toNat), (1, 0), (6, b.toNat), (5, d.toNat), (6, 35)] := ⟨w.isLt, by decide, k.isLt, c.isLt, by decide, b.isLt, d.isLt, by decide, trivial⟩
  have h := And.intro (toNat_encode (i := .vgathT d b c k w) (show 0x8C000014 + d.toNat * 0x200000 + b.toNat * 0x8000 + c.toNat * 0x200 + k.toNat * 0x40 + w.toNat * 0x1 = _ by simp only [pack]; omega) f rfl) f
  generalize encode (.vgathT d b c k w) = iw at h ⊢
  have hc : (k != 0) = true := hc
  have k : decode23 iw = .ok (.vgathT d b c k w) := by
    rw [decode23, fldN_at 1 (lo := 2) (n := 4) h rfl rfl, z_at 4 (lo := 14) (n := 1) h rfl rfl, fld_at 2 (lo := 6) (v := k) h rfl rfl, fld_at 6 (lo := 21) (v := d) h rfl rfl, fld_at 5 (lo := 15) (v := b) h rfl rfl, fld_at 3 (lo := 9) (v := c) h rfl rfl, fld_at 0 (lo := 0) (v := w) h rfl rfl, hc]; rfl
  rw [decode, fldN_at 7 (lo := 26) (n := 6) h rfl rfl, k]; rfl

theorem RoundTrip.vscat (d b c k w) : RoundTrip.Statement (.vscat d b c k w) := by
  intro _
  have f : fits [(2, w.toNat), (4, 6), (3, k.toNat), (5, c.toNat), (1, 0), (6, b.toNat), (5, d.toNat), (6, 35)] := ⟨w.isLt, by decide, k.isLt, c.isLt, by decide, b.isLt, d.isLt, by decide, trivial⟩
  have h := And.intro (toNat_encode (i := .vscat d b c k w) (show 0x8C000018 + d.toNat * 0x200000 + b.toNat * 0x8000 + c.toNat * 0x200 + k.toNat * 0x40 + w.toNat * 0x1 = _ by simp only [pack]; omega) f rfl) f
  generalize encode (.vscat d b c k w) = iw at h ⊢
  have k : decode23 iw = .ok (.vscat d b c k w) := by
    rw [decode23, fldN_at 1 (lo := 2) (n := 4) h rfl rfl, z_at 4 (lo := 14) (n := 1) h rfl rfl, fld_at 6 (lo := 21) (v := d) h rfl rfl, fld_at 5 (lo := 15) (v := b) h rfl rfl, fld_at 3 (lo := 9) (v := c) h rfl rfl, fld_at 2 (lo := 6) (v := k) h rfl rfl, fld_at 0 (lo := 0) (v := w) h rfl rfl]; rfl
  rw [decode, fldN_at 7 (lo := 26) (n := 6) h rfl rfl, k]; rfl

theorem RoundTrip.vldel (d b c k) : RoundTrip.Statement (.vldel d b c k) := by
  intro _
  have f : fits [(2, 0), (4, 7), (3, k.toNat), (6, c.toNat), (6, b.toNat), (5, d.toNat), (6, 35)] := ⟨by decide, by decide, k.isLt, c.isLt, b.isLt, d.isLt, by decide, trivial⟩
  have h := And.intro (toNat_encode (i := .vldel d b c k) (show 0x8C00001C + d.toNat * 0x200000 + b.toNat * 0x8000 + c.toNat * 0x200 + k.toNat * 0x40 = _ by simp only [pack]; omega) f rfl) f
  generalize encode (.vldel d b c k) = iw at h ⊢
  have k : decode23 iw = .ok (.vldel d b c k) := by
    rw [decode23, fldN_at 1 (lo := 2) (n := 4) h rfl rfl, z_at 0 (lo := 0) (n := 2) h rfl rfl, fld_at 5 (lo := 21) (v := d) h rfl rfl, fld_at 4 (lo := 15) (v := b) h rfl rfl, fld_at 3 (lo := 9) (v := c) h rfl rfl, fld_at 2 (lo := 6) (v := k) h rfl rfl]; rfl
  rw [decode, fldN_at 6 (lo := 26) (n := 6) h rfl rfl, k]; rfl

theorem RoundTrip.vstel (d b c k) : RoundTrip.Statement (.vstel d b c k) := by
  intro _
  have f : fits [(2, 0), (4, 8), (3, k.toNat), (6, c.toNat), (6, b.toNat), (5, d.toNat), (6, 35)] := ⟨by decide, by decide, k.isLt, c.isLt, b.isLt, d.isLt, by decide, trivial⟩
  have h := And.intro (toNat_encode (i := .vstel d b c k) (show 0x8C000020 + d.toNat * 0x200000 + b.toNat * 0x8000 + c.toNat * 0x200 + k.toNat * 0x40 = _ by simp only [pack]; omega) f rfl) f
  generalize encode (.vstel d b c k) = iw at h ⊢
  have k : decode23 iw = .ok (.vstel d b c k) := by
    rw [decode23, fldN_at 1 (lo := 2) (n := 4) h rfl rfl, z_at 0 (lo := 0) (n := 2) h rfl rfl, fld_at 5 (lo := 21) (v := d) h rfl rfl, fld_at 4 (lo := 15) (v := b) h rfl rfl, fld_at 3 (lo := 9) (v := c) h rfl rfl, fld_at 2 (lo := 6) (v := k) h rfl rfl]; rfl
  rw [decode, fldN_at 6 (lo := 26) (n := 6) h rfl rfl, k]; rfl

theorem RoundTrip.vperm (d a b k w) : RoundTrip.Statement (.vperm d a b k w) := by
  intro _
  have f : fits [(2, w.toNat), (1, 0), (5, 0), (3, k.toNat), (5, b.toNat), (5, a.toNat), (5, d.toNat), (6, 36)] := ⟨w.isLt, by decide, by decide, k.isLt, b.isLt, a.isLt, d.isLt, by decide, trivial⟩
  have h := And.intro (toNat_encode (i := .vperm d a b k w) (show 0x90000000 + d.toNat * 0x200000 + a.toNat * 0x10000 + b.toNat * 0x800 + k.toNat * 0x100 + w.toNat * 0x1 = _ by simp only [pack]; omega) f rfl) f
  generalize encode (.vperm d a b k w) = iw at h ⊢
  have k : decode24 iw = .ok (.vperm d a b k w) := by
    rw [decode24, fldN_at 2 (lo := 3) (n := 5) h rfl rfl, z_at 1 (lo := 2) (n := 1) h rfl rfl, fld_at 6 (lo := 21) (v := d) h rfl rfl, fld_at 5 (lo := 16) (v := a) h rfl rfl, fld_at 4 (lo := 11) (v := b) h rfl rfl, fld_at 3 (lo := 8) (v := k) h rfl rfl, fld_at 0 (lo := 0) (v := w) h rfl rfl]; rfl
  rw [decode, fldN_at 7 (lo := 26) (n := 6) h rfl rfl, k]; rfl

theorem RoundTrip.vslide (d a b k w) : RoundTrip.Statement (.vslide d a b k w) := by
  intro _
  have f : fits [(2, w.toNat), (1, 0), (5, 1), (3, k.toNat), (5, b.toNat), (5, a.toNat), (5, d.toNat), (6, 36)] := ⟨w.isLt, by decide, by decide, k.isLt, b.isLt, a.isLt, d.isLt, by decide, trivial⟩
  have h := And.intro (toNat_encode (i := .vslide d a b k w) (show 0x90000008 + d.toNat * 0x200000 + a.toNat * 0x10000 + b.toNat * 0x800 + k.toNat * 0x100 + w.toNat * 0x1 = _ by simp only [pack]; omega) f rfl) f
  generalize encode (.vslide d a b k w) = iw at h ⊢
  have k : decode24 iw = .ok (.vslide d a b k w) := by
    rw [decode24, fldN_at 2 (lo := 3) (n := 5) h rfl rfl, z_at 1 (lo := 2) (n := 1) h rfl rfl, fld_at 6 (lo := 21) (v := d) h rfl rfl, fld_at 5 (lo := 16) (v := a) h rfl rfl, fld_at 4 (lo := 11) (v := b) h rfl rfl, fld_at 3 (lo := 8) (v := k) h rfl rfl, fld_at 0 (lo := 0) (v := w) h rfl rfl]; rfl
  rw [decode, fldN_at 7 (lo := 26) (n := 6) h rfl rfl, k]; rfl

theorem RoundTrip.vbcast (d a k w) : RoundTrip.Statement (.vbcast d a k w) := by
  intro _
  have f : fits [(2, w.toNat), (1, 0), (5, 2), (3, k.toNat), (5, 0), (5, a.toNat), (5, d.toNat), (6, 36)] := ⟨w.isLt, by decide, by decide, k.isLt, by decide, a.isLt, d.isLt, by decide, trivial⟩
  have h := And.intro (toNat_encode (i := .vbcast d a k w) (show 0x90000010 + d.toNat * 0x200000 + a.toNat * 0x10000 + k.toNat * 0x100 + w.toNat * 0x1 = _ by simp only [pack]; omega) f rfl) f
  generalize encode (.vbcast d a k w) = iw at h ⊢
  have k : decode24 iw = .ok (.vbcast d a k w) := by
    rw [decode24, fldN_at 2 (lo := 3) (n := 5) h rfl rfl, z_at 1 (lo := 2) (n := 1) h rfl rfl, z_at 4 (lo := 11) (n := 5) h rfl rfl, fld_at 6 (lo := 21) (v := d) h rfl rfl, fld_at 5 (lo := 16) (v := a) h rfl rfl, fld_at 3 (lo := 8) (v := k) h rfl rfl, fld_at 0 (lo := 0) (v := w) h rfl rfl]; rfl
  rw [decode, fldN_at 7 (lo := 26) (n := 6) h rfl rfl, k]; rfl

theorem RoundTrip.vext (d a b w) : RoundTrip.Statement (.vext d a b w) := by
  intro _
  have f : fits [(2, w.toNat), (1, 0), (5, 3), (3, 0), (5, b.toNat), (5, a.toNat), (5, d.toNat), (6, 36)] := ⟨w.isLt, by decide, by decide, by decide, b.isLt, a.isLt, d.isLt, by decide, trivial⟩
  have h := And.intro (toNat_encode (i := .vext d a b w) (show 0x90000018 + d.toNat * 0x200000 + a.toNat * 0x10000 + b.toNat * 0x800 + w.toNat * 0x1 = _ by simp only [pack]; omega) f rfl) f
  generalize encode (.vext d a b w) = iw at h ⊢
  have k : decode24 iw = .ok (.vext d a b w) := by
    rw [decode24, fldN_at 2 (lo := 3) (n := 5) h rfl rfl, z_at 1 (lo := 2) (n := 1) h rfl rfl, z_at 3 (lo := 8) (n := 3) h rfl rfl, fld_at 6 (lo := 21) (v := d) h rfl rfl, fld_at 5 (lo := 16) (v := a) h rfl rfl, fld_at 4 (lo := 11) (v := b) h rfl rfl, fld_at 0 (lo := 0) (v := w) h rfl rfl]; rfl
  rw [decode, fldN_at 7 (lo := 26) (n := 6) h rfl rfl, k]; rfl

theorem RoundTrip.vredAdd (d a k w) : RoundTrip.Statement (.vredAdd d a k w) := by
  intro _
  have f : fits [(2, w.toNat), (1, 0), (5, 4), (3, k.toNat), (5, 0), (5, a.toNat), (5, d.toNat), (6, 36)] := ⟨w.isLt, by decide, by decide, k.isLt, by decide, a.isLt, d.isLt, by decide, trivial⟩
  have h := And.intro (toNat_encode (i := .vredAdd d a k w) (show 0x90000020 + d.toNat * 0x200000 + a.toNat * 0x10000 + k.toNat * 0x100 + w.toNat * 0x1 = _ by simp only [pack]; omega) f rfl) f
  generalize encode (.vredAdd d a k w) = iw at h ⊢
  have k : decode24 iw = .ok (.vredAdd d a k w) := by
    rw [decode24, fldN_at 2 (lo := 3) (n := 5) h rfl rfl, z_at 1 (lo := 2) (n := 1) h rfl rfl, z_at 4 (lo := 11) (n := 5) h rfl rfl, fld_at 6 (lo := 21) (v := d) h rfl rfl, fld_at 5 (lo := 16) (v := a) h rfl rfl, fld_at 3 (lo := 8) (v := k) h rfl rfl, fld_at 0 (lo := 0) (v := w) h rfl rfl]; rfl
  rw [decode, fldN_at 7 (lo := 26) (n := 6) h rfl rfl, k]; rfl

theorem RoundTrip.vredMin (d a k w) : RoundTrip.Statement (.vredMin d a k w) := by
  intro _
  have f : fits [(2, w.toNat), (1, 0), (5, 5), (3, k.toNat), (5, 0), (5, a.toNat), (5, d.toNat), (6, 36)] := ⟨w.isLt, by decide, by decide, k.isLt, by decide, a.isLt, d.isLt, by decide, trivial⟩
  have h := And.intro (toNat_encode (i := .vredMin d a k w) (show 0x90000028 + d.toNat * 0x200000 + a.toNat * 0x10000 + k.toNat * 0x100 + w.toNat * 0x1 = _ by simp only [pack]; omega) f rfl) f
  generalize encode (.vredMin d a k w) = iw at h ⊢
  have k : decode24 iw = .ok (.vredMin d a k w) := by
    rw [decode24, fldN_at 2 (lo := 3) (n := 5) h rfl rfl, z_at 1 (lo := 2) (n := 1) h rfl rfl, z_at 4 (lo := 11) (n := 5) h rfl rfl, fld_at 6 (lo := 21) (v := d) h rfl rfl, fld_at 5 (lo := 16) (v := a) h rfl rfl, fld_at 3 (lo := 8) (v := k) h rfl rfl, fld_at 0 (lo := 0) (v := w) h rfl rfl]; rfl
  rw [decode, fldN_at 7 (lo := 26) (n := 6) h rfl rfl, k]; rfl

theorem RoundTrip.vredMax (d a k w) : RoundTrip.Statement (.vredMax d a k w) := by
  intro _
  have f : fits [(2, w.toNat), (1, 0), (5, 6), (3, k.toNat), (5, 0), (5, a.toNat), (5, d.toNat), (6, 36)] := ⟨w.isLt, by decide, by decide, k.isLt, by decide, a.isLt, d.isLt, by decide, trivial⟩
  have h := And.intro (toNat_encode (i := .vredMax d a k w) (show 0x90000030 + d.toNat * 0x200000 + a.toNat * 0x10000 + k.toNat * 0x100 + w.toNat * 0x1 = _ by simp only [pack]; omega) f rfl) f
  generalize encode (.vredMax d a k w) = iw at h ⊢
  have k : decode24 iw = .ok (.vredMax d a k w) := by
    rw [decode24, fldN_at 2 (lo := 3) (n := 5) h rfl rfl, z_at 1 (lo := 2) (n := 1) h rfl rfl, z_at 4 (lo := 11) (n := 5) h rfl rfl, fld_at 6 (lo := 21) (v := d) h rfl rfl, fld_at 5 (lo := 16) (v := a) h rfl rfl, fld_at 3 (lo := 8) (v := k) h rfl rfl, fld_at 0 (lo := 0) (v := w) h rfl rfl]; rfl
  rw [decode, fldN_at 7 (lo := 26) (n := 6) h rfl rfl, k]; rfl

theorem RoundTrip.vredEw (d a b k w) : RoundTrip.Statement (.vredEw d a b k w) := by
  intro hc
  have f : fits [(3, w.toNat), (5, 7), (3, k.toNat), (5, b.toNat), (5, a.toNat), (5, d.toNat), (6, 36)] := ⟨w.isLt, by decide, k.isLt, b.isLt, a.isLt, d.isLt, by decide, trivial⟩
  have h := And.intro (toNat_encode (i := .vredEw d a b k w) (show 0x90000038 + d.toNat * 0x200000 + a.toNat * 0x10000 + b.toNat * 0x800 + k.toNat * 0x100 + w.toNat * 0x1 = _ by simp only [pack]; omega) f rfl) f
  generalize encode (.vredEw d a b k w) = iw at h ⊢
  have hc : (decide (w.toNat < 4) || w == 7) = true := hc
  have k : decode24 iw = .ok (.vredEw d a b k w) := by
    rw [decode24, fldN_at 1 (lo := 3) (n := 5) h rfl rfl, fld_at 0 (lo := 0) (v := w) h rfl rfl, fld_at 5 (lo := 21) (v := d) h rfl rfl, fld_at 4 (lo := 16) (v := a) h rfl rfl, fld_at 3 (lo := 11) (v := b) h rfl rfl, fld_at 2 (lo := 8) (v := k) h rfl rfl, hc]; rfl
  rw [decode, fldN_at 6 (lo := 26) (n := 6) h rfl rfl, k]; rfl

theorem RoundTrip.mand (d a b) : RoundTrip.Statement (.mand d a b) := by
  intro _
  have f : fits [(3, 0), (5, 8), (3, 0), (3, b.toNat), (2, 0), (3, a.toNat), (2, 0), (3, d.toNat), (2, 0), (6, 36)] := ⟨by decide, by decide, by decide, b.isLt, by decide, a.isLt, by decide, d.isLt, by decide, by decide, trivial⟩
  have h := And.intro (toNat_encode (i := .mand d a b) (show 0x90000040 + d.toNat * 0x200000 + a.toNat * 0x10000 + b.toNat * 0x800 = _ by simp only [pack]; omega) f rfl) f
  generalize encode (.mand d a b) = iw at h ⊢
  have k : decode24 iw = .ok (.mand d a b) := by
    rw [decode24, fldN_at 1 (lo := 3) (n := 5) h rfl rfl, z_at 0 (lo := 0) (n := 3) h rfl rfl, z_at 2 (lo := 8) (n := 3) h rfl rfl, z_at 4 (lo := 14) (n := 2) h rfl rfl, z_at 6 (lo := 19) (n := 2) h rfl rfl, z_at 8 (lo := 24) (n := 2) h rfl rfl, fld_at 7 (lo := 21) (v := d) h rfl rfl, fld_at 5 (lo := 16) (v := a) h rfl rfl, fld_at 3 (lo := 11) (v := b) h rfl rfl]; rfl
  rw [decode, fldN_at 9 (lo := 26) (n := 6) h rfl rfl, k]; rfl

theorem RoundTrip.mor (d a b) : RoundTrip.Statement (.mor d a b) := by
  intro _
  have f : fits [(3, 0), (5, 9), (3, 0), (3, b.toNat), (2, 0), (3, a.toNat), (2, 0), (3, d.toNat), (2, 0), (6, 36)] := ⟨by decide, by decide, by decide, b.isLt, by decide, a.isLt, by decide, d.isLt, by decide, by decide, trivial⟩
  have h := And.intro (toNat_encode (i := .mor d a b) (show 0x90000048 + d.toNat * 0x200000 + a.toNat * 0x10000 + b.toNat * 0x800 = _ by simp only [pack]; omega) f rfl) f
  generalize encode (.mor d a b) = iw at h ⊢
  have k : decode24 iw = .ok (.mor d a b) := by
    rw [decode24, fldN_at 1 (lo := 3) (n := 5) h rfl rfl, z_at 0 (lo := 0) (n := 3) h rfl rfl, z_at 2 (lo := 8) (n := 3) h rfl rfl, z_at 4 (lo := 14) (n := 2) h rfl rfl, z_at 6 (lo := 19) (n := 2) h rfl rfl, z_at 8 (lo := 24) (n := 2) h rfl rfl, fld_at 7 (lo := 21) (v := d) h rfl rfl, fld_at 5 (lo := 16) (v := a) h rfl rfl, fld_at 3 (lo := 11) (v := b) h rfl rfl]; rfl
  rw [decode, fldN_at 9 (lo := 26) (n := 6) h rfl rfl, k]; rfl

theorem RoundTrip.mxor (d a b) : RoundTrip.Statement (.mxor d a b) := by
  intro _
  have f : fits [(3, 0), (5, 10), (3, 0), (3, b.toNat), (2, 0), (3, a.toNat), (2, 0), (3, d.toNat), (2, 0), (6, 36)] := ⟨by decide, by decide, by decide, b.isLt, by decide, a.isLt, by decide, d.isLt, by decide, by decide, trivial⟩
  have h := And.intro (toNat_encode (i := .mxor d a b) (show 0x90000050 + d.toNat * 0x200000 + a.toNat * 0x10000 + b.toNat * 0x800 = _ by simp only [pack]; omega) f rfl) f
  generalize encode (.mxor d a b) = iw at h ⊢
  have k : decode24 iw = .ok (.mxor d a b) := by
    rw [decode24, fldN_at 1 (lo := 3) (n := 5) h rfl rfl, z_at 0 (lo := 0) (n := 3) h rfl rfl, z_at 2 (lo := 8) (n := 3) h rfl rfl, z_at 4 (lo := 14) (n := 2) h rfl rfl, z_at 6 (lo := 19) (n := 2) h rfl rfl, z_at 8 (lo := 24) (n := 2) h rfl rfl, fld_at 7 (lo := 21) (v := d) h rfl rfl, fld_at 5 (lo := 16) (v := a) h rfl rfl, fld_at 3 (lo := 11) (v := b) h rfl rfl]; rfl
  rw [decode, fldN_at 9 (lo := 26) (n := 6) h rfl rfl, k]; rfl

theorem RoundTrip.mnot (d a) : RoundTrip.Statement (.mnot d a) := by
  intro _
  have f : fits [(3, 0), (5, 11), (8, 0), (3, a.toNat), (2, 0), (3, d.toNat), (2, 0), (6, 36)] := ⟨by decide, by decide, by decide, a.isLt, by decide, d.isLt, by decide, by decide, trivial⟩
  have h := And.intro (toNat_encode (i := .mnot d a) (show 0x90000058 + d.toNat * 0x200000 + a.toNat * 0x10000 = _ by simp only [pack]; omega) f rfl) f
  generalize encode (.mnot d a) = iw at h ⊢
  have k : decode24 iw = .ok (.mnot d a) := by
    rw [decode24, fldN_at 1 (lo := 3) (n := 5) h rfl rfl, z_at 0 (lo := 0) (n := 3) h rfl rfl, z_at 2 (lo := 8) (n := 8) h rfl rfl, z_at 4 (lo := 19) (n := 2) h rfl rfl, z_at 6 (lo := 24) (n := 2) h rfl rfl, fld_at 5 (lo := 21) (v := d) h rfl rfl, fld_at 3 (lo := 16) (v := a) h rfl rfl]; rfl
  rw [decode, fldN_at 7 (lo := 26) (n := 6) h rfl rfl, k]; rfl

theorem RoundTrip.msetn (d a) : RoundTrip.Statement (.msetn d a) := by
  intro _
  have f : fits [(3, 0), (5, 12), (8, 0), (5, a.toNat), (3, d.toNat), (2, 0), (6, 36)] := ⟨by decide, by decide, by decide, a.isLt, d.isLt, by decide, by decide, trivial⟩
  have h := And.intro (toNat_encode (i := .msetn d a) (show 0x90000060 + d.toNat * 0x200000 + a.toNat * 0x10000 = _ by simp only [pack]; omega) f rfl) f
  generalize encode (.msetn d a) = iw at h ⊢
  have k : decode24 iw = .ok (.msetn d a) := by
    rw [decode24, fldN_at 1 (lo := 3) (n := 5) h rfl rfl, z_at 0 (lo := 0) (n := 3) h rfl rfl, z_at 2 (lo := 8) (n := 8) h rfl rfl, z_at 5 (lo := 24) (n := 2) h rfl rfl, fld_at 4 (lo := 21) (v := d) h rfl rfl, fld_at 3 (lo := 16) (v := a) h rfl rfl]; rfl
  rw [decode, fldN_at 6 (lo := 26) (n := 6) h rfl rfl, k]; rfl

theorem RoundTrip.mpop (d a) : RoundTrip.Statement (.mpop d a) := by
  intro _
  have f : fits [(3, 0), (5, 13), (8, 0), (3, a.toNat), (2, 0), (5, d.toNat), (6, 36)] := ⟨by decide, by decide, by decide, a.isLt, by decide, d.isLt, by decide, trivial⟩
  have h := And.intro (toNat_encode (i := .mpop d a) (show 0x90000068 + d.toNat * 0x200000 + a.toNat * 0x10000 = _ by simp only [pack]; omega) f rfl) f
  generalize encode (.mpop d a) = iw at h ⊢
  have k : decode24 iw = .ok (.mpop d a) := by
    rw [decode24, fldN_at 1 (lo := 3) (n := 5) h rfl rfl, z_at 0 (lo := 0) (n := 3) h rfl rfl, z_at 2 (lo := 8) (n := 8) h rfl rfl, z_at 4 (lo := 19) (n := 2) h rfl rfl, fld_at 5 (lo := 21) (v := d) h rfl rfl, fld_at 3 (lo := 16) (v := a) h rfl rfl]; rfl
  rw [decode, fldN_at 6 (lo := 26) (n := 6) h rfl rfl, k]; rfl

theorem RoundTrip.mfirst (d a) : RoundTrip.Statement (.mfirst d a) := by
  intro _
  have f : fits [(3, 0), (5, 14), (8, 0), (3, a.toNat), (2, 0), (5, d.toNat), (6, 36)] := ⟨by decide, by decide, by decide, a.isLt, by decide, d.isLt, by decide, trivial⟩
  have h := And.intro (toNat_encode (i := .mfirst d a) (show 0x90000070 + d.toNat * 0x200000 + a.toNat * 0x10000 = _ by simp only [pack]; omega) f rfl) f
  generalize encode (.mfirst d a) = iw at h ⊢
  have k : decode24 iw = .ok (.mfirst d a) := by
    rw [decode24, fldN_at 1 (lo := 3) (n := 5) h rfl rfl, z_at 0 (lo := 0) (n := 3) h rfl rfl, z_at 2 (lo := 8) (n := 8) h rfl rfl, z_at 4 (lo := 19) (n := 2) h rfl rfl, fld_at 5 (lo := 21) (v := d) h rfl rfl, fld_at 3 (lo := 16) (v := a) h rfl rfl]; rfl
  rw [decode, fldN_at 6 (lo := 26) (n := 6) h rfl rfl, k]; rfl

theorem RoundTrip.tld (t b s n) : RoundTrip.Statement (.tld t b s n) := by
  intro _
  have f : fits [(2, 0), (2, 0), (4, n.toNat), (6, s.toNat), (6, b.toNat), (3, 0), (3, t.toNat), (6, 38)] := ⟨by decide, by decide, n.isLt, s.isLt, b.isLt, by decide, t.isLt, by decide, trivial⟩
  have h := And.intro (toNat_encode (i := .tld t b s n) (show 0x98000000 + t.toNat * 0x800000 + b.toNat * 0x4000 + s.toNat * 0x100 + n.toNat * 0x10 = _ by simp only [pack]; omega) f rfl) f
  generalize encode (.tld t b s n) = iw at h ⊢
  have k : decode26 iw = .ok (.tld t b s n) := by
    rw [decode26, fldN_at 0 (lo := 0) (n := 2) h rfl rfl, z_at 1 (lo := 2) (n := 2) h rfl rfl, z_at 5 (lo := 20) (n := 3) h rfl rfl, fld_at 6 (lo := 23) (v := t) h rfl rfl, fld_at 4 (lo := 14) (v := b) h rfl rfl, fld_at 3 (lo := 8) (v := s) h rfl rfl, fld_at 2 (lo := 4) (v := n) h rfl rfl]; rfl
  rw [decode, fldN_at 7 (lo := 26) (n := 6) h rfl rfl, k]; rfl

theorem RoundTrip.tst (t b s n) : RoundTrip.Statement (.tst t b s n) := by
  intro _
  have f : fits [(2, 1), (2, 0), (4, n.toNat), (6, s.toNat), (6, b.toNat), (3, 0), (3, t.toNat), (6, 38)] := ⟨by decide, by decide, n.isLt, s.isLt, b.isLt, by decide, t.isLt, by decide, trivial⟩
  have h := And.intro (toNat_encode (i := .tst t b s n) (show 0x98000001 + t.toNat * 0x800000 + b.toNat * 0x4000 + s.toNat * 0x100 + n.toNat * 0x10 = _ by simp only [pack]; omega) f rfl) f
  generalize encode (.tst t b s n) = iw at h ⊢
  have k : decode26 iw = .ok (.tst t b s n) := by
    rw [decode26, fldN_at 0 (lo := 0) (n := 2) h rfl rfl, z_at 1 (lo := 2) (n := 2) h rfl rfl, z_at 5 (lo := 20) (n := 3) h rfl rfl, fld_at 6 (lo := 23) (v := t) h rfl rfl, fld_at 4 (lo := 14) (v := b) h rfl rfl, fld_at 3 (lo := 8) (v := s) h rfl rfl, fld_at 2 (lo := 4) (v := n) h rfl rfl]; rfl
  rw [decode, fldN_at 7 (lo := 26) (n := 6) h rfl rfl, k]; rfl

theorem RoundTrip.acld (x y b s n) : RoundTrip.Statement (.acld x y b s n) := by
  intro hc
  have f : fits [(2, 2), (2, 0), (4, n.toNat), (6, s.toNat), (6, b.toNat), (3, y.toNat), (3, x.toNat), (6, 38)] := ⟨by decide, by decide, n.isLt, s.isLt, b.isLt, y.isLt, x.isLt, by decide, trivial⟩
  have h := And.intro (toNat_encode (i := .acld x y b s n) (show 0x98000002 + x.toNat * 0x800000 + y.toNat * 0x100000 + b.toNat * 0x4000 + s.toNat * 0x100 + n.toNat * 0x10 = _ by simp only [pack]; omega) f rfl) f
  generalize encode (.acld x y b s n) = iw at h ⊢
  have hc : (decide (x.toNat < 4) && decide (y.toNat < 4)) = true := hc
  have k : decode26 iw = .ok (.acld x y b s n) := by
    rw [decode26, fldN_at 0 (lo := 0) (n := 2) h rfl rfl, z_at 1 (lo := 2) (n := 2) h rfl rfl, fld_at 6 (lo := 23) (v := x) h rfl rfl, fld_at 5 (lo := 20) (v := y) h rfl rfl, fld_at 4 (lo := 14) (v := b) h rfl rfl, fld_at 3 (lo := 8) (v := s) h rfl rfl, fld_at 2 (lo := 4) (v := n) h rfl rfl, hc]; rfl
  rw [decode, fldN_at 7 (lo := 26) (n := 6) h rfl rfl, k]; rfl

theorem RoundTrip.acst (x y b s n) : RoundTrip.Statement (.acst x y b s n) := by
  intro hc
  have f : fits [(2, 3), (2, 0), (4, n.toNat), (6, s.toNat), (6, b.toNat), (3, y.toNat), (3, x.toNat), (6, 38)] := ⟨by decide, by decide, n.isLt, s.isLt, b.isLt, y.isLt, x.isLt, by decide, trivial⟩
  have h := And.intro (toNat_encode (i := .acst x y b s n) (show 0x98000003 + x.toNat * 0x800000 + y.toNat * 0x100000 + b.toNat * 0x4000 + s.toNat * 0x100 + n.toNat * 0x10 = _ by simp only [pack]; omega) f rfl) f
  generalize encode (.acst x y b s n) = iw at h ⊢
  have hc : (decide (x.toNat < 4) && decide (y.toNat < 4)) = true := hc
  have k : decode26 iw = .ok (.acst x y b s n) := by
    rw [decode26, fldN_at 0 (lo := 0) (n := 2) h rfl rfl, z_at 1 (lo := 2) (n := 2) h rfl rfl, fld_at 6 (lo := 23) (v := x) h rfl rfl, fld_at 5 (lo := 20) (v := y) h rfl rfl, fld_at 4 (lo := 14) (v := b) h rfl rfl, fld_at 3 (lo := 8) (v := s) h rfl rfl, fld_at 2 (lo := 4) (v := n) h rfl rfl, hc]; rfl
  rw [decode, fldN_at 7 (lo := 26) (n := 6) h rfl rfl, k]; rfl

theorem RoundTrip.tmma (a b x y) : RoundTrip.Statement (.tmma a b x y) := by
  intro hc
  have f : fits [(8, 0), (3, 0), (3, y.toNat), (3, x.toNat), (3, b.toNat), (3, a.toNat), (3, 0), (6, 39)] := ⟨by decide, by decide, y.isLt, x.isLt, b.isLt, a.isLt, by decide, by decide, trivial⟩
  have h := And.intro (toNat_encode (i := .tmma a b x y) (show 0x9C000000 + a.toNat * 0x100000 + b.toNat * 0x20000 + x.toNat * 0x4000 + y.toNat * 0x800 = _ by simp only [pack]; omega) f rfl) f
  generalize encode (.tmma a b x y) = iw at h ⊢
  have hc : (decide (x.toNat < 4) && decide (y.toNat < 4)) = true := hc
  have k : decode27 iw = .ok (.tmma a b x y) := by
    rw [decode27, fldN_at 0 (lo := 0) (n := 8) h rfl rfl, z_at 1 (lo := 8) (n := 3) h rfl rfl, z_at 6 (lo := 23) (n := 3) h rfl rfl, fld_at 3 (lo := 14) (v := x) h rfl rfl, fld_at 2 (lo := 11) (v := y) h rfl rfl, fld_at 5 (lo := 20) (v := a) h rfl rfl, fld_at 4 (lo := 17) (v := b) h rfl rfl, hc]; rfl
  rw [decode, fldN_at 7 (lo := 26) (n := 6) h rfl rfl, k]; rfl

theorem RoundTrip.tzero (t) : RoundTrip.Statement (.tzero t) := by
  intro _
  have f : fits [(8, 1), (15, 0), (3, t.toNat), (6, 39)] := ⟨by decide, by decide, t.isLt, by decide, trivial⟩
  have h := And.intro (toNat_encode (i := .tzero t) (show 0x9C000001 + t.toNat * 0x800000 = _ by simp only [pack]; omega) f rfl) f
  generalize encode (.tzero t) = iw at h ⊢
  have k : decode27 iw = .ok (.tzero t) := by
    rw [decode27, fldN_at 0 (lo := 0) (n := 8) h rfl rfl, z_at 1 (lo := 8) (n := 15) h rfl rfl, fld_at 2 (lo := 23) (v := t) h rfl rfl]; rfl
  rw [decode, fldN_at 3 (lo := 26) (n := 6) h rfl rfl, k]; rfl

theorem RoundTrip.aczero (x y) : RoundTrip.Statement (.aczero x y) := by
  intro hc
  have f : fits [(8, 2), (3, 0), (3, y.toNat), (3, x.toNat), (9, 0), (6, 39)] := ⟨by decide, by decide, y.isLt, x.isLt, by decide, by decide, trivial⟩
  have h := And.intro (toNat_encode (i := .aczero x y) (show 0x9C000002 + x.toNat * 0x4000 + y.toNat * 0x800 = _ by simp only [pack]; omega) f rfl) f
  generalize encode (.aczero x y) = iw at h ⊢
  have hc : (decide (x.toNat < 4) && decide (y.toNat < 4)) = true := hc
  have k : decode27 iw = .ok (.aczero x y) := by
    rw [decode27, fldN_at 0 (lo := 0) (n := 8) h rfl rfl, z_at 1 (lo := 8) (n := 3) h rfl rfl, z_at 4 (lo := 17) (n := 9) h rfl rfl, fld_at 3 (lo := 14) (v := x) h rfl rfl, fld_at 2 (lo := 11) (v := y) h rfl rfl, hc]; rfl
  rw [decode, fldN_at 5 (lo := 26) (n := 6) h rfl rfl, k]; rfl

theorem RoundTrip.acmov (r c x y) : RoundTrip.Statement (.acmov r c x y) := by
  intro hc
  have f : fits [(8, 3), (3, 0), (3, y.toNat), (3, x.toNat), (3, 0), (3, c.toNat), (3, r.toNat), (6, 39)] := ⟨by decide, by decide, y.isLt, x.isLt, by decide, c.isLt, r.isLt, by decide, trivial⟩
  have h := And.intro (toNat_encode (i := .acmov r c x y) (show 0x9C000003 + r.toNat * 0x800000 + c.toNat * 0x100000 + x.toNat * 0x4000 + y.toNat * 0x800 = _ by simp only [pack]; omega) f rfl) f
  generalize encode (.acmov r c x y) = iw at h ⊢
  have hc : (decide (r.toNat < 4) && decide (c.toNat < 4) && decide (x.toNat < 4) && decide (y.toNat < 4)) = true := hc
  have k : decode27 iw = .ok (.acmov r c x y) := by
    rw [decode27, fldN_at 0 (lo := 0) (n := 8) h rfl rfl, z_at 1 (lo := 8) (n := 3) h rfl rfl, z_at 4 (lo := 17) (n := 3) h rfl rfl, fld_at 6 (lo := 23) (v := r) h rfl rfl, fld_at 5 (lo := 20) (v := c) h rfl rfl, fld_at 3 (lo := 14) (v := x) h rfl rfl, fld_at 2 (lo := 11) (v := y) h rfl rfl, hc]; rfl
  rw [decode, fldN_at 7 (lo := 26) (n := 6) h rfl rfl, k]; rfl

theorem RoundTrip.tgemm (d a b) : RoundTrip.Statement (.tgemm d a b) := by
  intro _
  have f : fits [(8, 16), (6, b.toNat), (6, a.toNat), (6, d.toNat), (6, 39)] := ⟨by decide, b.isLt, a.isLt, d.isLt, by decide, trivial⟩
  have h := And.intro (toNat_encode (i := .tgemm d a b) (show 0x9C000010 + d.toNat * 0x100000 + a.toNat * 0x4000 + b.toNat * 0x100 = _ by simp only [pack]; omega) f rfl) f
  generalize encode (.tgemm d a b) = iw at h ⊢
  have k : decode27 iw = .ok (.tgemm d a b) := by
    rw [decode27, fldN_at 0 (lo := 0) (n := 8) h rfl rfl, fld_at 3 (lo := 20) (v := d) h rfl rfl, fld_at 2 (lo := 14) (v := a) h rfl rfl, fld_at 1 (lo := 8) (v := b) h rfl rfl]; rfl
  rw [decode, fldN_at 4 (lo := 26) (n := 6) h rfl rfl, k]; rfl

theorem RoundTrip.tgemmG (d a b) : RoundTrip.Statement (.tgemmG d a b) := by
  intro _
  have f : fits [(8, 17), (6, b.toNat), (6, a.toNat), (6, d.toNat), (6, 39)] := ⟨by decide, b.isLt, a.isLt, d.isLt, by decide, trivial⟩
  have h := And.intro (toNat_encode (i := .tgemmG d a b) (show 0x9C000011 + d.toNat * 0x100000 + a.toNat * 0x4000 + b.toNat * 0x100 = _ by simp only [pack]; omega) f rfl) f
  generalize encode (.tgemmG d a b) = iw at h ⊢
  have k : decode27 iw = .ok (.tgemmG d a b) := by
    rw [decode27, fldN_at 0 (lo := 0) (n := 8) h rfl rfl, fld_at 3 (lo := 20) (v := d) h rfl rfl, fld_at 2 (lo := 14) (v := a) h rfl rfl, fld_at 1 (lo := 8) (v := b) h rfl rfl]; rfl
  rw [decode, fldN_at 4 (lo := 26) (n := 6) h rfl rfl, k]; rfl

theorem RoundTrip.tbind (d a) : RoundTrip.Statement (.tbind d a) := by
  intro _
  have f : fits [(8, 0), (6, 0), (6, a.toNat), (6, d.toNat), (6, 40)] := ⟨by decide, by decide, a.isLt, d.isLt, by decide, trivial⟩
  have h := And.intro (toNat_encode (i := .tbind d a) (show 0xA0000000 + d.toNat * 0x100000 + a.toNat * 0x4000 = _ by simp only [pack]; omega) f rfl) f
  generalize encode (.tbind d a) = iw at h ⊢
  have k : decode28 iw = .ok (.tbind d a) := by
    rw [decode28, fldN_at 1 (lo := 8) (n := 6) h rfl rfl, z_at 0 (lo := 0) (n := 8) h rfl rfl, fld_at 3 (lo := 20) (v := d) h rfl rfl, fld_at 2 (lo := 14) (v := a) h rfl rfl]; rfl
  rw [decode, fldN_at 4 (lo := 26) (n := 6) h rfl rfl, k]; rfl

theorem RoundTrip.tunbind (d) : RoundTrip.Statement (.tunbind d) := by
  intro _
  have f : fits [(8, 0), (6, 1), (6, 0), (6, d.toNat), (6, 40)] := ⟨by decide, by decide, by decide, d.isLt, by decide, trivial⟩
  have h := And.intro (toNat_encode (i := .tunbind d) (show 0xA0000100 + d.toNat * 0x100000 = _ by simp only [pack]; omega) f rfl) f
  generalize encode (.tunbind d) = iw at h ⊢
  have k : decode28 iw = .ok (.tunbind d) := by
    rw [decode28, fldN_at 1 (lo := 8) (n := 6) h rfl rfl, z_at 0 (lo := 0) (n := 8) h rfl rfl, z_at 2 (lo := 14) (n := 6) h rfl rfl, fld_at 3 (lo := 20) (v := d) h rfl rfl]; rfl
  rw [decode, fldN_at 4 (lo := 26) (n := 6) h rfl rfl, k]; rfl

theorem RoundTrip.tstat (d) : RoundTrip.Statement (.tstat d) := by
  intro _
  have f : fits [(8, 0), (6, 2), (6, 0), (6, d.toNat), (6, 40)] := ⟨by decide, by decide, by decide, d.isLt, by decide, trivial⟩
  have h := And.intro (toNat_encode (i := .tstat d) (show 0xA0000200 + d.toNat * 0x100000 = _ by simp only [pack]; omega) f rfl) f
  generalize encode (.tstat d) = iw at h ⊢
  have k : decode28 iw = .ok (.tstat d) := by
    rw [decode28, fldN_at 1 (lo := 8) (n := 6) h rfl rfl, z_at 0 (lo := 0) (n := 8) h rfl rfl, z_at 2 (lo := 14) (n := 6) h rfl rfl, fld_at 3 (lo := 20) (v := d) h rfl rfl]; rfl
  rw [decode, fldN_at 4 (lo := 26) (n := 6) h rfl rfl, k]; rfl

theorem RoundTrip.gang (n) : RoundTrip.Statement (.gang n) := by
  intro _
  have f : fits [(3, n.toNat), (5, 0), (6, 0), (12, 0), (6, 41)] := ⟨n.isLt, by decide, by decide, by decide, by decide, trivial⟩
  have h := And.intro (toNat_encode (i := .gang n) (show 0xA4000000 + n.toNat * 0x1 = _ by simp only [pack]; omega) f rfl) f
  generalize encode (.gang n) = iw at h ⊢
  have k : decode29 iw = .ok (.gang n) := by
    rw [decode29, fldN_at 2 (lo := 8) (n := 6) h rfl rfl, z_at 1 (lo := 3) (n := 5) h rfl rfl, z_at 3 (lo := 14) (n := 12) h rfl rfl, fld_at 0 (lo := 0) (v := n) h rfl rfl]; rfl
  rw [decode, fldN_at 4 (lo := 26) (n := 6) h rfl rfl, k]; rfl

theorem RoundTrip.send (d a b) : RoundTrip.Statement (.send d a b) := by
  intro _
  have f : fits [(8, 0), (6, b.toNat), (6, a.toNat), (6, d.toNat), (6, 42)] := ⟨by decide, b.isLt, a.isLt, d.isLt, by decide, trivial⟩
  have h := And.intro (toNat_encode (i := .send d a b) (show 0xA8000000 + d.toNat * 0x100000 + a.toNat * 0x4000 + b.toNat * 0x100 = _ by simp only [pack]; omega) f rfl) f
  generalize encode (.send d a b) = iw at h ⊢
  have k : decode2A iw = .ok (.send d a b) := by
    rw [decode2A, fldN_at 0 (lo := 0) (n := 8) h rfl rfl, fld_at 3 (lo := 20) (v := d) h rfl rfl, fld_at 2 (lo := 14) (v := a) h rfl rfl, fld_at 1 (lo := 8) (v := b) h rfl rfl]; rfl
  rw [decode, fldN_at 4 (lo := 26) (n := 6) h rfl rfl, k]; rfl

theorem RoundTrip.sendh (d a b) : RoundTrip.Statement (.sendh d a b) := by
  intro hc
  have f : fits [(8, 1), (5, b.toNat), (1, 0), (6, a.toNat), (6, d.toNat), (6, 42)] := ⟨by decide, b.isLt, by decide, a.isLt, d.isLt, by decide, trivial⟩
  have h := And.intro (toNat_encode (i := .sendh d a b) (show 0xA8000001 + d.toNat * 0x100000 + a.toNat * 0x4000 + b.toNat * 0x100 = _ by simp only [pack]; omega) f rfl) f
  generalize encode (.sendh d a b) = iw at h ⊢
  have hc : (b != 31) = true := hc
  have k : decode2A iw = .ok (.sendh d a b) := by
    rw [decode2A, fldN_at 0 (lo := 0) (n := 8) h rfl rfl, z_at 2 (lo := 13) (n := 1) h rfl rfl, fld_at 1 (lo := 8) (v := b) h rfl rfl, fld_at 4 (lo := 20) (v := d) h rfl rfl, fld_at 3 (lo := 14) (v := a) h rfl rfl, hc]; rfl
  rw [decode, fldN_at 5 (lo := 26) (n := 6) h rfl rfl, k]; rfl

theorem RoundTrip.sendr (d a b) : RoundTrip.Statement (.sendr d a b) := by
  intro hc
  have f : fits [(8, 2), (5, b.toNat), (1, 0), (6, a.toNat), (6, d.toNat), (6, 42)] := ⟨by decide, b.isLt, by decide, a.isLt, d.isLt, by decide, trivial⟩
  have h := And.intro (toNat_encode (i := .sendr d a b) (show 0xA8000002 + d.toNat * 0x100000 + a.toNat * 0x4000 + b.toNat * 0x100 = _ by simp only [pack]; omega) f rfl) f
  generalize encode (.sendr d a b) = iw at h ⊢
  have hc : (b != 31) = true := hc
  have k : decode2A iw = .ok (.sendr d a b) := by
    rw [decode2A, fldN_at 0 (lo := 0) (n := 8) h rfl rfl, z_at 2 (lo := 13) (n := 1) h rfl rfl, fld_at 1 (lo := 8) (v := b) h rfl rfl, fld_at 4 (lo := 20) (v := d) h rfl rfl, fld_at 3 (lo := 14) (v := a) h rfl rfl, hc]; rfl
  rw [decode, fldN_at 5 (lo := 26) (n := 6) h rfl rfl, k]; rfl

theorem RoundTrip.waita (d a) : RoundTrip.Statement (.waita d a) := by
  intro _
  have f : fits [(8, 0), (6, 0), (6, a.toNat), (6, d.toNat), (6, 43)] := ⟨by decide, by decide, a.isLt, d.isLt, by decide, trivial⟩
  have h := And.intro (toNat_encode (i := .waita d a) (show 0xAC000000 + d.toNat * 0x100000 + a.toNat * 0x4000 = _ by simp only [pack]; omega) f rfl) f
  generalize encode (.waita d a) = iw at h ⊢
  have k : decode2B iw = .ok (.waita d a) := by
    rw [decode2B, fldN_at 1 (lo := 8) (n := 6) h rfl rfl, z_at 0 (lo := 0) (n := 8) h rfl rfl, fld_at 3 (lo := 20) (v := d) h rfl rfl, fld_at 2 (lo := 14) (v := a) h rfl rfl]; rfl
  rw [decode, fldN_at 4 (lo := 26) (n := 6) h rfl rfl, k]; rfl

theorem RoundTrip.waitl (d a) : RoundTrip.Statement (.waitl d a) := by
  intro _
  have f : fits [(8, 0), (6, 1), (6, a.toNat), (6, d.toNat), (6, 43)] := ⟨by decide, by decide, a.isLt, d.isLt, by decide, trivial⟩
  have h := And.intro (toNat_encode (i := .waitl d a) (show 0xAC000100 + d.toNat * 0x100000 + a.toNat * 0x4000 = _ by simp only [pack]; omega) f rfl) f
  generalize encode (.waitl d a) = iw at h ⊢
  have k : decode2B iw = .ok (.waitl d a) := by
    rw [decode2B, fldN_at 1 (lo := 8) (n := 6) h rfl rfl, z_at 0 (lo := 0) (n := 8) h rfl rfl, fld_at 3 (lo := 20) (v := d) h rfl rfl, fld_at 2 (lo := 14) (v := a) h rfl rfl]; rfl
  rw [decode, fldN_at 4 (lo := 26) (n := 6) h rfl rfl, k]; rfl

theorem RoundTrip.ffr (d a) : RoundTrip.Statement (.ffr d a) := by
  intro _
  have f : fits [(8, 0), (6, 2), (6, a.toNat), (6, d.toNat), (6, 43)] := ⟨by decide, by decide, a.isLt, d.isLt, by decide, trivial⟩
  have h := And.intro (toNat_encode (i := .ffr d a) (show 0xAC000200 + d.toNat * 0x100000 + a.toNat * 0x4000 = _ by simp only [pack]; omega) f rfl) f
  generalize encode (.ffr d a) = iw at h ⊢
  have k : decode2B iw = .ok (.ffr d a) := by
    rw [decode2B, fldN_at 1 (lo := 8) (n := 6) h rfl rfl, z_at 0 (lo := 0) (n := 8) h rfl rfl, fld_at 3 (lo := 20) (v := d) h rfl rfl, fld_at 2 (lo := 14) (v := a) h rfl rfl]; rfl
  rw [decode, fldN_at 4 (lo := 26) (n := 6) h rfl rfl, k]; rfl

theorem RoundTrip.tclr (a) : RoundTrip.Statement (.tclr a) := by
  intro _
  have f : fits [(8, 0), (6, 3), (6, a.toNat), (6, 0), (6, 43)] := ⟨by decide, by decide, a.isLt, by decide, by decide, trivial⟩
  have h := And.intro (toNat_encode (i := .tclr a) (show 0xAC000300 + a.toNat * 0x4000 = _ by simp only [pack]; omega) f rfl) f
  generalize encode (.tclr a) = iw at h ⊢
  have k : decode2B iw = .ok (.tclr a) := by
    rw [decode2B, fldN_at 1 (lo := 8) (n := 6) h rfl rfl, z_at 0 (lo := 0) (n := 8) h rfl rfl, z_at 3 (lo := 20) (n := 6) h rfl rfl, fld_at 2 (lo := 14) (v := a) h rfl rfl]; rfl
  rw [decode, fldN_at 4 (lo := 26) (n := 6) h rfl rfl, k]; rfl

theorem RoundTrip.waitc (a) : RoundTrip.Statement (.waitc a) := by
  intro _
  have f : fits [(8, 0), (6, 4), (6, a.toNat), (6, 0), (6, 43)] := ⟨by decide, by decide, a.isLt, by decide, by decide, trivial⟩
  have h := And.intro (toNat_encode (i := .waitc a) (show 0xAC000400 + a.toNat * 0x4000 = _ by simp only [pack]; omega) f rfl) f
  generalize encode (.waitc a) = iw at h ⊢
  have k : decode2B iw = .ok (.waitc a) := by
    rw [decode2B, fldN_at 1 (lo := 8) (n := 6) h rfl rfl, z_at 0 (lo := 0) (n := 8) h rfl rfl, z_at 3 (lo := 20) (n := 6) h rfl rfl, fld_at 2 (lo := 14) (v := a) h rfl rfl]; rfl
  rw [decode, fldN_at 4 (lo := 26) (n := 6) h rfl rfl, k]; rfl

theorem RoundTrip.waitr (d) : RoundTrip.Statement (.waitr d) := by
  intro _
  have f : fits [(8, 0), (6, 5), (6, 0), (6, d.toNat), (6, 43)] := ⟨by decide, by decide, by decide, d.isLt, by decide, trivial⟩
  have h := And.intro (toNat_encode (i := .waitr d) (show 0xAC000500 + d.toNat * 0x100000 = _ by simp only [pack]; omega) f rfl) f
  generalize encode (.waitr d) = iw at h ⊢
  have k : decode2B iw = .ok (.waitr d) := by
    rw [decode2B, fldN_at 1 (lo := 8) (n := 6) h rfl rfl, z_at 0 (lo := 0) (n := 8) h rfl rfl, z_at 2 (lo := 14) (n := 6) h rfl rfl, fld_at 3 (lo := 20) (v := d) h rfl rfl]; rfl
  rw [decode, fldN_at 4 (lo := 26) (n := 6) h rfl rfl, k]; rfl

theorem RoundTrip.fenceR (d a) : RoundTrip.Statement (.fenceR d a) := by
  intro _
  have f : fits [(8, 0), (6, 0), (6, a.toNat), (6, d.toNat), (6, 44)] := ⟨by decide, by decide, a.isLt, d.isLt, by decide, trivial⟩
  have h := And.intro (toNat_encode (i := .fenceR d a) (show 0xB0000000 + d.toNat * 0x100000 + a.toNat * 0x4000 = _ by simp only [pack]; omega) f rfl) f
  generalize encode (.fenceR d a) = iw at h ⊢
  have k : decode2C iw = .ok (.fenceR d a) := by
    rw [decode2C, fldN_at 1 (lo := 8) (n := 6) h rfl rfl, z_at 0 (lo := 0) (n := 8) h rfl rfl, fld_at 3 (lo := 20) (v := d) h rfl rfl, fld_at 2 (lo := 14) (v := a) h rfl rfl]; rfl
  rw [decode, fldN_at 4 (lo := 26) (n := 6) h rfl rfl, k]; rfl

theorem RoundTrip.fenceH (a n) : RoundTrip.Statement (.fenceH a n) := by
  intro hc
  have f : fits [(3, n.toNat), (5, 0), (6, 1), (6, a.toNat), (6, 0), (6, 44)] := ⟨n.isLt, by decide, by decide, a.isLt, by decide, by decide, trivial⟩
  have h := And.intro (toNat_encode (i := .fenceH a n) (show 0xB0000100 + a.toNat * 0x4000 + n.toNat * 0x1 = _ by simp only [pack]; omega) f rfl) f
  generalize encode (.fenceH a n) = iw at h ⊢
  have hc : (decide (1 ≤ n.toNat) && decide (n.toNat ≤ 4)) = true := hc
  have k : decode2C iw = .ok (.fenceH a n) := by
    rw [decode2C, fldN_at 2 (lo := 8) (n := 6) h rfl rfl, z_at 1 (lo := 3) (n := 5) h rfl rfl, z_at 4 (lo := 20) (n := 6) h rfl rfl, fld_at 0 (lo := 0) (v := n) h rfl rfl, fld_at 3 (lo := 14) (v := a) h rfl rfl, hc]; rfl
  rw [decode, fldN_at 5 (lo := 26) (n := 6) h rfl rfl, k]; rfl

theorem RoundTrip.fenceL (a n) : RoundTrip.Statement (.fenceL a n) := by
  intro hc
  have f : fits [(3, n.toNat), (5, 0), (6, 2), (6, a.toNat), (6, 0), (6, 44)] := ⟨n.isLt, by decide, by decide, a.isLt, by decide, by decide, trivial⟩
  have h := And.intro (toNat_encode (i := .fenceL a n) (show 0xB0000200 + a.toNat * 0x4000 + n.toNat * 0x1 = _ by simp only [pack]; omega) f rfl) f
  generalize encode (.fenceL a n) = iw at h ⊢
  have hc : (decide (1 ≤ n.toNat) && decide (n.toNat ≤ 4)) = true := hc
  have k : decode2C iw = .ok (.fenceL a n) := by
    rw [decode2C, fldN_at 2 (lo := 8) (n := 6) h rfl rfl, z_at 1 (lo := 3) (n := 5) h rfl rfl, z_at 4 (lo := 20) (n := 6) h rfl rfl, fld_at 0 (lo := 0) (v := n) h rfl rfl, fld_at 3 (lo := 14) (v := a) h rfl rfl, hc]; rfl
  rw [decode, fldN_at 5 (lo := 26) (n := 6) h rfl rfl, k]; rfl

theorem RoundTrip.publish (d a) : RoundTrip.Statement (.publish d a) := by
  intro _
  have f : fits [(8, 0), (6, 3), (6, a.toNat), (6, d.toNat), (6, 44)] := ⟨by decide, by decide, a.isLt, d.isLt, by decide, trivial⟩
  have h := And.intro (toNat_encode (i := .publish d a) (show 0xB0000300 + d.toNat * 0x100000 + a.toNat * 0x4000 = _ by simp only [pack]; omega) f rfl) f
  generalize encode (.publish d a) = iw at h ⊢
  have k : decode2C iw = .ok (.publish d a) := by
    rw [decode2C, fldN_at 1 (lo := 8) (n := 6) h rfl rfl, z_at 0 (lo := 0) (n := 8) h rfl rfl, fld_at 3 (lo := 20) (v := d) h rfl rfl, fld_at 2 (lo := 14) (v := a) h rfl rfl]; rfl
  rw [decode, fldN_at 4 (lo := 26) (n := 6) h rfl rfl, k]; rfl

theorem RoundTrip.tsend (d a b) : RoundTrip.Statement (.tsend d a b) := by
  intro _
  have f : fits [(8, 0), (6, b.toNat), (6, a.toNat), (6, d.toNat), (6, 45)] := ⟨by decide, b.isLt, a.isLt, d.isLt, by decide, trivial⟩
  have h := And.intro (toNat_encode (i := .tsend d a b) (show 0xB4000000 + d.toNat * 0x100000 + a.toNat * 0x4000 + b.toNat * 0x100 = _ by simp only [pack]; omega) f rfl) f
  generalize encode (.tsend d a b) = iw at h ⊢
  have k : decode2D iw = .ok (.tsend d a b) := by
    rw [decode2D, fldN_at 0 (lo := 0) (n := 8) h rfl rfl, fld_at 3 (lo := 20) (v := d) h rfl rfl, fld_at 2 (lo := 14) (v := a) h rfl rfl, fld_at 1 (lo := 8) (v := b) h rfl rfl]; rfl
  rw [decode, fldN_at 4 (lo := 26) (n := 6) h rfl rfl, k]; rfl

theorem RoundTrip.spawn (d a) : RoundTrip.Statement (.spawn d a) := by
  intro _
  have f : fits [(8, 0), (6, 0), (6, a.toNat), (6, d.toNat), (6, 46)] := ⟨by decide, by decide, a.isLt, d.isLt, by decide, trivial⟩
  have h := And.intro (toNat_encode (i := .spawn d a) (show 0xB8000000 + d.toNat * 0x100000 + a.toNat * 0x4000 = _ by simp only [pack]; omega) f rfl) f
  generalize encode (.spawn d a) = iw at h ⊢
  have k : decode2E iw = .ok (.spawn d a) := by
    rw [decode2E, fldN_at 1 (lo := 8) (n := 6) h rfl rfl, z_at 0 (lo := 0) (n := 8) h rfl rfl, fld_at 3 (lo := 20) (v := d) h rfl rfl, fld_at 2 (lo := 14) (v := a) h rfl rfl]; rfl
  rw [decode, fldN_at 4 (lo := 26) (n := 6) h rfl rfl, k]; rfl

theorem RoundTrip.join (a) : RoundTrip.Statement (.join a) := by
  intro _
  have f : fits [(8, 0), (6, 1), (6, a.toNat), (6, 0), (6, 46)] := ⟨by decide, by decide, a.isLt, by decide, by decide, trivial⟩
  have h := And.intro (toNat_encode (i := .join a) (show 0xB8000100 + a.toNat * 0x4000 = _ by simp only [pack]; omega) f rfl) f
  generalize encode (.join a) = iw at h ⊢
  have k : decode2E iw = .ok (.join a) := by
    rw [decode2E, fldN_at 1 (lo := 8) (n := 6) h rfl rfl, z_at 0 (lo := 0) (n := 8) h rfl rfl, z_at 3 (lo := 20) (n := 6) h rfl rfl, fld_at 2 (lo := 14) (v := a) h rfl rfl]; rfl
  rw [decode, fldN_at 4 (lo := 26) (n := 6) h rfl rfl, k]; rfl

theorem RoundTrip.exit (a) : RoundTrip.Statement (.exit a) := by
  intro _
  have f : fits [(8, 0), (6, 2), (6, a.toNat), (6, 0), (6, 46)] := ⟨by decide, by decide, a.isLt, by decide, by decide, trivial⟩
  have h := And.intro (toNat_encode (i := .exit a) (show 0xB8000200 + a.toNat * 0x4000 = _ by simp only [pack]; omega) f rfl) f
  generalize encode (.exit a) = iw at h ⊢
  have k : decode2E iw = .ok (.exit a) := by
    rw [decode2E, fldN_at 1 (lo := 8) (n := 6) h rfl rfl, z_at 0 (lo := 0) (n := 8) h rfl rfl, z_at 3 (lo := 20) (n := 6) h rfl rfl, fld_at 2 (lo := 14) (v := a) h rfl rfl]; rfl
  rw [decode, fldN_at 4 (lo := 26) (n := 6) h rfl rfl, k]; rfl

theorem RoundTrip.yield : RoundTrip.Statement (.yield) := by
  intro _
  have f : fits [(8, 0), (6, 3), (12, 0), (6, 46)] := ⟨by decide, by decide, by decide, by decide, trivial⟩
  have h := And.intro (toNat_encode (i := .yield) rfl f rfl) f
  generalize encode (.yield) = iw at h ⊢
  have k : decode2E iw = .ok (.yield) := by
    rw [decode2E, fldN_at 1 (lo := 8) (n := 6) h rfl rfl, z_at 0 (lo := 0) (n := 8) h rfl rfl, z_at 2 (lo := 14) (n := 12) h rfl rfl]; rfl
  rw [decode, fldN_at 3 (lo := 26) (n := 6) h rfl rfl, k]; rfl

theorem RoundTrip.steal (d) : RoundTrip.Statement (.steal d) := by
  intro _
  have f : fits [(8, 0), (6, 4), (6, 0), (6, d.toNat), (6, 46)] := ⟨by decide, by decide, by decide, d.isLt, by decide, trivial⟩
  have h := And.intro (toNat_encode (i := .steal d) (show 0xB8000400 + d.toNat * 0x100000 = _ by simp only [pack]; omega) f rfl) f
  generalize encode (.steal d) = iw at h ⊢
  have k : decode2E iw = .ok (.steal d) := by
    rw [decode2E, fldN_at 1 (lo := 8) (n := 6) h rfl rfl, z_at 0 (lo := 0) (n := 8) h rfl rfl, z_at 2 (lo := 14) (n := 6) h rfl rfl, fld_at 3 (lo := 20) (v := d) h rfl rfl]; rfl
  rw [decode, fldN_at 4 (lo := 26) (n := 6) h rfl rfl, k]; rfl

theorem RoundTrip.tcoord (d n) : RoundTrip.Statement (.tcoord d n) := by
  intro _
  have f : fits [(2, n.toNat), (6, 0), (6, 5), (6, 0), (6, d.toNat), (6, 46)] := ⟨n.isLt, by decide, by decide, by decide, d.isLt, by decide, trivial⟩
  have h := And.intro (toNat_encode (i := .tcoord d n) (show 0xB8000500 + d.toNat * 0x100000 + n.toNat * 0x1 = _ by simp only [pack]; omega) f rfl) f
  generalize encode (.tcoord d n) = iw at h ⊢
  have k : decode2E iw = .ok (.tcoord d n) := by
    rw [decode2E, fldN_at 2 (lo := 8) (n := 6) h rfl rfl, z_at 1 (lo := 2) (n := 6) h rfl rfl, z_at 3 (lo := 14) (n := 6) h rfl rfl, fld_at 4 (lo := 20) (v := d) h rfl rfl, fld_at 0 (lo := 0) (v := n) h rfl rfl]; rfl
  rw [decode, fldN_at 5 (lo := 26) (n := 6) h rfl rfl, k]; rfl

theorem RoundTrip.grank (d a g) : RoundTrip.Statement (.grank d a g) := by
  intro hc
  have f : fits [(1, g.toNat), (7, 0), (6, 6), (6, a.toNat), (6, d.toNat), (6, 46)] := ⟨g.isLt, by decide, by decide, a.isLt, d.isLt, by decide, trivial⟩
  have h := And.intro (toNat_encode (i := .grank d a g) (show 0xB8000600 + d.toNat * 0x100000 + a.toNat * 0x4000 + g.toNat * 0x1 = _ by simp only [pack]; omega) f rfl) f
  generalize encode (.grank d a g) = iw at h ⊢
  have hc : (g == 1 || a == 0) = true := hc
  have k : decode2E iw = .ok (.grank d a g) := by
    rw [decode2E, fldN_at 2 (lo := 8) (n := 6) h rfl rfl, z_at 1 (lo := 1) (n := 7) h rfl rfl, fld_at 0 (lo := 0) (v := g) h rfl rfl, fld_at 3 (lo := 14) (v := a) h rfl rfl, fld_at 4 (lo := 20) (v := d) h rfl rfl, hc]; rfl
  rw [decode, fldN_at 5 (lo := 26) (n := 6) h rfl rfl, k]; rfl

theorem RoundTrip.spreadwait (d) : RoundTrip.Statement (.spreadwait d) := by
  intro _
  have f : fits [(8, 0), (6, 7), (6, 0), (6, d.toNat), (6, 46)] := ⟨by decide, by decide, by decide, d.isLt, by decide, trivial⟩
  have h := And.intro (toNat_encode (i := .spreadwait d) (show 0xB8000700 + d.toNat * 0x100000 = _ by simp only [pack]; omega) f rfl) f
  generalize encode (.spreadwait d) = iw at h ⊢
  have k : decode2E iw = .ok (.spreadwait d) := by
    rw [decode2E, fldN_at 1 (lo := 8) (n := 6) h rfl rfl, z_at 0 (lo := 0) (n := 8) h rfl rfl, z_at 2 (lo := 14) (n := 6) h rfl rfl, fld_at 3 (lo := 20) (v := d) h rfl rfl]; rfl
  rw [decode, fldN_at 4 (lo := 26) (n := 6) h rfl rfl, k]; rfl

theorem RoundTrip.barInit (a n) : RoundTrip.Statement (.barInit a n) := by
  intro _
  have f : fits [(6, n.toNat), (2, 0), (6, 0), (6, a.toNat), (6, 0), (6, 47)] := ⟨n.isLt, by decide, by decide, a.isLt, by decide, by decide, trivial⟩
  have h := And.intro (toNat_encode (i := .barInit a n) (show 0xBC000000 + a.toNat * 0x4000 + n.toNat * 0x1 = _ by simp only [pack]; omega) f rfl) f
  generalize encode (.barInit a n) = iw at h ⊢
  have k : decode2F iw = .ok (.barInit a n) := by
    rw [decode2F, fldN_at 2 (lo := 8) (n := 6) h rfl rfl, z_at 1 (lo := 6) (n := 2) h rfl rfl, z_at 4 (lo := 20) (n := 6) h rfl rfl, fld_at 3 (lo := 14) (v := a) h rfl rfl, fld_at 0 (lo := 0) (v := n) h rfl rfl]; rfl
  rw [decode, fldN_at 5 (lo := 26) (n := 6) h rfl rfl, k]; rfl

theorem RoundTrip.barArr (d a) : RoundTrip.Statement (.barArr d a) := by
  intro _
  have f : fits [(8, 0), (6, 1), (6, a.toNat), (6, d.toNat), (6, 47)] := ⟨by decide, by decide, a.isLt, d.isLt, by decide, trivial⟩
  have h := And.intro (toNat_encode (i := .barArr d a) (show 0xBC000100 + d.toNat * 0x100000 + a.toNat * 0x4000 = _ by simp only [pack]; omega) f rfl) f
  generalize encode (.barArr d a) = iw at h ⊢
  have k : decode2F iw = .ok (.barArr d a) := by
    rw [decode2F, fldN_at 1 (lo := 8) (n := 6) h rfl rfl, z_at 0 (lo := 0) (n := 8) h rfl rfl, fld_at 3 (lo := 20) (v := d) h rfl rfl, fld_at 2 (lo := 14) (v := a) h rfl rfl]; rfl
  rw [decode, fldN_at 4 (lo := 26) (n := 6) h rfl rfl, k]; rfl

theorem RoundTrip.barWait (d a g) : RoundTrip.Statement (.barWait d a g) := by
  intro _
  have f : fits [(6, g.toNat), (2, 0), (6, 2), (6, a.toNat), (6, d.toNat), (6, 47)] := ⟨g.isLt, by decide, by decide, a.isLt, d.isLt, by decide, trivial⟩
  have h := And.intro (toNat_encode (i := .barWait d a g) (show 0xBC000200 + d.toNat * 0x100000 + a.toNat * 0x4000 + g.toNat * 0x1 = _ by simp only [pack]; omega) f rfl) f
  generalize encode (.barWait d a g) = iw at h ⊢
  have k : decode2F iw = .ok (.barWait d a g) := by
    rw [decode2F, fldN_at 2 (lo := 8) (n := 6) h rfl rfl, z_at 1 (lo := 6) (n := 2) h rfl rfl, fld_at 4 (lo := 20) (v := d) h rfl rfl, fld_at 3 (lo := 14) (v := a) h rfl rfl, fld_at 0 (lo := 0) (v := g) h rfl rfl]; rfl
  rw [decode, fldN_at 5 (lo := 26) (n := 6) h rfl rfl, k]; rfl

theorem RoundTrip.barAw (d a) : RoundTrip.Statement (.barAw d a) := by
  intro _
  have f : fits [(8, 0), (6, 3), (6, a.toNat), (6, d.toNat), (6, 47)] := ⟨by decide, by decide, a.isLt, d.isLt, by decide, trivial⟩
  have h := And.intro (toNat_encode (i := .barAw d a) (show 0xBC000300 + d.toNat * 0x100000 + a.toNat * 0x4000 = _ by simp only [pack]; omega) f rfl) f
  generalize encode (.barAw d a) = iw at h ⊢
  have k : decode2F iw = .ok (.barAw d a) := by
    rw [decode2F, fldN_at 1 (lo := 8) (n := 6) h rfl rfl, z_at 0 (lo := 0) (n := 8) h rfl rfl, fld_at 3 (lo := 20) (v := d) h rfl rfl, fld_at 2 (lo := 14) (v := a) h rfl rfl]; rfl
  rw [decode, fldN_at 4 (lo := 26) (n := 6) h rfl rfl, k]; rfl

theorem RoundTrip.barQuery (d a) : RoundTrip.Statement (.barQuery d a) := by
  intro _
  have f : fits [(8, 0), (6, 4), (6, a.toNat), (6, d.toNat), (6, 47)] := ⟨by decide, by decide, a.isLt, d.isLt, by decide, trivial⟩
  have h := And.intro (toNat_encode (i := .barQuery d a) (show 0xBC000400 + d.toNat * 0x100000 + a.toNat * 0x4000 = _ by simp only [pack]; omega) f rfl) f
  generalize encode (.barQuery d a) = iw at h ⊢
  have k : decode2F iw = .ok (.barQuery d a) := by
    rw [decode2F, fldN_at 1 (lo := 8) (n := 6) h rfl rfl, z_at 0 (lo := 0) (n := 8) h rfl rfl, fld_at 3 (lo := 20) (v := d) h rfl rfl, fld_at 2 (lo := 14) (v := a) h rfl rfl]; rfl
  rw [decode, fldN_at 4 (lo := 26) (n := 6) h rfl rfl, k]; rfl

theorem RoundTrip.csrr (d n) : RoundTrip.Statement (.csrr d n) := by
  intro hc
  have f : fits [(8, n.toNat), (6, 0), (6, 0), (6, d.toNat), (6, 48)] := ⟨n.isLt, by decide, by decide, d.isLt, by decide, trivial⟩
  have h := And.intro (toNat_encode (i := .csrr d n) (show 0xC0000000 + d.toNat * 0x100000 + n.toNat * 0x1 = _ by simp only [pack]; omega) f rfl) f
  generalize encode (.csrr d n) = iw at h ⊢
  have hc : (decide (n.toNat < 18)) = true := hc
  have k : decode30 iw = .ok (.csrr d n) := by
    rw [decode30, fldN_at 1 (lo := 8) (n := 6) h rfl rfl, z_at 2 (lo := 14) (n := 6) h rfl rfl, fld_at 0 (lo := 0) (v := n) h rfl rfl, fld_at 3 (lo := 20) (v := d) h rfl rfl, hc]; rfl
  rw [decode, fldN_at 4 (lo := 26) (n := 6) h rfl rfl, k]; rfl

theorem RoundTrip.csrw (d a n) : RoundTrip.Statement (.csrw d a n) := by
  intro hc
  have f : fits [(8, n.toNat), (6, 1), (6, a.toNat), (6, d.toNat), (6, 48)] := ⟨n.isLt, by decide, a.isLt, d.isLt, by decide, trivial⟩
  have h := And.intro (toNat_encode (i := .csrw d a n) (show 0xC0000100 + d.toNat * 0x100000 + a.toNat * 0x4000 + n.toNat * 0x1 = _ by simp only [pack]; omega) f rfl) f
  generalize encode (.csrw d a n) = iw at h ⊢
  have hc : (decide (n.toNat < 18)) = true := hc
  have k : decode30 iw = .ok (.csrw d a n) := by
    rw [decode30, fldN_at 1 (lo := 8) (n := 6) h rfl rfl, fld_at 0 (lo := 0) (v := n) h rfl rfl, fld_at 3 (lo := 20) (v := d) h rfl rfl, fld_at 2 (lo := 14) (v := a) h rfl rfl, hc]; rfl
  rw [decode, fldN_at 4 (lo := 26) (n := 6) h rfl rfl, k]; rfl

theorem RoundTrip.csrs (d a n) : RoundTrip.Statement (.csrs d a n) := by
  intro hc
  have f : fits [(8, n.toNat), (6, 2), (6, a.toNat), (6, d.toNat), (6, 48)] := ⟨n.isLt, by decide, a.isLt, d.isLt, by decide, trivial⟩
  have h := And.intro (toNat_encode (i := .csrs d a n) (show 0xC0000200 + d.toNat * 0x100000 + a.toNat * 0x4000 + n.toNat * 0x1 = _ by simp only [pack]; omega) f rfl) f
  generalize encode (.csrs d a n) = iw at h ⊢
  have hc : (decide (n.toNat < 18)) = true := hc
  have k : decode30 iw = .ok (.csrs d a n) := by
    rw [decode30, fldN_at 1 (lo := 8) (n := 6) h rfl rfl, fld_at 0 (lo := 0) (v := n) h rfl rfl, fld_at 3 (lo := 20) (v := d) h rfl rfl, fld_at 2 (lo := 14) (v := a) h rfl rfl, hc]; rfl
  rw [decode, fldN_at 4 (lo := 26) (n := 6) h rfl rfl, k]; rfl

theorem RoundTrip.csrc (d a n) : RoundTrip.Statement (.csrc d a n) := by
  intro hc
  have f : fits [(8, n.toNat), (6, 3), (6, a.toNat), (6, d.toNat), (6, 48)] := ⟨n.isLt, by decide, a.isLt, d.isLt, by decide, trivial⟩
  have h := And.intro (toNat_encode (i := .csrc d a n) (show 0xC0000300 + d.toNat * 0x100000 + a.toNat * 0x4000 + n.toNat * 0x1 = _ by simp only [pack]; omega) f rfl) f
  generalize encode (.csrc d a n) = iw at h ⊢
  have hc : (decide (n.toNat < 18)) = true := hc
  have k : decode30 iw = .ok (.csrc d a n) := by
    rw [decode30, fldN_at 1 (lo := 8) (n := 6) h rfl rfl, fld_at 0 (lo := 0) (v := n) h rfl rfl, fld_at 3 (lo := 20) (v := d) h rfl rfl, fld_at 2 (lo := 14) (v := a) h rfl rfl, hc]; rfl
  rw [decode, fldN_at 4 (lo := 26) (n := 6) h rfl rfl, k]; rfl

theorem RoundTrip.trap (n) : RoundTrip.Statement (.trap n) := by
  intro _
  have f : fits [(8, n.toNat), (6, 4), (12, 0), (6, 48)] := ⟨n.isLt, by decide, by decide, by decide, trivial⟩
  have h := And.intro (toNat_encode (i := .trap n) (show 0xC0000400 + n.toNat * 0x1 = _ by simp only [pack]; omega) f rfl) f
  generalize encode (.trap n) = iw at h ⊢
  have k : decode30 iw = .ok (.trap n) := by
    rw [decode30, fldN_at 1 (lo := 8) (n := 6) h rfl rfl, z_at 2 (lo := 14) (n := 12) h rfl rfl, fld_at 0 (lo := 0) (v := n) h rfl rfl]; rfl
  rw [decode, fldN_at 3 (lo := 26) (n := 6) h rfl rfl, k]; rfl

theorem RoundTrip.eret : RoundTrip.Statement (.eret) := by
  intro _
  have f : fits [(8, 0), (6, 5), (12, 0), (6, 48)] := ⟨by decide, by decide, by decide, by decide, trivial⟩
  have h := And.intro (toNat_encode (i := .eret) rfl f rfl) f
  generalize encode (.eret) = iw at h ⊢
  have k : decode30 iw = .ok (.eret) := by
    rw [decode30, fldN_at 1 (lo := 8) (n := 6) h rfl rfl, z_at 0 (lo := 0) (n := 8) h rfl rfl, z_at 2 (lo := 14) (n := 12) h rfl rfl]; rfl
  rw [decode, fldN_at 3 (lo := 26) (n := 6) h rfl rfl, k]; rfl

theorem RoundTrip.halt : RoundTrip.Statement (.halt) := by
  intro _
  have f : fits [(8, 0), (6, 6), (12, 0), (6, 48)] := ⟨by decide, by decide, by decide, by decide, trivial⟩
  have h := And.intro (toNat_encode (i := .halt) rfl f rfl) f
  generalize encode (.halt) = iw at h ⊢
  have k : decode30 iw = .ok (.halt) := by
    rw [decode30, fldN_at 1 (lo := 8) (n := 6) h rfl rfl, z_at 0 (lo := 0) (n := 8) h rfl rfl, z_at 2 (lo := 14) (n := 12) h rfl rfl]; rfl
  rw [decode, fldN_at 3 (lo := 26) (n := 6) h rfl rfl, k]; rfl

theorem RoundTrip.wfe (a) : RoundTrip.Statement (.wfe a) := by
  intro _
  have f : fits [(8, 0), (6, 7), (6, a.toNat), (6, 0), (6, 48)] := ⟨by decide, by decide, a.isLt, by decide, by decide, trivial⟩
  have h := And.intro (toNat_encode (i := .wfe a) (show 0xC0000700 + a.toNat * 0x4000 = _ by simp only [pack]; omega) f rfl) f
  generalize encode (.wfe a) = iw at h ⊢
  have k : decode30 iw = .ok (.wfe a) := by
    rw [decode30, fldN_at 1 (lo := 8) (n := 6) h rfl rfl, z_at 0 (lo := 0) (n := 8) h rfl rfl, z_at 3 (lo := 20) (n := 6) h rfl rfl, fld_at 2 (lo := 14) (v := a) h rfl rfl]; rfl
  rw [decode, fldN_at 4 (lo := 26) (n := 6) h rfl rfl, k]; rfl

theorem RoundTrip.tid (d) : RoundTrip.Statement (.tid d) := by
  intro _
  have f : fits [(8, 0), (6, 8), (6, 0), (6, d.toNat), (6, 48)] := ⟨by decide, by decide, by decide, d.isLt, by decide, trivial⟩
  have h := And.intro (toNat_encode (i := .tid d) (show 0xC0000800 + d.toNat * 0x100000 = _ by simp only [pack]; omega) f rfl) f
  generalize encode (.tid d) = iw at h ⊢
  have k : decode30 iw = .ok (.tid d) := by
    rw [decode30, fldN_at 1 (lo := 8) (n := 6) h rfl rfl, z_at 0 (lo := 0) (n := 8) h rfl rfl, z_at 2 (lo := 14) (n := 6) h rfl rfl, fld_at 3 (lo := 20) (v := d) h rfl rfl]; rfl
  rw [decode, fldN_at 4 (lo := 26) (n := 6) h rfl rfl, k]; rfl

theorem RoundTrip.rdtime (d) : RoundTrip.Statement (.rdtime d) := by
  intro _
  have f : fits [(8, 0), (6, 9), (6, 0), (6, d.toNat), (6, 48)] := ⟨by decide, by decide, by decide, d.isLt, by decide, trivial⟩
  have h := And.intro (toNat_encode (i := .rdtime d) (show 0xC0000900 + d.toNat * 0x100000 = _ by simp only [pack]; omega) f rfl) f
  generalize encode (.rdtime d) = iw at h ⊢
  have k : decode30 iw = .ok (.rdtime d) := by
    rw [decode30, fldN_at 1 (lo := 8) (n := 6) h rfl rfl, z_at 0 (lo := 0) (n := 8) h rfl rfl, z_at 2 (lo := 14) (n := 6) h rfl rfl, fld_at 3 (lo := 20) (v := d) h rfl rfl]; rfl
  rw [decode, fldN_at 4 (lo := 26) (n := 6) h rfl rfl, k]; rfl

theorem RoundTrip.urgent (d a k n) : RoundTrip.Statement (.urgent d a k n) := by
  intro _
  have f : fits [(4, n.toNat), (1, k.toNat), (3, 0), (6, 10), (6, a.toNat), (6, d.toNat), (6, 48)] := ⟨n.isLt, k.isLt, by decide, by decide, a.isLt, d.isLt, by decide, trivial⟩
  have h := And.intro (toNat_encode (i := .urgent d a k n) (show 0xC0000A00 + d.toNat * 0x100000 + a.toNat * 0x4000 + k.toNat * 0x10 + n.toNat * 0x1 = _ by simp only [pack]; omega) f rfl) f
  generalize encode (.urgent d a k n) = iw at h ⊢
  have k : decode30 iw = .ok (.urgent d a k n) := by
    rw [decode30, fldN_at 3 (lo := 8) (n := 6) h rfl rfl, z_at 2 (lo := 5) (n := 3) h rfl rfl, fld_at 5 (lo := 20) (v := d) h rfl rfl, fld_at 4 (lo := 14) (v := a) h rfl rfl, fld_at 1 (lo := 4) (v := k) h rfl rfl, fld_at 0 (lo := 0) (v := n) h rfl rfl]; rfl
  rw [decode, fldN_at 6 (lo := 26) (n := 6) h rfl rfl, k]; rfl

theorem RoundTrip.lret : RoundTrip.Statement (.lret) := by
  intro _
  have f : fits [(8, 0), (6, 11), (12, 0), (6, 48)] := ⟨by decide, by decide, by decide, by decide, trivial⟩
  have h := And.intro (toNat_encode (i := .lret) rfl f rfl) f
  generalize encode (.lret) = iw at h ⊢
  have k : decode30 iw = .ok (.lret) := by
    rw [decode30, fldN_at 1 (lo := 8) (n := 6) h rfl rfl, z_at 0 (lo := 0) (n := 8) h rfl rfl, z_at 2 (lo := 14) (n := 12) h rfl rfl]; rfl
  rw [decode, fldN_at 3 (lo := 26) (n := 6) h rfl rfl, k]; rfl

theorem RoundTrip.invR (d a n) : RoundTrip.Statement (.invR d a n) := by
  intro _
  have f : fits [(6, n.toNat), (2, 0), (6, 0), (6, a.toNat), (6, d.toNat), (6, 49)] := ⟨n.isLt, by decide, by decide, a.isLt, d.isLt, by decide, trivial⟩
  have h := And.intro (toNat_encode (i := .invR d a n) (show 0xC4000000 + d.toNat * 0x100000 + a.toNat * 0x4000 + n.toNat * 0x1 = _ by simp only [pack]; omega) f rfl) f
  generalize encode (.invR d a n) = iw at h ⊢
  have k : decode31 iw = .ok (.invR d a n) := by
    rw [decode31, fldN_at 2 (lo := 8) (n := 6) h rfl rfl, z_at 1 (lo := 6) (n := 2) h rfl rfl, fld_at 4 (lo := 20) (v := d) h rfl rfl, fld_at 3 (lo := 14) (v := a) h rfl rfl, fld_at 0 (lo := 0) (v := n) h rfl rfl]; rfl
  rw [decode, fldN_at 5 (lo := 26) (n := 6) h rfl rfl, k]; rfl

theorem RoundTrip.invA (d) : RoundTrip.Statement (.invA d) := by
  intro _
  have f : fits [(8, 0), (6, 1), (6, 0), (6, d.toNat), (6, 49)] := ⟨by decide, by decide, by decide, d.isLt, by decide, trivial⟩
  have h := And.intro (toNat_encode (i := .invA d) (show 0xC4000100 + d.toNat * 0x100000 = _ by simp only [pack]; omega) f rfl) f
  generalize encode (.invA d) = iw at h ⊢
  have k : decode31 iw = .ok (.invA d) := by
    rw [decode31, fldN_at 1 (lo := 8) (n := 6) h rfl rfl, z_at 0 (lo := 0) (n := 8) h rfl rfl, z_at 2 (lo := 14) (n := 6) h rfl rfl, fld_at 3 (lo := 20) (v := d) h rfl rfl]; rfl
  rw [decode, fldN_at 4 (lo := 26) (n := 6) h rfl rfl, k]; rfl

theorem RoundTrip.invack : RoundTrip.Statement (.invack) := by
  intro _
  have f : fits [(8, 0), (6, 2), (12, 0), (6, 49)] := ⟨by decide, by decide, by decide, by decide, trivial⟩
  have h := And.intro (toNat_encode (i := .invack) rfl f rfl) f
  generalize encode (.invack) = iw at h ⊢
  have k : decode31 iw = .ok (.invack) := by
    rw [decode31, fldN_at 1 (lo := 8) (n := 6) h rfl rfl, z_at 0 (lo := 0) (n := 8) h rfl rfl, z_at 2 (lo := 14) (n := 12) h rfl rfl]; rfl
  rw [decode, fldN_at 3 (lo := 26) (n := 6) h rfl rfl, k]; rfl

theorem RoundTrip.probe (d a) : RoundTrip.Statement (.probe d a) := by
  intro _
  have f : fits [(8, 0), (6, 3), (6, a.toNat), (6, d.toNat), (6, 49)] := ⟨by decide, by decide, a.isLt, d.isLt, by decide, trivial⟩
  have h := And.intro (toNat_encode (i := .probe d a) (show 0xC4000300 + d.toNat * 0x100000 + a.toNat * 0x4000 = _ by simp only [pack]; omega) f rfl) f
  generalize encode (.probe d a) = iw at h ⊢
  have k : decode31 iw = .ok (.probe d a) := by
    rw [decode31, fldN_at 1 (lo := 8) (n := 6) h rfl rfl, z_at 0 (lo := 0) (n := 8) h rfl rfl, fld_at 3 (lo := 20) (v := d) h rfl rfl, fld_at 2 (lo := 14) (v := a) h rfl rfl]; rfl
  rw [decode, fldN_at 4 (lo := 26) (n := 6) h rfl rfl, k]; rfl

theorem RoundTrip.fqReplay (a) : RoundTrip.Statement (.fqReplay a) := by
  intro _
  have f : fits [(8, 0), (6, 4), (6, a.toNat), (6, 0), (6, 49)] := ⟨by decide, by decide, a.isLt, by decide, by decide, trivial⟩
  have h := And.intro (toNat_encode (i := .fqReplay a) (show 0xC4000400 + a.toNat * 0x4000 = _ by simp only [pack]; omega) f rfl) f
  generalize encode (.fqReplay a) = iw at h ⊢
  have k : decode31 iw = .ok (.fqReplay a) := by
    rw [decode31, fldN_at 1 (lo := 8) (n := 6) h rfl rfl, z_at 0 (lo := 0) (n := 8) h rfl rfl, z_at 3 (lo := 20) (n := 6) h rfl rfl, fld_at 2 (lo := 14) (v := a) h rfl rfl]; rfl
  rw [decode, fldN_at 4 (lo := 26) (n := 6) h rfl rfl, k]; rfl

theorem RoundTrip.fqFail (a c) : RoundTrip.Statement (.fqFail a c) := by
  intro _
  have f : fits [(6, c.toNat), (2, 0), (6, 5), (6, a.toNat), (6, 0), (6, 49)] := ⟨c.isLt, by decide, by decide, a.isLt, by decide, by decide, trivial⟩
  have h := And.intro (toNat_encode (i := .fqFail a c) (show 0xC4000500 + a.toNat * 0x4000 + c.toNat * 0x1 = _ by simp only [pack]; omega) f rfl) f
  generalize encode (.fqFail a c) = iw at h ⊢
  have k : decode31 iw = .ok (.fqFail a c) := by
    rw [decode31, fldN_at 2 (lo := 8) (n := 6) h rfl rfl, z_at 1 (lo := 6) (n := 2) h rfl rfl, z_at 4 (lo := 20) (n := 6) h rfl rfl, fld_at 3 (lo := 14) (v := a) h rfl rfl, fld_at 0 (lo := 0) (v := c) h rfl rfl]; rfl
  rw [decode, fldN_at 5 (lo := 26) (n := 6) h rfl rfl, k]; rfl

theorem RoundTrip.chsend (d a n) : RoundTrip.Statement (.chsend d a n) := by
  intro _
  have f : fits [(8, n.toNat), (6, 0), (6, a.toNat), (6, d.toNat), (6, 50)] := ⟨n.isLt, by decide, a.isLt, d.isLt, by decide, trivial⟩
  have h := And.intro (toNat_encode (i := .chsend d a n) (show 0xC8000000 + d.toNat * 0x100000 + a.toNat * 0x4000 + n.toNat * 0x1 = _ by simp only [pack]; omega) f rfl) f
  generalize encode (.chsend d a n) = iw at h ⊢
  have k : decode32 iw = .ok (.chsend d a n) := by
    rw [decode32, fldN_at 1 (lo := 8) (n := 6) h rfl rfl, fld_at 3 (lo := 20) (v := d) h rfl rfl, fld_at 2 (lo := 14) (v := a) h rfl rfl, fld_at 0 (lo := 0) (v := n) h rfl rfl]; rfl
  rw [decode, fldN_at 4 (lo := 26) (n := 6) h rfl rfl, k]; rfl

theorem RoundTrip.chrecv (d n) : RoundTrip.Statement (.chrecv d n) := by
  intro _
  have f : fits [(8, n.toNat), (6, 1), (6, 0), (6, d.toNat), (6, 50)] := ⟨n.isLt, by decide, by decide, d.isLt, by decide, trivial⟩
  have h := And.intro (toNat_encode (i := .chrecv d n) (show 0xC8000100 + d.toNat * 0x100000 + n.toNat * 0x1 = _ by simp only [pack]; omega) f rfl) f
  generalize encode (.chrecv d n) = iw at h ⊢
  have k : decode32 iw = .ok (.chrecv d n) := by
    rw [decode32, fldN_at 1 (lo := 8) (n := 6) h rfl rfl, z_at 2 (lo := 14) (n := 6) h rfl rfl, fld_at 3 (lo := 20) (v := d) h rfl rfl, fld_at 0 (lo := 0) (v := n) h rfl rfl]; rfl
  rw [decode, fldN_at 4 (lo := 26) (n := 6) h rfl rfl, k]; rfl

theorem RoundTrip.chpoll (d n) : RoundTrip.Statement (.chpoll d n) := by
  intro _
  have f : fits [(8, n.toNat), (6, 2), (6, 0), (6, d.toNat), (6, 50)] := ⟨n.isLt, by decide, by decide, d.isLt, by decide, trivial⟩
  have h := And.intro (toNat_encode (i := .chpoll d n) (show 0xC8000200 + d.toNat * 0x100000 + n.toNat * 0x1 = _ by simp only [pack]; omega) f rfl) f
  generalize encode (.chpoll d n) = iw at h ⊢
  have k : decode32 iw = .ok (.chpoll d n) := by
    rw [decode32, fldN_at 1 (lo := 8) (n := 6) h rfl rfl, z_at 2 (lo := 14) (n := 6) h rfl rfl, fld_at 3 (lo := 20) (v := d) h rfl rfl, fld_at 0 (lo := 0) (v := n) h rfl rfl]; rfl
  rw [decode, fldN_at 4 (lo := 26) (n := 6) h rfl rfl, k]; rfl

theorem RoundTrip.vcore (d) : RoundTrip.Statement (.vcore d) := by
  intro _
  have f : fits [(8, 0), (6, 3), (6, 0), (6, d.toNat), (6, 50)] := ⟨by decide, by decide, by decide, d.isLt, by decide, trivial⟩
  have h := And.intro (toNat_encode (i := .vcore d) (show 0xC8000300 + d.toNat * 0x100000 = _ by simp only [pack]; omega) f rfl) f
  generalize encode (.vcore d) = iw at h ⊢
  have k : decode32 iw = .ok (.vcore d) := by
    rw [decode32, fldN_at 1 (lo := 8) (n := 6) h rfl rfl, z_at 0 (lo := 0) (n := 8) h rfl rfl, z_at 2 (lo := 14) (n := 6) h rfl rfl, fld_at 3 (lo := 20) (v := d) h rfl rfl]; rfl
  rw [decode, fldN_at 4 (lo := 26) (n := 6) h rfl rfl, k]; rfl

theorem RoundTrip.nonInstructionWord (cause) : RoundTrip.Statement (.nonInstructionWord cause) := fun h => Bool.noConfusion h
theorem RoundTrip.takeInterrupt (sid) : RoundTrip.Statement (.takeInterrupt sid) := fun h => Bool.noConfusion h
theorem RoundTrip.hostInterruptMessage (tid) : RoundTrip.Statement (.hostInterruptMessage tid) := fun h => Bool.noConfusion h
theorem RoundTrip.strandWake (sid) : RoundTrip.Statement (.strandWake sid) := fun h => Bool.noConfusion h
theorem RoundTrip.standbyUrgentStart (core) : RoundTrip.Statement (.standbyUrgentStart core) := fun h => Bool.noConfusion h
theorem RoundTrip.chainMessageStart (core) : RoundTrip.Statement (.chainMessageStart core) := fun h => Bool.noConfusion h
theorem RoundTrip.nudgeExpiry (sid) : RoundTrip.Statement (.nudgeExpiry sid) := fun h => Bool.noConfusion h
theorem RoundTrip.starvationToken (router waited) : RoundTrip.Statement (.starvationToken router waited) := fun h => Bool.noConfusion h
theorem RoundTrip.retentionEntry (core) : RoundTrip.Statement (.retentionEntry core) := fun h => Bool.noConfusion h
theorem RoundTrip.retentionWake (core) : RoundTrip.Statement (.retentionWake core) := fun h => Bool.noConfusion h
theorem RoundTrip.wfeDeadline (sid) : RoundTrip.Statement (.wfeDeadline sid) := fun h => Bool.noConfusion h
theorem RoundTrip.yieldTimeout (sid) : RoundTrip.Statement (.yieldTimeout sid) := fun h => Bool.noConfusion h
theorem RoundTrip.storeBufferDrain (sid) : RoundTrip.Statement (.storeBufferDrain sid) := fun h => Bool.noConfusion h
theorem RoundTrip.leaseExpiry (cluster line) : RoundTrip.Statement (.leaseExpiry cluster line) := fun h => Bool.noConfusion h
theorem RoundTrip.fenceSatisfied (sid index) : RoundTrip.Statement (.fenceSatisfied sid index) := fun h => Bool.noConfusion h
theorem RoundTrip.copyIssue (sid) : RoundTrip.Statement (.copyIssue sid) := fun h => Bool.noConfusion h
theorem RoundTrip.copyRead (copy offset) : RoundTrip.Statement (.copyRead copy offset) := fun h => Bool.noConfusion h
theorem RoundTrip.copyWrite (copy index) : RoundTrip.Statement (.copyWrite copy index) := fun h => Bool.noConfusion h
theorem RoundTrip.copyFault (copy) : RoundTrip.Statement (.copyFault copy) := fun h => Bool.noConfusion h
theorem RoundTrip.copyComplete (copy) : RoundTrip.Statement (.copyComplete copy) := fun h => Bool.noConfusion h
theorem RoundTrip.packetInject (core reply) : RoundTrip.Statement (.packetInject core reply) := fun h => Bool.noConfusion h
theorem RoundTrip.landingPacketArrival (copy) : RoundTrip.Statement (.landingPacketArrival copy) := fun h => Bool.noConfusion h
theorem RoundTrip.landingHandlerStart (core) : RoundTrip.Statement (.landingHandlerStart core) := fun h => Bool.noConfusion h
theorem RoundTrip.publishFlip (copy) : RoundTrip.Statement (.publishFlip copy) := fun h => Bool.noConfusion h
theorem RoundTrip.engineTurnStart (engine) : RoundTrip.Statement (.engineTurnStart engine) := fun h => Bool.noConfusion h
theorem RoundTrip.engineEntryAgeing (engine index) : RoundTrip.Statement (.engineEntryAgeing engine index) := fun h => Bool.noConfusion h
theorem RoundTrip.kblockBoundary (engine) : RoundTrip.Statement (.kblockBoundary engine) := fun h => Bool.noConfusion h
theorem RoundTrip.engineCompletion (engine) : RoundTrip.Statement (.engineCompletion engine) := fun h => Bool.noConfusion h
theorem RoundTrip.stealRound (core) : RoundTrip.Statement (.stealRound core) := fun h => Bool.noConfusion h
theorem RoundTrip.spreadFloodAccept (group core) : RoundTrip.Statement (.spreadFloodAccept group core) := fun h => Bool.noConfusion h
theorem RoundTrip.pageWalkComplete (cluster index) : RoundTrip.Statement (.pageWalkComplete cluster index) := fun h => Bool.noConfusion h
theorem RoundTrip.faultPost (who) : RoundTrip.Statement (.faultPost who) := fun h => Bool.noConfusion h
theorem RoundTrip.invalidationPoint (inv core) : RoundTrip.Statement (.invalidationPoint inv core) := fun h => Bool.noConfusion h
theorem RoundTrip.invalidationAck (inv core) : RoundTrip.Statement (.invalidationAck inv core) := fun h => Bool.noConfusion h
theorem RoundTrip.attachCoreReset (core) : RoundTrip.Statement (.attachCoreReset core) := fun h => Bool.noConfusion h
theorem RoundTrip.evictSave (sid) : RoundTrip.Statement (.evictSave sid) := fun h => Bool.noConfusion h
theorem RoundTrip.swapSave (partition) : RoundTrip.Statement (.swapSave partition) := fun h => Bool.noConfusion h
theorem RoundTrip.build : RoundTrip.Statement (.build) := fun h => Bool.noConfusion h
theorem RoundTrip.attach : RoundTrip.Statement (.attach) := fun h => Bool.noConfusion h
theorem RoundTrip.evict : RoundTrip.Statement (.evict) := fun h => Bool.noConfusion h
theorem RoundTrip.restore : RoundTrip.Statement (.restore) := fun h => Bool.noConfusion h
theorem RoundTrip.swap : RoundTrip.Statement (.swap) := fun h => Bool.noConfusion h
theorem RoundTrip.haltCommand : RoundTrip.Statement (.haltCommand) := fun h => Bool.noConfusion h
theorem RoundTrip.destroy : RoundTrip.Statement (.destroy) := fun h => Bool.noConfusion h
theorem RoundTrip.qenable : RoundTrip.Statement (.qenable) := fun h => Bool.noConfusion h
theorem RoundTrip.qresume : RoundTrip.Statement (.qresume) := fun h => Bool.noConfusion h
theorem RoundTrip.qdisable : RoundTrip.Statement (.qdisable) := fun h => Bool.noConfusion h
theorem RoundTrip.ttload : RoundTrip.Statement (.ttload) := fun h => Bool.noConfusion h
theorem RoundTrip.ttTableSwitch : RoundTrip.Statement (.ttTableSwitch) := fun h => Bool.noConfusion h
theorem RoundTrip.ttSlotOpen (index) : RoundTrip.Statement (.ttSlotOpen index) := fun h => Bool.noConfusion h
theorem RoundTrip.ttSlotEnd : RoundTrip.Statement (.ttSlotEnd) := fun h => Bool.noConfusion h
theorem RoundTrip.frontEndRead (queue) : RoundTrip.Statement (.frontEndRead queue) := fun h => Bool.noConfusion h
theorem RoundTrip.packetRoot (queue) : RoundTrip.Statement (.packetRoot queue) := fun h => Bool.noConfusion h
theorem RoundTrip.packetSpread (queue) : RoundTrip.Statement (.packetSpread queue) := fun h => Bool.noConfusion h
theorem RoundTrip.packetUnload (queue) : RoundTrip.Statement (.packetUnload queue) := fun h => Bool.noConfusion h
theorem RoundTrip.packetWaitval (queue) : RoundTrip.Statement (.packetWaitval queue) := fun h => Bool.noConfusion h
theorem RoundTrip.packetSignal (queue) : RoundTrip.Statement (.packetSignal queue) := fun h => Bool.noConfusion h
theorem RoundTrip.packetNop (queue) : RoundTrip.Statement (.packetNop queue) := fun h => Bool.noConfusion h
theorem RoundTrip.kload : RoundTrip.Statement (.kload) := fun h => Bool.noConfusion h
theorem RoundTrip.kernelVerify (slot) : RoundTrip.Statement (.kernelVerify slot) := fun h => Bool.noConfusion h
theorem RoundTrip.kernelInstall (slot) : RoundTrip.Statement (.kernelInstall slot) := fun h => Bool.noConfusion h
theorem RoundTrip.krelease : RoundTrip.Statement (.krelease) := fun h => Bool.noConfusion h
theorem RoundTrip.kquery : RoundTrip.Statement (.kquery) := fun h => Bool.noConfusion h
theorem RoundTrip.kpurge : RoundTrip.Statement (.kpurge) := fun h => Bool.noConfusion h
theorem RoundTrip.fuseraise : RoundTrip.Statement (.fuseraise) := fun h => Bool.noConfusion h
theorem RoundTrip.attest : RoundTrip.Statement (.attest) := fun h => Bool.noConfusion h
theorem RoundTrip.debugset : RoundTrip.Statement (.debugset) := fun h => Bool.noConfusion h
theorem RoundTrip.debugAccess (access) : RoundTrip.Statement (.debugAccess access) := fun h => Bool.noConfusion h
theorem RoundTrip.ratioChange (stack code) : RoundTrip.Statement (.ratioChange stack code) := fun h => Bool.noConfusion h
theorem RoundTrip.ratioQuiesceEnd (stack) : RoundTrip.Statement (.ratioQuiesceEnd stack) := fun h => Bool.noConfusion h
theorem RoundTrip.memcfgLocal (value) : RoundTrip.Statement (.memcfgLocal value) := fun h => Bool.noConfusion h
theorem RoundTrip.memcfgShways (value) : RoundTrip.Statement (.memcfgShways value) := fun h => Bool.noConfusion h
theorem RoundTrip.siltMissFill (line) : RoundTrip.Statement (.siltMissFill line) := fun h => Bool.noConfusion h
theorem RoundTrip.siltWriteback (line) : RoundTrip.Statement (.siltWriteback line) := fun h => Bool.noConfusion h
theorem RoundTrip.dpctlEnable (port enable) : RoundTrip.Statement (.dpctlEnable port enable) := fun h => Bool.noConfusion h
theorem RoundTrip.dpctlReset (port) : RoundTrip.Statement (.dpctlReset port) := fun h => Bool.noConfusion h
theorem RoundTrip.sockidWrite (value) : RoundTrip.Statement (.sockidWrite value) := fun h => Bool.noConfusion h
theorem RoundTrip.peerDetected (port peer) : RoundTrip.Statement (.peerDetected port peer) := fun h => Bool.noConfusion h
theorem RoundTrip.portTrained (port lanes) : RoundTrip.Statement (.portTrained port lanes) := fun h => Bool.noConfusion h
theorem RoundTrip.trainingTimeout (port) : RoundTrip.Statement (.trainingTimeout port) := fun h => Bool.noConfusion h
theorem RoundTrip.laneFailure (port) : RoundTrip.Statement (.laneFailure port) := fun h => Bool.noConfusion h
theorem RoundTrip.flitReceive (port flit) : RoundTrip.Statement (.flitReceive port flit) := fun h => Bool.noConfusion h
theorem RoundTrip.portFenceTimeout (port) : RoundTrip.Statement (.portFenceTimeout port) := fun h => Bool.noConfusion h
theorem RoundTrip.hostPostedWrite (addr bytes relaxed) : RoundTrip.Statement (.hostPostedWrite addr bytes relaxed) := fun h => Bool.noConfusion h
theorem RoundTrip.hostRead (addr len) : RoundTrip.Statement (.hostRead addr len) := fun h => Bool.noConfusion h
theorem RoundTrip.ptpMessage (slew) : RoundTrip.Statement (.ptpMessage slew) := fun h => Bool.noConfusion h
theorem RoundTrip.blackBoxWrite : RoundTrip.Statement (.blackBoxWrite) := fun h => Bool.noConfusion h
theorem RoundTrip.bbctlUnfreeze : RoundTrip.Statement (.bbctlUnfreeze) := fun h => Bool.noConfusion h
theorem RoundTrip.cpwrPstate (cluster value) : RoundTrip.Statement (.cpwrPstate cluster value) := fun h => Bool.noConfusion h
theorem RoundTrip.pstateChangeComplete (cluster) : RoundTrip.Statement (.pstateChangeComplete cluster) := fun h => Bool.noConfusion h
theorem RoundTrip.cpwrCmax (cluster value) : RoundTrip.Statement (.cpwrCmax cluster value) := fun h => Bool.noConfusion h
theorem RoundTrip.cstateEntry (cluster) : RoundTrip.Statement (.cstateEntry cluster) := fun h => Bool.noConfusion h
theorem RoundTrip.clusterWake (cluster) : RoundTrip.Statement (.clusterWake cluster) := fun h => Bool.noConfusion h
theorem RoundTrip.powerThrottle (cluster watts) : RoundTrip.Statement (.powerThrottle cluster watts) := fun h => Bool.noConfusion h
theorem RoundTrip.powerThrottleRelease (watts) : RoundTrip.Statement (.powerThrottleRelease watts) := fun h => Bool.noConfusion h
theorem RoundTrip.thermalSample (die celsius) : RoundTrip.Statement (.thermalSample die celsius) := fun h => Bool.noConfusion h
theorem RoundTrip.refclkLoss (clock) : RoundTrip.Statement (.refclkLoss clock) := fun h => Bool.noConfusion h
theorem RoundTrip.railFault (rail) : RoundTrip.Statement (.railFault rail) := fun h => Bool.noConfusion h
theorem RoundTrip.coldReset : RoundTrip.Statement (.coldReset) := fun h => Bool.noConfusion h
theorem RoundTrip.warmReset : RoundTrip.Statement (.warmReset) := fun h => Bool.noConfusion h
theorem RoundTrip.resetRelease : RoundTrip.Statement (.resetRelease) := fun h => Bool.noConfusion h
theorem RoundTrip.bringupPhase (failure) : RoundTrip.Statement (.bringupPhase failure) := fun h => Bool.noConfusion h
theorem RoundTrip.registerWrite (offset value) : RoundTrip.Statement (.registerWrite offset value) := fun h => Bool.noConfusion h
theorem RoundTrip.fetchFault (cause) : RoundTrip.Statement (.fetchFault cause) := fun h => Bool.noConfusion h
theorem RoundTrip.softError (site) : RoundTrip.Statement (.softError site) := fun h => Bool.noConfusion h
theorem RoundTrip.translationObtained (slot code entries starts) : RoundTrip.Statement (.translationObtained slot code entries starts) := fun h => Bool.noConfusion h
end Sys2Proof.Laws
end

