-- ==== Sys2Proof/Tests/Slice0.lean ====
section
/-! SUPPORT. The model's own tests: words written out from the spec's encodings, the refusals of ill-formed terms, states that meet the
hypotheses of each statement, and single steps whose results are worked out by hand from the rules. -/

namespace Sys2Proof.Tests

open Sys2Proof Sys2Proof.Machine Sys2Proof.Safety

set_option Elab.async false

/-! ## Helpers -/

/-- Strand 0 of core 0 runs at user level, as it leaves Halted but for `f`. -/
def user (f : Strand → Strand := id) : State :=
  { State.reset with cur := { core := 0, num := 0 }, strands := [(0, f (Strand.fresh .running 0))] }

/-- The landing strand of core 0 runs. -/
def landing (f : Strand → Strand := id) : State :=
  { State.reset with cur := { core := 0, num := 4 }, strands := [(4, f (Strand.fresh .running 4))] }

/-- The standby strand of core 0 runs, at machine level. -/
def standby (f : Strand → Strand := id) : State :=
  { State.reset with cur := { core := 0, num := 5 }, strands := [(5, f { Strand.fresh .running 5 with ssw := 0x8007 })] }

/-- Registers `x5` to `x9`, with `x1` after them. -/
def xs (a b c d e : Word) (t : Strand) : Strand := { t with x := (t.x ++ [(5, a), (6, b), (7, c), (8, d), (9, e)]) }

theorem ready {s : State} {a : Accepts} {p : Bool} (h : (decide (s.me.himm.length ≤ a.himm) && (decide (s.me.hmod ≠ some true) || a.nofwd) &&
    (decide (s.me.hmod ≠ some false) || a.l1na) && (!s.me.pp || (a.fmt && !fmtBad s.me.fmtp.toNat)) && (!p || decide (s.myLevel ≠ .user)) &&
    s.me.got.isEmpty) = true) :
    Ready s a p := by
  simp only [Bool.and_eq_true, Bool.or_eq_true, decide_eq_true_eq, Bool.not_eq_true', List.isEmpty_iff] at h
  obtain ⟨⟨⟨⟨⟨h1, h2⟩, h3⟩, h4⟩, h5⟩, h6⟩ := h
  unfold Ready
  refine ⟨h1, ?_, ?_, ?_, ?_, h6⟩
  · intro e; exact h2.resolve_left (fun n => n e)
  · intro e; exact h3.resolve_left (fun n => n e)
  · intro e; rcases h4 with n | n
    · rw [e] at n; cases n
    · exact n
  · intro e; rcases h5 with n | n
    · rw [e] at n; cases n
    · exact n

/-- Nothing stands in front of the word, and none of it is made: every word accepts that. -/
theorem bare {s : State} {a : Accepts} (h : s.me.himm = [] ∧ s.me.hmod = none ∧ s.me.pp = false ∧ s.me.got = []) : Ready s a false := by
  obtain ⟨h1, h2, h3, h4⟩ := h
  exact ⟨by simp [h1], by simp [h2], by simp [h2], by simp [h3], nofun, h4⟩

theorem unheldAll {s : State} {l : List (Nat × Nat)} (h : l.all (fun r => !s.fenced s.cur r.1 r.2) = true) : UnheldAll s l :=
  fun r m => by simpa using List.all_eq_true.mp h r m

theorem keyFits_shared : KeyFits Cred.shared := fun _ h => by cases h

/-- The result is there and satisfies `p`. -/
def okAnd {ε α : Type} (x : Except ε α) (p : α → Bool) : Bool :=
  match x with
  | .ok a => p a
  | .error _ => false

/-- The target is memory, at a place that satisfies `p`. -/
def memAnd (g : Target) (p : Place → Bool) : Bool :=
  match g with
  | .mem q => p q
  | _ => false

theorem ok_of {ε α : Type} {x : Except ε α} {p : α → Bool} (h : okAnd x p = true) :
    ∃ a, x = .ok a ∧ p a = true := by
  cases x with
  | ok a => exact ⟨a, rfl, h⟩
  | error e => cases h

theorem some_of {ε α : Type} {x : Except ε α} (h : x.isOk = true) : ∃ a, x = .ok a := by
  cases x with
  | ok a => exact ⟨a, rfl⟩
  | error e => cases h

theorem unit_of {ε : Type} {x : Except ε Unit} (h : x.isOk = true) : x = .ok () := by
  cases x with
  | ok a => rfl
  | error e => cases h

/-- A live context, pageable or not, whose key is slot 3 at epoch 1 and whose tables are empty. -/
def live (pageable : Bool) : Context :=
  { st := .active, pageable := pageable, hentry := 0x4000, root := 0x100000, saveBase := 0x200000, fqBase := 0x300000, slot := 3, epoch := 1, attached := 4,
    posted := [], dropLog := none }

/-- Cores 0 to 3 are group 1 of context 7. Virtual pages 16 to 21 map to frames 0x30, 0x32 (shadowed, paired with 0x33), 0x34,
0x35 (a sync page), the first of the hub region (a device page), and 0x36 (discardable). -/
def tenant (pageable : Bool := false) (f : Strand → Strand := id) : State :=
  let page (v leaf : Nat) : TlbEntry := { asid := 7, glob := false, base := v * 4096, size := 4096, leaf := BitVec.ofNat 64 leaf }
  { user f with
    cores := (List.range 4).map (fun k => (k, { CoreState.reset with group := some 1, tlb := if k = 0 then
      [page 16 0x3005F, page 17 (2 ^ 52 + 0x3205F), page 18 0x3405F, page 19 (2 ^ 53 + 0x3505F), page 20 (Config.hubBase + 0x25F), page 21 0x3645F] else [] }))
    contexts := [(7, live pageable)], keySlots := [(3, { epoch := 1, filled := 0, inUse := true }), (1023, { epoch := 1, filled := 0, inUse := true })]
    groups := [(1, { asid := 7, st := .active, extents := [(0, 4)], levels := 31, seed := 1, base := 0, gen := 0, spread := false, floods := [] })]
    partitions := [(0, [0])] }

theorem mem_of {ε : Type} {x : Except ε (Target × State)} {c : Place → State → Bool}
    (h : okAnd x (fun r => memAnd r.1 (fun p => c p r.2)) = true) : ∃ p s, x = .ok (.mem p, s) ∧ c p s = true := by
  obtain ⟨⟨g, s⟩, e, k⟩ := ok_of h
  cases g with
  | mem p => exact ⟨p, s, e, k⟩
  | reg o => cases k

/-- No control block and no fault queue lies in the memory of a state with no queue and a context that is not pageable. -/
theorem field_of {s : State} (h : s.queues = [] ∧ s.contexts = [(7, live false)]) (e : Host.Cell) : s.fieldCell e = some e := by
  simp [State.fieldCell, h, Context.fqHolds, live]

/-! ## States that meet the hypotheses -/

theorem hyp_RegisterOperations : Ready (user (xs 5 6 7 8 9)) plain false := ready (by decide)

theorem hyp_UnaryOperations : Ready (user (xs 0 1 2 3 4)) plain false := ready (by decide)

theorem hyp_ImmediateOperations : Ready (user) { himm := 2 } false ∧ Ready (user (fun t => { t with himm := [1] })) { himm := 2 } false ∧
    Ready (user (fun t => { t with himm := [1, 0xFFFFFF] })) { himm := 2 } false ∧ Ready user plain false :=
  ⟨ready (by decide), ready (by decide), ready (by decide), ready (by decide)⟩

theorem hyp_HintWords :
    (let s := user (fun t => { t with himm := [1] }); s.me.himm.length ≤ 1 ∧ s.me.hmod = none ∧ s.me.pp = false) ∧
    (let s := user; s.me.sched = false ∧ s.me.himm = [] ∧ s.me.hmod = none ∧ s.me.pp = false) ∧
    2 ≤ (user (fun t => { t with himm := [1, 2] })).me.himm.length ∧ (let s := user (fun t => { t with sched := true }); s.me.sched = true ∧ s.me.himm = [] ∧ s.me.hmod = none ∧ s.me.pp = false) ∧
    (user (fun t => { t with hmod := some false })).me.hmod ≠ none ∧ (user (fun t => { t with ssw := 0x800C })).me.pp = true := by decide

theorem hyp_ControlTransfers : Ready (user (xs 5 5 7 8 9)) plain false := ready (by decide)

theorem hyp_RegisterJumps :
    (let s := user (fun t => { t with x := [(1, 0x1002), (5, 0x1000), (6, 0x1001)] })
     Ready s plain false ∧ s.translatedHere = none ∧ (s.x 5).toNat % 4 = 0 ∧ (s.x 6).toNat % 4 ≠ 0 ∧ (s.x 1).toNat % 4 ≠ 0) ∧
    (let s := user; Ready s plain false ∧ s.translatedHere = none ∧ (s.x 1).toNat % 4 = 0) :=
  ⟨⟨ready (by decide), by decide, by decide, by decide, by decide⟩, ready (by decide), by decide, by decide⟩

/-- A standby strand whose `x5` is the address of the second word of a page of stacked DRAM that holds something. -/
def memory (f : Strand → Strand := id) : State :=
  let s := standby (fun t => f (xs 0x20008 0 3 8 1 t))
  { s with mem := { s.mem with bytes := [(0x20008, 0x85), (0x2000F, 0x80)], keys := [(0x800, .shared)] } }

theorem whole {s : State} (h : (s.cut.isNone && s.replay.isEmpty) = true) : Whole s := by
  simp only [Bool.and_eq_true, Option.isNone_iff_eq_none, List.isEmpty_iff] at h
  exact h

theorem is_of {ε α : Type} [DecidableEq α] {x : Except ε α} {a : α} (h : okAnd x (fun b => decide (b = a)) = true) : x = .ok a := by
  obtain ⟨b, e, k⟩ := ok_of h
  rw [e, of_decide_eq_true k]

/-- The target is the register space, at an offset. -/
def atOff (g : Target) (off : Nat) : Bool :=
  match g with
  | .reg o => o == off
  | _ => false

theorem reg_of {ε : Type} {x : Except ε (Target × State)} {off : Nat} (h : okAnd x (fun r => atOff r.1 off) = true) : ∃ s, x = .ok (.reg off, s) := by
  obtain ⟨⟨g, s⟩, e, k⟩ := ok_of h
  cases g with
  | mem p => cases k
  | reg o =>
    have : o = off := by simpa [atOff] using k
    exact ⟨s, this ▸ e⟩

/-- Strand 0 of core 0 at the register space of its own window. -/
def regSpace (off : Nat) : State := user (xs (BitVec.ofNat 64 (Config.selfWindowBase + off)) 0 3 8 1)

theorem hyp_ScalarLoads :
    (∀ e ∈ [(memory, 0x20008), (tenant false (xs 0x14000 0 0 0 0), 0x14000), (tenant false (xs 0x11000 0 0 0 0), 0x11000), (tenant false (xs 0x15000 0 0 0 0), 0x15000)],
      ∃ (p : Place) (s' : State), Whole e.1 ∧ Ready e.1 (loadAccepts 1) false ∧ Ready e.1 (loadAccepts 0) false ∧
        (e.1.x 5 + e.1.me.disp 0 8).toNat = e.2 ∧ e.2 % 8 = 0 ∧ Unheld e.1 e.2 8 ∧ e.1.reach e.2 8 .read false = .ok (.mem p, s') ∧
        s'.admits p 8 .read = .ok () ∧ s'.placeHeld p false = false) ∧
    (∀ off ∈ [0x80028, 0x80300, 0x80400, 0x80420], let s := regSpace off
      ∃ s', Whole s ∧ Ready s (loadAccepts 1) false ∧ (s.x 5 + s.me.disp 0 8).toNat % 8 = 0 ∧ Unheld s (s.x 5 + s.me.disp 0 8).toNat 8 ∧
        s.reach (s.x 5 + s.me.disp 0 8).toNat 8 .read false = .ok (.reg off, s')) ∧
    regNamed 32 0x80028 8 = some (.x 5, 0) ∧ regNamed 32 0x80300 8 = none ∧ regNamed 32 0x80400 8 = some (.csr 0, 0) ∧
    csrDenied .user false 0 = false ∧ regNamed 32 0x80420 8 = some (.csr 4, 0) ∧ csrDenied .user false 4 = true := by
  refine ⟨?_, ?_, by decide⟩
  · intro e he
    have k : (decide (e.1.cut = none) && decide (e.1.replay = []) && decide (e.1.me.himm = [] ∧ e.1.me.hmod = none ∧ e.1.me.pp = false ∧ e.1.me.got = []) && decide ((e.1.x 5 + e.1.me.disp 0 8).toNat = e.2) && decide (e.2 % 8 = 0) && !e.1.fenced e.1.cur e.2 (e.2 + 8) &&
        okAnd (e.1.reach e.2 8 .read false) (fun r => memAnd r.1 (fun p => (r.2.admits p 8 .read).isOk && !r.2.placeHeld p false))) = true := by
      revert e; decide +kernel
    simp only [Bool.and_eq_true, decide_eq_true_eq, Bool.not_eq_true'] at k
    obtain ⟨⟨⟨⟨⟨⟨k1, k2⟩, k3⟩, k7⟩, k8⟩, k9⟩, k10⟩ := k
    obtain ⟨p, s', h, q⟩ := mem_of (c := fun p t => (t.admits p 8 .read).isOk && !t.placeHeld p false) k10
    simp only [Bool.and_eq_true, Bool.not_eq_true'] at q
    refine ⟨p, s', ⟨k1, k2⟩, bare k3, bare k3, k7, k8, k9, h,
      unit_of q.1, q.2⟩
  · intro off ho
    have k : (decide ((regSpace off).me.himm = [] ∧ (regSpace off).me.hmod = none ∧ (regSpace off).me.pp = false ∧ (regSpace off).me.got = []) && decide (((regSpace off).x 5 + (regSpace off).me.disp 0 8).toNat % 8 = 0) &&
        !(regSpace off).fenced (regSpace off).cur ((regSpace off).x 5 + (regSpace off).me.disp 0 8).toNat (((regSpace off).x 5 + (regSpace off).me.disp 0 8).toNat + 8) &&
        okAnd ((regSpace off).reach ((regSpace off).x 5 + (regSpace off).me.disp 0 8).toNat 8 .read false) (fun r => atOff r.1 off)) = true := by
      revert off; decide +kernel
    simp only [Bool.and_eq_true, decide_eq_true_eq, Bool.not_eq_true'] at k
    obtain ⟨s', h⟩ := reg_of k.2
    exact ⟨s', ⟨rfl, rfl⟩, bare k.1.1.1, k.1.1.2, k.1.2, h⟩

theorem hyp_ScalarStores :
    (∀ e ∈ [(memory, 0x20008), (tenant false (xs 0x14000 0 0 0 0), 0x14000), (tenant false (xs 0x11000 0 0 0 0), 0x11000), (tenant false (xs 0x13000 0 0 0 0), 0x13000)],
      ∃ (p : Place) (s' : State), Whole e.1 ∧ Ready e.1 (storeAccepts 1) false ∧ Ready e.1 (storeAccepts 0) false ∧
        (e.1.x 5 + e.1.me.disp 0 8).toNat = e.2 ∧ e.2 % 8 = 0 ∧ Unheld e.1 e.2 8 ∧ e.1.reach e.2 8 .write false = .ok (.mem p, s') ∧
        (p.sync = true ↔ e.2 = 0x13000) ∧ (p.ca = 2 ↔ e.2 = 0x14000) ∧ s'.placeHeld p true = false) ∧
    (∀ off ∈ [0x80028, 0x80108, 0x80210, 0x81080, 0x80300, 0x80408, 0x80440], let s := regSpace off
      ∃ s', Whole s ∧ Ready s (storeAccepts 1) false ∧ (s.x 5 + s.me.disp 0 8).toNat % 8 = 0 ∧ Unheld s (s.x 5 + s.me.disp 0 8).toNat 8 ∧
        s.reach (s.x 5 + s.me.disp 0 8).toNat 8 .write false = .ok (.reg off, s')) ∧
    regNamed 32 0x80028 8 = some (.x 5, 0) ∧ regNamed 32 0x80108 8 = some (.s 1, 0) ∧ regNamed 32 0x80210 8 = some (.m 1, 0) ∧
    regNamed 32 0x81080 8 = some (.v 1, 0) ∧ regNamed 32 0x80300 8 = none ∧ regNamed 32 0x80408 8 = some (.csr 1, 0) ∧ csrDenied .user true 1 = true ∧
    regNamed 32 0x80440 8 = some (.csr 8, 0) ∧ csrDenied .user true 8 = false ∧ ∃ u, (regSpace 0x80440).csrWrite 8 64 = .ok u := by
  refine ⟨?_, ?_, by decide, by decide, by decide, by decide, by decide, by decide, by decide, by decide, by decide, some_of (by decide)⟩
  · intro e he
    have k : (decide (e.1.cut = none) && decide (e.1.replay = []) && decide (e.1.me.himm = [] ∧ e.1.me.hmod = none ∧ e.1.me.pp = false ∧ e.1.me.got = []) && decide ((e.1.x 5 + e.1.me.disp 0 8).toNat = e.2) && decide (e.2 % 8 = 0) && !e.1.fenced e.1.cur e.2 (e.2 + 8) &&
        okAnd (e.1.reach e.2 8 .write false) (fun r => memAnd r.1 (fun p => decide (p.sync = true ↔ e.2 = 0x13000) && decide (p.ca = 2 ↔ e.2 = 0x14000) &&
          !r.2.placeHeld p true))) = true := by
      revert e; decide +kernel
    simp only [Bool.and_eq_true, decide_eq_true_eq, Bool.not_eq_true'] at k
    obtain ⟨⟨⟨⟨⟨⟨k1, k2⟩, k3⟩, k7⟩, k8⟩, k9⟩, k10⟩ := k
    obtain ⟨p, s', h, q⟩ := mem_of (c := fun p t => decide (p.sync = true ↔ e.2 = 0x13000) && decide (p.ca = 2 ↔ e.2 = 0x14000) && !t.placeHeld p true) k10
    simp only [Bool.and_eq_true, decide_eq_true_eq, Bool.not_eq_true'] at q
    refine ⟨p, s', ⟨k1, k2⟩, bare k3, bare k3, k7, k8, k9, h,
      q.1.1, q.1.2, q.2⟩
  · intro off ho
    have k : (decide ((regSpace off).me.himm = [] ∧ (regSpace off).me.hmod = none ∧ (regSpace off).me.pp = false ∧ (regSpace off).me.got = []) && decide (((regSpace off).x 5 + (regSpace off).me.disp 0 8).toNat % 8 = 0) &&
        !(regSpace off).fenced (regSpace off).cur ((regSpace off).x 5 + (regSpace off).me.disp 0 8).toNat (((regSpace off).x 5 + (regSpace off).me.disp 0 8).toNat + 8) &&
        okAnd ((regSpace off).reach ((regSpace off).x 5 + (regSpace off).me.disp 0 8).toNat 8 .write false) (fun r => atOff r.1 off)) = true := by
      revert off; decide +kernel
    simp only [Bool.and_eq_true, decide_eq_true_eq, Bool.not_eq_true'] at k
    obtain ⟨s', h⟩ := reg_of k.2
    exact ⟨s', ⟨rfl, rfl⟩, bare k.1.1.1, k.1.1.2, k.1.2, h⟩

/-- Core 0 holds one store of strand 0, to two bytes of a word, and one of strand 1 after it. -/
def buffered : State :=
  let b : BufStore := { num := 0, id := 7, born := 7, leaf := none, cells := [(0x20008, 1), (0x20009, 2)], cred := .shared }
  { memory with cores := [(0, { CoreState.reset with buffer := [b, { b with num := 1, cells := [(0x20008, 9)] }] })] }

theorem hyp_StoreEntersMemory : ∃ b rest, takeFirst (fun b => b.num == 0) (buffered.core 0).buffer = some (b, rest) ∧
    (∀ a ∈ (buffered.core 0).buffer.takeWhile (fun a => a.id != b.id), buffered.readBoth 0 a b = false) ∧ buffered.waiters = [] ∧
    KeyFits b.cred ∧ (∀ e ∈ b.cells, ∀ e' ∈ b.cells, e.1 = e'.1 → e = e') :=
  ⟨{ num := 0, id := 7, born := 7, leaf := none, cells := [(0x20008, 1), (0x20009, 2)], cred := .shared }, _, rfl, by decide, rfl, keyFits_shared, by decide⟩

theorem home_of {s : State} {ea n : Nat} {c : Place → State → Bool} (h : okAnd (s.reachHome ea n) (fun r => c r.1 r.2) = true) :
    ∃ p t, s.reachHome ea n = .ok (p, t) ∧ c p t = true := by
  obtain ⟨⟨p, t⟩, e, k⟩ := ok_of h
  exact ⟨p, t, e, k⟩

theorem hyp_AtomicOperations : ∃ p s', Ready memory plain false ∧ Unheld memory 0x20008 8 ∧ memory.reachHome 0x20008 8 = .ok (p, s') ∧
    Unheld memory 0x20008 4 ∧ (memory.x 5).toNat = 0x20008 := by
  obtain ⟨p, t, e, _⟩ := home_of (s := memory) (ea := 0x20008) (n := 8) (c := fun _ _ => true) (by decide +kernel)
  exact ⟨p, t, ready (by decide), by unfold Unheld; decide, e, by unfold Unheld; decide, by decide⟩

/-- Strand 0 of core 0, at user level, with `x5` and `x6` the addresses of two words of its scratchpad, of which the second is empty. -/
def spad (f : Strand → Strand := id) : State :=
  let s := user (fun t => f (xs 0xFC0000000000 0xFC0000000008 3 4 5 t))
  { s with mem := { s.mem with empty := [spadLoc 0 8 / 8], owners := [(spadLoc 0 0 / 4096, .noContext)] } }

theorem hyp_FullEmptyOperations :
    (∃ p s', Ready spad plain false ∧ Unheld spad (spad.x 5).toNat 8 ∧ spad.reachHome (spad.x 5).toNat 8 = .ok (p, s') ∧ s'.waiters = [] ∧
      spad.cur.num < 4 ∧ p.loc % 8 = 0 ∧ KeyFits p.cred ∧ s'.mem.full s'.free p.cred p.loc = true) ∧
    (∃ p s', Ready spad plain false ∧ Unheld spad (spad.x 6).toNat 8 ∧ spad.reachHome (spad.x 6).toNat 8 = .ok (p, s') ∧ s'.waiters = [] ∧
      spad.cur.num < 4 ∧ p.loc % 8 = 0 ∧ KeyFits p.cred ∧ s'.mem.full s'.free p.cred p.loc = false) := by
  constructor
  · obtain ⟨p, t, e, k⟩ := home_of (s := spad) (ea := (spad.x 5).toNat) (n := 8) (c := fun p t => decide (t.waiters = []) && decide (p.loc % 8 = 0) &&
      decide (p.cred = .shared) && t.mem.full t.free p.cred p.loc) (by decide +kernel)
    simp only [Bool.and_eq_true, decide_eq_true_eq] at k
    exact ⟨p, t, ready (by decide), by unfold Unheld; decide, e, k.1.1.1, by decide, k.1.1.2, k.1.2 ▸ keyFits_shared, k.2⟩
  · obtain ⟨p, t, e, k⟩ := home_of (s := spad) (ea := (spad.x 6).toNat) (n := 8) (c := fun p t => decide (t.waiters = []) && decide (p.loc % 8 = 0) &&
      decide (p.cred = .shared) && !t.mem.full t.free p.cred p.loc) (by decide +kernel)
    simp only [Bool.and_eq_true, decide_eq_true_eq, Bool.not_eq_true'] at k
    exact ⟨p, t, ready (by decide), by unfold Unheld; decide, e, k.1.1.1, by decide, k.1.1.2, k.1.2 ▸ keyFits_shared, k.2⟩

theorem hyp_AccessChecks : let s := user (xs 0x1001 0 0 0 0); Ready s (loadAccepts 1) false ∧ Ready s (loadAccepts 0) false ∧
    Ready s (storeAccepts 1) false ∧ Ready s (storeAccepts 0) false ∧ Ready s plain false ∧ (s.x 5 + s.me.disp 0 2).toNat % 2 ≠ 0 ∧
    (s.x 5 + s.x 6 * 8).toNat % 8 ≠ 0 ∧ (s.x 5).toNat % 4 ≠ 0 ∧ Unheld s 0x1001 8 ∧ (s.x 5).toNat = 0x1001 :=
  ⟨ready (by decide), ready (by decide), ready (by decide), ready (by decide), ready (by decide), by decide, by decide, by decide,
    by unfold Unheld; decide, by decide⟩

/-! ### Elastic and vector words -/

theorem hyp_ElasticArithmetic : let s := user
    Ready s plain false ∧ s.me.sources [1] [2] = .ok [.zero false] ∧ s.me.sources [1] [2, 3] = .ok [.zero false, .zero false] ∧
    s.me.sources [1] [2, 3, 4] = .ok [.zero false, .zero false, .zero false] ∧ s.me.sources [1, 5] [2, 3] = .ok [.zero false, .zero false] ∧
    (ElOp.fma.run s.me.p s.me.rm (.zero false) (.zero false) (.zero false)).cause s.me.nte = none ∧
    (ElOp.add.run s.me.p s.me.rm (.zero false) (.zero false) (.zero false)).cause s.me.nte = none ∧
    (twoResult true s.me.p (.zero false) (.zero false)).1.cause s.me.nte = none :=
  ⟨ready (by decide), is_of (by decide), is_of (by decide), is_of (by decide), is_of (by decide), by decide, by decide, by decide⟩

theorem hyp_ElasticComparisons : let s := user
    Ready s plain false ∧ Ready s { fmt := true } false ∧ s.me.sources [] [2, 3] = .ok [.zero false, .zero false] ∧
    s.me.sources [] [2] = .ok [.zero false] ∧ (intResult (toInt s.me.mode 0 (2 ^ 64 - 1) (.zero false))).cause s.me.nte = none ∧
    (bitsResult (elToIeee (fmtOf 8) s.me.mode false (.zero false))).cause s.me.nte = none :=
  ⟨ready (by decide), ready (by decide), is_of (by decide), is_of (by decide), by decide, by decide⟩

theorem hyp_ElasticFromIntegers : let s := user (xs 5 6 64 224 225)
    Ready s plain false ∧ Ready s { fmt := true } false ∧ s.me.sources [1] [] = .ok [] ∧
    (elRound s.me.p s.me.mode (Val.ofInt (s.x 5).toInt)).cause s.me.nte = none ∧ (s.x 5).toNat = 5 ∧ (s.x 6).toNat = 6 ∧
    (s.x 9).toNat = 225 ∧ (∃ r, s.me.relay (s.x 7).toNat (min (elCount s.me.p) (elCount 64)) = .ok r) ∧
    ∃ r, s.me.relay (s.x 8).toNat (min (elCount s.me.p) (elCount 224)) = .ok r := by
  refine ⟨ready (by decide), ready (by decide), is_of (by decide), by decide, by decide, by decide, by decide, ?_, ?_⟩
  · obtain ⟨r, e, _⟩ := ok_of (x := (user (xs 5 6 64 224 225)).me.relay ((user (xs 5 6 64 224 225)).x 7).toNat (min (elCount (user (xs 5 6 64 224 225)).me.p) (elCount 64))) (p := fun _ => true) (by decide +kernel)
    exact ⟨r, e⟩
  · obtain ⟨r, e, _⟩ := ok_of (x := (user (xs 5 6 64 224 225)).me.relay ((user (xs 5 6 64 224 225)).x 8).toNat (min (elCount (user (xs 5 6 64 224 225)).me.p) (elCount 224))) (p := fun _ => true) (by decide +kernel)
    exact ⟨r, e⟩

/-- The word at `0x20008` starts a record of +0 of length 4, and the one at `0x20010` a record of length 0. -/
def records : State := { memory with mem := { memory.mem with bytes := [(0x2000B, 0x24)] } }

theorem hyp_ElasticRecords :
    let s := records
    Whole s ∧ s.hub.busy = 0 ∧
    (∃ r, s.recordBytes 0x20010 4 false = .ok r ∧ elN (leNat r.1) = 0) ∧ (s.x 5 + s.me.disp12 8).toNat = 0x20010 ∧
    (∃ r, s.recordBytes 0x20008 4 false = .ok r ∧ elN (leNat r.1) = 4) ∧ Ready s { himm := 1, nofwd := true } false ∧ s.me.existF [3] = .ok () ∧
    (s.x 5 + s.me.disp12 0).toNat = 0x20008 ∧ Unheld s 0x20008 8 ∧
    (∃ r, s.recordBytes 0x20008 8 false = .ok r ∧ elBad (leNat r.1) = false ∧ r.2.me.p = s.me.p ∧
      (elRound s.me.p s.me.rm (elDecode (leNat r.1))).cause r.2.me.nte = none) ∧
    s.me.sources [] [3] = .ok [.zero false] ∧ Ready s { himm := 1 } false ∧
    (∃ u, s.storeBytes 0x20008 (leBytes 8 (elEncode s.me.p (.zero false))) = .ok u) ∧
    ∃ p : Place, Plain p ∧ [(1 : Byte), 2, 3].length = ([(p, 3)].map (·.2)).sum := by
  refine ⟨whole (by decide), by decide, ?_, by decide, ?_, ready (by decide), unit_of (by decide), by decide, by unfold Unheld; decide, ?_, is_of (by decide), ready (by decide), ?_, ?_⟩
  · obtain ⟨r, e, k⟩ := ok_of (x := records.recordBytes 0x20010 4 false) (p := fun r => decide (elN (leNat r.1) = 0)) (by decide +kernel)
    exact ⟨r, e, of_decide_eq_true k⟩
  · obtain ⟨r, e, k⟩ := ok_of (x := records.recordBytes 0x20008 4 false) (p := fun r => decide (elN (leNat r.1) = 4)) (by decide +kernel)
    exact ⟨r, e, of_decide_eq_true k⟩
  · obtain ⟨r, e, k⟩ := ok_of (x := records.recordBytes 0x20008 8 false) (p := fun r => decide (elBad (leNat r.1) = false ∧ r.2.me.p = records.me.p ∧
      (elRound records.me.p records.me.rm (elDecode (leNat r.1))).cause r.2.me.nte = none)) (by decide +kernel)
    exact ⟨r, e, of_decide_eq_true k⟩
  · obtain ⟨r, e, k⟩ := ok_of (x := records.storeBytes 0x20008 (leBytes 8 (elEncode records.me.p (.zero false)))) (p := fun _ => true) (by decide +kernel)
    exact ⟨r, e⟩
  · exact ⟨{ leaf := none, loc := 0x20000, va := 0, cred := .shared, ca := 0, disc := false, shadow := false, sync := false, window := false }, by unfold Plain; decide, rfl⟩

theorem hyp_VectorIntegers : Ready user plain false := ready (by decide)

theorem hyp_VectorDotAndPermutes : Ready user { fmt := true } false ∧ Ready user plain false ∧ user.me.afmt 0 ≤ 1 ∧ user.me.bfmt 0 ≤ 1 ∧
    (let s := user (fun t => { t with fmtp := 2 <<< 20, ssw := 0x800C }); Ready s { fmt := true } false ∧ 1 < s.me.afmt 0) :=
  ⟨ready (by decide), ready (by decide), by decide, by decide, ready (by decide), by decide⟩

theorem hyp_VectorReductionsAndMasks : Ready user plain false := ready (by decide)

theorem hyp_VectorFloats : Ready user { fmt := true } false ∧ (ElOp.add.ieee (fmtOf 5) 0 false 0 0 0).cause user.me.nte = none ∧
    (ieeeToIeee (fmtOf 8) (fmtOf 6) 0 false 0).cause user.me.nte = none := ⟨ready (by decide), by decide, by decide⟩

/-- Every lane of `v1`, `v2` and `v3` holds a +0 of length 4. -/
def zeros : State :=
  user (fun t => { t with v := [(1, granules), (2, granules), (3, granules)], m := [(1, BitVec.ofNat 128 (2 ^ 128 - 1))] })
where granules : VWord := BitVec.ofNat 1024 ((List.range 16).foldl (fun n i => n + 0x24000000 * 2 ^ (64 * i)) 0)

theorem hyp_VectorElastic : Ready zeros plain false ∧ Ready zeros { fmt := true } false ∧
    (∀ i ∈ List.range 16, elBadAt zeros.me.p (elem (zeros.v 1) 8 i).toNat = false ∧ elBadAt zeros.me.p (elem (zeros.v 2) 8 i).toNat = false) ∧
    laneWidth zeros.me.p = 8 ∧ lanes zeros.me.p = 16 ∧ (ElOp.fma.run 32 0 (.zero false) (.zero false) (.zero false)).cause zeros.me.nte = none ∧
    (windowSum 32 0 [.zero false, .zero false]).cause zeros.me.nte = none ∧ (windowIeee (fmtOf 5) 0 [.zero false]).cause zeros.me.nte = none :=
  ⟨ready (by decide), ready (by decide), by decide +kernel, by decide, by decide, by decide +kernel, by decide +kernel, by decide +kernel⟩

/-- `memory` with the two lowest elements of 8 bytes active in `m1`, `v8` an index vector of 0 and 1, and `x6` 16. -/
def gathers : State := memory (fun t => { t with m := [(1, 0x0101)], v := [(2, BitVec.ofNat 1024 (2 ^ 64))], x := (t.x ++ [(10, 16)]) })

def gatherUnit : List (Nat × Nat) := [(0, 0x20008), (1, 0x20010)]

theorem hyp_VectorLoads : Ready gathers { nofwd := true, l1na := true } false ∧ Ready gathers { nofwd := true } false ∧
    (List.range 16).filter (fun i => (gathers.m 1).getLsbD (8 * i)) = [0, 1] ∧
    ([0, 1].map (fun i => (i, (gathers.x 5 + BitVec.ofNat 64 (i * 8)).toNat)) = gatherUnit) ∧ gatherUnit ≠ [] ∧
    ([0, 1].map (fun i => (i, (gathers.x 5 + BitVec.ofNat 64 i * gathers.x 10).toNat)) = [(0, 0x20008), (1, 0x20018)]) ∧
    ([0, 1].map (fun i => (i, (gathers.x 5 + (elem (gathers.v 2) 8 i).signExtend 64 * BitVec.ofNat 64 8).toNat)) = gatherUnit) ∧
    gathers.unitFoot 8 gatherUnit = .memory ∧ UnheldAll gathers (elementRanges 8 gatherUnit) ∧
    (∃ ps s' r, gathers.elementPlaces 8 .read gatherUnit = .ok (ps, s') ∧ s'.loadLines 8 false {} (lineGroups 8 ps) = .ok r) ∧
    (∃ ps s' r, gathers.footPlaces 8 .read [(0, 0x20008), (1, 0x20018)] = .ok (ps, s') ∧ s'.loadElems 8 false {} ps = .ok r) ∧
    gathers.me.vHints = {} ∧ gathers.cut = none ∧ gathers.footCheck 8 8 gatherUnit = .ok () ∧ gathers.gatherChecks 8 gatherUnit = .ok () ∧ gatherUnit.filter (fun e => gathers.present 8 e.2) = gatherUnit := by
  refine ⟨ready (by decide), ready (by decide), by decide, by decide, by decide, by decide, by decide +kernel, by decide, unheldAll (by decide), ?_, ?_,
    rfl, rfl, unit_of (by decide), unit_of (by decide), by decide⟩
  · obtain ⟨⟨ps, s'⟩, e, k⟩ := ok_of (x := gathers.elementPlaces 8 .read gatherUnit)
      (p := fun r => (r.2.loadLines 8 false {} (lineGroups 8 r.1)).isOk) (by decide +kernel)
    obtain ⟨r, h⟩ := some_of k
    exact ⟨ps, s', r, e, h⟩
  · obtain ⟨⟨ps, s'⟩, e, k⟩ := ok_of (x := gathers.footPlaces 8 .read [(0, 0x20008), (1, 0x20018)])
      (p := fun r => (r.2.loadElems 8 false {} r.1).isOk) (by decide +kernel)
    obtain ⟨r, h⟩ := some_of k
    exact ⟨ps, s', r, e, h⟩

theorem hyp_VectorStores : Whole gathers ∧ Ready gathers { l1na := true } false ∧ Ready gathers plain false ∧ Ready gathers { nofwd := true, l1na := true } false ∧
    gathers.unitFoot 8 gatherUnit = .memory ∧ gathers.footCheck 8 8 gatherUnit = .ok () ∧ UnheldAll gathers (elementRanges 8 gatherUnit) ∧ gatherUnit ≠ [] ∧
    gathers.hub.busy = 0 ∧
    (∃ r, gathers.elementPlaces 8 .write gatherUnit = .ok r ∧ ∀ q ∈ r.1, Plain q.2) ∧
    (List.range 16).filter (fun i => (user.m 1).getLsbD (8 * i)) = [] := by
  refine ⟨whole (by decide), ready (by decide), ready (by decide), ready (by decide), by decide, unit_of (by decide), unheldAll (by decide), by decide, by decide, ?_, by decide⟩
  obtain ⟨r, e, k⟩ := ok_of (x := gathers.elementPlaces 8 .write gatherUnit) (p := fun r => decide (∀ q ∈ r.1, q.2.ca ≠ 2))
    (by decide +kernel)
  have h := of_decide_eq_true k
  exact ⟨r, e, h⟩

/-- As `gathers`, with the first two lanes of `v2` +0 of length 4 and such records in memory. -/
def laneRecords : State :=
  { memory (fun t => { t with m := [(1, 0x0101)], v := [(2, BitVec.ofNat 1024 (0x24000000 + 0x24000000 * 2 ^ 64))], x := (t.x ++ [(10, 8)]) }) with
    mem := { memory.mem with bytes := [(0x2000B, 0x24), (0x20013, 0x24)] } }

theorem hyp_VectorRecords : Whole laneRecords ∧ laneRecords.hub.busy = 0 ∧ Ready laneRecords plain false ∧ (List.range (lanes laneRecords.me.p)).filter (fun i => (laneRecords.m 1).getLsbD (8 * i)) = [0, 1] ∧
    ([0, 1].map (fun i => (i, (laneRecords.x 5 + BitVec.ofNat 64 i * laneRecords.x 10).toNat)) = gatherUnit) ∧
    UnheldAll laneRecords (gatherUnit.map (fun e => (e.2, e.2 + 4))) ∧ UnheldAll laneRecords (gatherUnit.map (fun e => laneRecords.laneRange e.2)) ∧
    (∃ r, laneRecords.footRecords gatherUnit = .ok r ∧ ∀ e ∈ r.1, (elRound laneRecords.me.p laneRecords.me.rm e.2).cause laneRecords.me.nte = none) ∧
    (∀ i ∈ [0, 1], elBadAt laneRecords.me.p (elem (laneRecords.v 2) 8 i).toNat = false) ∧ UnheldAll laneRecords (elementRanges 8 gatherUnit) ∧
    ∃ r, laneRecords.footLanes 8 gatherUnit = .ok r ∧ ∀ e ∈ r.1, ∀ q ∈ e.2, Plain q.1 := by
  refine ⟨whole (by decide), by decide, ready (by decide), by decide, by decide, unheldAll (by decide), unheldAll (by decide +kernel), ?_, by decide +kernel, unheldAll (by decide), ?_⟩
  · obtain ⟨r, e, k⟩ := ok_of (x := laneRecords.footRecords gatherUnit) (p := fun r => decide (∀ e ∈ r.1,
      (elRound laneRecords.me.p laneRecords.me.rm e.2).cause laneRecords.me.nte = none)) (by decide +kernel)
    exact ⟨r, e, of_decide_eq_true k⟩
  · obtain ⟨r, e, k⟩ := ok_of (x := laneRecords.footLanes 8 gatherUnit) (p := fun r => decide (∀ e ∈ r.1, ∀ q ∈ e.2, q.1.ca ≠ 2))
      (by decide +kernel)
    have h := of_decide_eq_true k
    exact ⟨r, e, h⟩

/-! ### Tiles -/

/-- Strand 0 of core 0, bound to engine 0, with `x5` 1 k-block of 64 and strides of 64, `x6` and `x7` the first and the second half of
the scratchpad's lowest 8 KiB, `x8` 0 and `x9` 5. -/
def bound (f : Strand → Strand := id) : State :=
  let s := user (fun t => f (xs 0x0040004000000040 0xFC0000000000 0xFC0000001000 0 5 { t with tile := some (TileCtx.bound 0) }))
  { s with engines := [(0, { Engine.reset with bound := [0] })] }

theorem hyp_TileBinding : let s := user (xs 3 4 767 768 5)
    Ready s plain false ∧ s.me.tile = none ∧ (s.x 5).toNat / 4 = s.cur.core % 1024 / 4 ∧ (s.engine 3).bound.length < 6 ∧
    (s.x 7).toNat / 4 ≠ s.cur.core % 1024 / 4 ∧ 767 < (s.x 8).toNat ∧ (s.x 5).toNat ≤ 767 ∧
    Ready bound plain false ∧ bound.me.tile = some (TileCtx.bound 0) ∧ (bound.engine 0).bound.length < 8 ∧
    6 ≤ (({ s with engines := [(3, { Engine.reset with bound := [1, 2, 3, 4, 5, 6] })] } : State).engine 3).bound.length :=
  ⟨ready (by decide), by decide, by decide, by decide, by decide, by decide, by decide, ready (by decide), rfl, by decide, by decide⟩

/-- The sums of a block whose cells all raise nothing. -/
theorem mulTrap_none {p p' : MulParams} {t : TileCtx} {n r0 c0 : Nat} {as bs : List (List Val)} {nte : Bool} {tc : Word}
    (h : ∀ i j, i < n → j < n → (cellSum (decide (p.fa ≤ 1)) p.q p.rm (as.getD i []) (bs.getD j []) (cellVal (t.cell (r0 + i) (c0 + j)))).1.cause nte = none) :
    mulTrap p' nte tc (mulBlock p t n r0 c0 as bs) = none := by
  have all : ∀ r ∈ (mulBlock p t n r0 c0 as bs).map (fun r => (r.1, r.2.1)), r.2.cause nte = none := by
    intro r m
    simp only [mulBlock, List.map_map, List.mem_map, List.mem_range] at m
    obtain ⟨k, hk, rfl⟩ := m
    have n0 : 0 < n := by
      rcases Nat.eq_zero_or_pos n with e | e
      · subst e; simp at hk
      · exact e
    exact h (k / n) (k % n) (Nat.div_lt_of_lt_mul hk) (Nat.mod_lt _ n0)
  have none_ : ∀ c : Cause, ((mulBlock p t n r0 c0 as bs).map (fun r => (r.1, r.2.1))).find? (fun r => r.2.cause nte == some c) = none := by
    intro c
    rw [List.find?_eq_none]
    intro r m
    rw [all r m]
    simp
  unfold mulTrap firstCause
  rw [none_ 0x50]
  simp only [none_ 0x40]

/-- Strand 0 of core 0, whose scratchpad begins with a row of native cells, each a +0 of length 1, and zeros after it. -/
def natives : State :=
  { user with mem := { Mem.reset with bytes := (List.range 16).map (fun j => (spadLoc 0 (12 * j) + 3, 0x21)), owners := [(spadLoc 0 0 / 4096, .noContext)] } }

theorem hyp_TileArithmetic :
    let c := TileCtx.bound 0
    (∀ i j, i < 64 → j < 64 → (cellSum true 32 0 (rowVals (c.tile 1) (i % 16) 0 64) (rowVals (c.tile 2) (j % 16) 0 64) (cellVal (c.cell i j))).1.cause
      user.me.nte = none) ∧ pairK 0 0 = some 64 ∧
    (∃ ps s1, user.checkRows 0xFC0000000000 64 (tileFoot 0) (rowAlign 0) .read 0 1 = .ok (ps, s1) ∧ ∃ got, s1.readRows ps = .ok got) ∧
    (∃ ps s1 got, natives.checkRows 0xFC0000000000 192 (accFoot 15) (rowAlign 15) .read 0 2 = .ok (ps, s1) ∧ s1.readRows ps = .ok got ∧
      (∀ j < 16, cellBad (leNat (((got.1.getD 0 []).drop (12 * j)).take 12)) = false) ∧ cellBad (leNat (((got.1.getD 1 []).drop (12 * 0)).take 12)) = true) ∧
    (∃ ps s1 got, user.checkRows 0xFC0000000000 64 (accFoot 5) (rowAlign 5) .read 0 1 = .ok (ps, s1) ∧ s1.readRows ps = .ok got ∧
      ∀ i < 16, ∀ j < 16, i < 1 → (cellFrom 5 32 0 (leNat (((got.1.getD i []).drop (elemSize 5 * j)).take (elemSize 5)))).cause got.2.me.nte = none) ∧
    (∃ ps s1 u, natives.checkRows 0xFC0000000000 64 (tileFoot 7) (rowAlign 7) .write 0 1 = .ok (ps, s1) ∧
      s1.putRows ps [List.replicate 64 1 ++ [2, 3, 4, 5]] = .ok u) ∧
    (∃ ps s1 u, natives.checkRows 0xFC0000000000 192 (accFoot 15) (rowAlign 15) .write 0 1 = .ok (ps, s1) ∧ s1.putRows ps [List.replicate 192 7] = .ok u) ∧
    (∃ ps s1 u, natives.checkRows 0xFC0000000000 64 (accFoot 5) (rowAlign 5) .write 0 1 = .ok (ps, s1) ∧ s1.putRows ps [List.replicate 64 7] = .ok u ∧
      ∀ i < 1, ∀ j < 16, (cellTo 5 0 false (cellVal (c.cell i j))).cause natives.me.nte = none) ∧
    (let ps : List (List (Place × Nat)) := [[(spadPlace Cred.shared 0 0 0, 2)], [(spadPlace Cred.shared 0 0 64, 1)]]
     let data : List (List Byte) := [[1, 2], [3]]
     let cells := (ps.zip data).flatMap (fun e => ((piecesOf e.1).flatMap (fun q => (List.range q.2).map (fun j => q.1.loc + j))).zip e.2)
     Whole natives ∧ natives.waiters = [] ∧ (∀ r ∈ ps, ∀ q ∈ r, q.1.cred = .shared ∧ isHub q.1.loc = false) ∧ (cells.map (·.1)).Nodup ∧
       (∀ e ∈ cells, ∀ v, natives.fieldCell (e.1, v) = some (e.1, v)) ∧ (∀ e ∈ ps.zip data, e.2.length = ((e.1).map (·.2)).sum) ∧
       ∃ u, natives.putRows ps data = .ok u) := by
  refine ⟨?_, by decide, ?_, ?_, ?_, ?_, ?_, ?_, ⟨by decide, by decide⟩, rfl, by decide, by decide +kernel, fun _ _ _ => rfl, by decide, some_of (by decide +kernel)⟩
  · intro i j _ _
    have h : ∀ i < 16, rowVals Tile.zero i 0 64 = List.replicate 64 (.zero false) := by decide +kernel
    have a : rowVals ((TileCtx.bound 0).tile 1) (i % 16) 0 64 = List.replicate 64 (.zero false) := h _ (Nat.mod_lt _ (by decide))
    have b : rowVals ((TileCtx.bound 0).tile 2) (j % 16) 0 64 = List.replicate 64 (.zero false) := h _ (Nat.mod_lt _ (by decide))
    have k : cellVal ((TileCtx.bound 0).cell i j) = .zero false := by
      have e : (TileCtx.bound 0).cell i j = cellZero := rfl
      rw [e]; decide
    rw [a, b, k]
    decide +kernel
  · obtain ⟨⟨ps, s1⟩, e, k⟩ := ok_of (x := user.checkRows 0xFC0000000000 64 (tileFoot 0) (rowAlign 0) .read 0 1) (p := fun r => (r.2.readRows r.1).isOk)
      (by decide +kernel)
    exact ⟨ps, s1, e, some_of k⟩
  · obtain ⟨⟨ps, s1⟩, e, k⟩ := ok_of (x := natives.checkRows 0xFC0000000000 192 (accFoot 15) (rowAlign 15) .read 0 2) (p := fun r => okAnd (r.2.readRows r.1)
      (fun g => (List.range 16).all (fun j => !cellBad (leNat (((g.1.getD 0 []).drop (12 * j)).take 12))) && cellBad (leNat (((g.1.getD 1 []).drop (12 * 0)).take 12))))
      (by decide +kernel)
    obtain ⟨g, h, q⟩ := ok_of k
    simp only [Bool.and_eq_true, List.all_eq_true, List.mem_range, Bool.not_eq_true'] at q
    exact ⟨ps, s1, g, e, h, q⟩
  · obtain ⟨⟨ps, s1⟩, e, k⟩ := ok_of (x := user.checkRows 0xFC0000000000 64 (accFoot 5) (rowAlign 5) .read 0 1) (p := fun r => okAnd (r.2.readRows r.1)
      (fun g => (List.range 16).all (fun j => (cellFrom 5 32 0 (leNat (((g.1.getD 0 []).drop (elemSize 5 * j)).take (elemSize 5)))).cause g.2.me.nte == none)))
      (by decide +kernel)
    obtain ⟨g, h, q⟩ := ok_of k
    refine ⟨ps, s1, g, e, h, fun i _ j hj hi => ?_⟩
    obtain rfl : i = 0 := by omega
    exact eq_of_beq (List.all_eq_true.mp q j (List.mem_range.mpr hj))
  · obtain ⟨⟨ps, s1⟩, e, k⟩ := ok_of (x := natives.checkRows 0xFC0000000000 64 (tileFoot 7) (rowAlign 7) .write 0 1)
      (p := fun r => (r.2.putRows r.1 [List.replicate 64 1 ++ [2, 3, 4, 5]]).isOk) (by decide +kernel)
    obtain ⟨u, h⟩ := some_of k
    exact ⟨ps, s1, u, e, h⟩
  · obtain ⟨⟨ps, s1⟩, e, k⟩ := ok_of (x := natives.checkRows 0xFC0000000000 192 (accFoot 15) (rowAlign 15) .write 0 1)
      (p := fun r => (r.2.putRows r.1 [List.replicate 192 7]).isOk) (by decide +kernel)
    obtain ⟨u, h⟩ := some_of k
    exact ⟨ps, s1, u, e, h⟩
  · obtain ⟨⟨ps, s1⟩, e, k⟩ := ok_of (x := natives.checkRows 0xFC0000000000 64 (accFoot 5) (rowAlign 5) .write 0 1)
      (p := fun r => (r.2.putRows r.1 [List.replicate 64 7]).isOk) (by decide +kernel)
    obtain ⟨u, h⟩ := some_of k
    exact ⟨ps, s1, u, e, h, by decide +kernel⟩

/-- A `bound` whose engine runs strand 1, and one whose queue is full as well. -/
def busy : State := { bound with engines := [(0, { Engine.reset with bound := [0, 1], running := some { who := { core := 0, num := 1 }, prio := 1, base := 1, since := 0 } })] }
def crowded : State := { bound with engines := [(0, { Engine.reset with queue := List.replicate 32 { who := { core := 0, num := 1 }, prio := 1, base := 1, since := 0 } })] }

theorem hyp_TileWords :
    let c := TileCtx.bound 0
    Whole user ∧ Whole bound ∧ Ready user { fmt := true } false ∧ user.me.tile = none ∧ Ready bound { fmt := true } false ∧ bound.me.tile = some c ∧
    (bound.engine 0).running = none ∧ (bound.engine 0).queue = [] ∧ UnheldAll bound (rowRanges (bound.x 6) 64 16 (tileFoot 0)) ∧
    UnheldAll bound (rowRanges (bound.x 6) 192 16 (accFoot 15)) ∧
    (∃ u, bound.tileDo c (.tld 3 (bound.x 6) 64 16 0) = .ok u) ∧ (∃ u, bound.tileDo c (.tst 3 (bound.x 6) 64 16 0) = .ok u) ∧
    (∃ u, bound.tileDo c (.acst 0 3 (bound.x 6) 192 1 15 0 false) = .ok u) ∧ (∃ u, bound.tileDo c (.acld 0 3 (bound.x 6) 32 1 5 32 0) = .ok u) ∧
    (bound.me.ofmt 15 = 15 ∧ (pairK (bound.me.afmt 0) (bound.me.bfmt 0)).isSome = true) ∧
    (let s := bound (fun t => { t with fmtp := 0x909000, ssw := 0x800C }); Ready s { fmt := true } false ∧ s.me.afmt 0 = 9 ∧ s.me.ofmt 15 = 9) ∧
    (busy.engine 0).running ≠ none ∧ (busy.engine 0).queue = [] ∧ Ready busy { fmt := true } false ∧ 32 ≤ (crowded.engine 0).queue.length ∧
    Ready crowded {} false := by
  refine ⟨whole (by decide), whole (by decide), ready (by decide), by decide, ready (by decide), rfl, by decide, by decide, unheldAll (by decide), unheldAll (by decide),
    some_of (by decide +kernel), some_of (by decide +kernel), some_of (by decide +kernel), some_of (by decide +kernel), by decide,
    ⟨ready (by decide), by decide, by decide⟩, by decide, by decide, ready (by decide), by decide, ready (by decide)⟩

theorem zeroSum : (cellSum true 32 0 (List.replicate 64 (.zero false)) (List.replicate 64 (.zero false)) (.zero false)).1.cause false = none := by
  decide +kernel

/-- The first k-block of a strand whose operands are an empty scratchpad completes. -/
theorem kblock_of {s : State} (op : Option TileOp) {a b ctl : Word} (hn : s.me.nte = false) :
    let m : MacroParams := { ctl := ctl, a := a, b := b, fa := 0, fb := 0, q := 32, rm := 0 }
    okAnd (s.kread m) (fun r => decide (m.tiles r.1 = List.replicate 8 Tile.zero ∧ r.2.me.tstep = 0 ∧ r.2.cur = s.cur ∧ r.2.engines = s.engines)) = true →
    ∃ u, s.kblock { TileCtx.bound 0 with op := op } m = .ok u ∧ u.me.tstep = 1 ∧ u.cur = s.cur ∧ u.engines = s.engines := by
  intro m h
  obtain ⟨⟨rows, t⟩, e, k⟩ := ok_of h
  obtain ⟨k1, k2, k3, k4⟩ := of_decide_eq_true k
  have vals : (((List.replicate 8 Tile.zero).take 4).map (fun t => (List.range 16).map (fun i => rowVals t i 0 64))).flatten
      = List.replicate 64 (List.replicate 64 (.zero false)) := by decide +kernel
  have vals' : (((List.replicate 8 Tile.zero).drop 4).map (fun t => (List.range 16).map (fun i => rowVals t i 0 64))).flatten
      = List.replicate 64 (List.replicate 64 (.zero false)) := by decide +kernel
  have none_ : s.kfails m (m.sums { TileCtx.bound 0 with op := op } s.me.tstep.toNat (m.tiles rows)) = none := by
    unfold State.kfails MacroParams.sums
    simp only [k1, hn, show m.fa = 0 from rfl, show m.fb = 0 from rfl, show (pairK 0 0).getD 1 = 64 from rfl, vals, vals']
    apply mulTrap_none
    intro i j hi hj
    have c : cellVal (({ TileCtx.bound 0 with op := op } : TileCtx).cell (0 + i) (0 + j)) = .zero false := by
      have e : ({ TileCtx.bound 0 with op := op } : TileCtx).cell (0 + i) (0 + j) = cellZero := rfl
      rw [e]; decide
    rw [c, List.getD_eq_getElem?_getD, List.getD_eq_getElem?_getD, List.getElem?_replicate, List.getElem?_replicate, if_pos hi, if_pos hj]
    exact zeroSum
  unfold State.kblock
  rw [e]
  simp only [none_]
  refine ⟨_, rfl, ?_, k3, k4⟩
  unfold State.kcommit
  have n : (s.me.tstep.toNat, t.me.tstep) = (s.me.tstep.toNat, 0) := by rw [show t.me.tstep = 0 from k2]
  rw [State.me_modMe]
  show BitVec.ofNat 64 ((((t.modMe _).modMe _).me.tstep.toNat + 1) % 2 ^ 32) = 1
  rw [State.me_modMe]
  show BitVec.ofNat 64 (((t.modMe _).me.tstep.toNat + 1) % 2 ^ 32) = 1
  rw [State.me_modMe]
  show BitVec.ofNat 64 ((t.me.tstep.toNat + 1) % 2 ^ 32) = 1
  rw [k2]
  rfl

/-- The parameters of a `tgemm` of `bound` with `x5`, `x6` and `x7`. -/
def boundMacro : MacroParams := { ctl := 0x0040004000000040, a := 0xFC0000000000, b := 0xFC0000001000, fa := 0, fb := 0, q := 32, rm := 0 }

/-- `bound`, whose `x5` asks for two k-blocks. -/
def twoBlocks : State := bound (fun t => { t with x := (5, 0x0040004000000080) :: t.x.filter (fun r => r.1 != 5) })

theorem hyp_MacroMultiply :
    Whole bound ∧ Ready bound { fmt := true } false ∧ bound.me.tile = some (TileCtx.bound 0) ∧
    boundMacro = { ctl := bound.x 5, a := bound.x 6, b := bound.x 7, fa := bound.me.afmt 0, fb := bound.me.bfmt 0, q := bound.me.q, rm := bound.me.mode } ∧
    checkPair (bound.me.afmt 0) (bound.me.bfmt 0) (bound.me.ofmt 15) = .ok 64 ∧
    (bound.x 8).toNat % 2 ^ 32 = 0 ∧ (bound.x 9).toNat % 2 ^ 32 % 64 ≠ 0 ∧
    macroChecks bound.cur.core false (bound.x 5) (bound.x 6) (bound.x 7) 0 0 = .ok () ∧
    UnheldAll bound (macroRanges 0 (bound.x 5) (bound.x 6) (bound.x 7) 0 0) ∧
    blocksOf (bound.x 5) 0 0 = 1 ∧ bound.me.tstep.toNat = 0 ∧ (bound.engine 0).running = none ∧ (bound.engine 0).queue = [] ∧
    (∃ u, bound.kblock (TileCtx.bound 0) boundMacro = .ok u ∧ u.me.tstep = 1) ∧
    (let s := bound (fun t => { t with tstep := 1 }); blocksOf (s.x 5) 0 0 ≤ s.me.tstep.toNat ∧ Ready s { fmt := true } false ∧
      UnheldAll s (macroRanges 1 (s.x 5) (s.x 6) (s.x 7) 0 0)) ∧ (busy.engine 0).running ≠ none ∧
    blocksOf (twoBlocks.x 5) 0 0 = 2 ∧ UnheldAll twoBlocks (macroRanges 0 (twoBlocks.x 5) (twoBlocks.x 6) (twoBlocks.x 7) 0 0) ∧
    macroChecks 0 false (twoBlocks.x 5) (twoBlocks.x 6) (twoBlocks.x 7) 0 0 = .ok () ∧
    ∃ u, twoBlocks.kblock (TileCtx.bound 0) { boundMacro with ctl := twoBlocks.x 5 } = .ok u ∧ u.me.tstep = 1 := by
  refine ⟨whole (by decide), ready (by decide), rfl, by decide, is_of (by decide), by decide, by decide, unit_of (by decide +kernel),
    unheldAll (by decide +kernel), by decide, by decide,
    by decide, by decide, ?_, ⟨by decide, ready (by decide), unheldAll (by decide +kernel)⟩, by decide, by decide, unheldAll (by decide +kernel),
    unit_of (by decide +kernel), ?_⟩
  · obtain ⟨u, e, h, _⟩ := kblock_of (s := bound) none (a := 0xFC0000000000) (b := 0xFC0000001000) (ctl := 0x0040004000000040) (by decide)
      (by decide +kernel)
    exact ⟨u, e, h⟩
  · obtain ⟨u, e, h, _⟩ := kblock_of (s := twoBlocks) none (a := 0xFC0000000000) (b := 0xFC0000001000) (ctl := 0x0040004000000080) (by decide)
      (by decide +kernel)
    exact ⟨u, e, h⟩

/-- `bound`, with the entry of its `tzero` waiting since cycle 0 behind a `tzero` of strand 1. -/
def waitingTile (f : TileCtx → TileCtx := id) : State :=
  let e : EngineEntry := { who := { core := 0, num := 0 }, prio := 1, base := 1, since := 0 }
  let s := bound (fun t => { t with tile := some (f { TileCtx.bound 0 with op := some (.tzero 3) }) })
  { s with engines := [(0, { Engine.reset with bound := [0], queue := [{ e with who := { core := 0, num := 1 }, prio := 0 }, e] })], clk := { s.clk with cycles := 1756 } }

/-- `bound`, with the engine running a word of it. -/
def runningTile (op : TileOp) : State :=
  let s := bound (fun t => { t with tile := some { TileCtx.bound 0 with op := some op } })
  { s with engines := [(0, { Engine.reset with bound := [0], running := some { who := { core := 0, num := 0 }, prio := 1, base := 1, since := 0 } })] }

def blockOp : TileOp := .tgemm false 0x0040004000000040 0xFC0000000000 0xFC0000001000 0 0 32 0

/-- `runningTile`, with a `tzero` of strand 1 waiting at priority 3. -/
def overtaken (op : TileOp) (ran : Bool) : State :=
  let s := runningTile op
  let e : EngineEntry := { who := { core := 0, num := 1 }, prio := 3, base := 1, since := 0 }
  s.modEngine 0 (fun k => { k with running := k.running.map (fun q => { q with ran := ran }), queue := [e] })

/-- `runningTile` between two k-blocks, with a timer interrupt that its strand may take. -/
def interrupted : State :=
  let s := runningTile blockOp
  (s.modMe (fun t => { t with ssw := 0x8004, irqTimer := true })).modEngine 0 (fun k => { k with running := k.running.map (fun q => { q with ran := true }) })

theorem hyp_EngineEvents :
    (waitingTile.swapStops 0 = false ∧ (waitingTile.engine 0).running = none ∧ ∃ q, waitingTile.nextEntry 0 = some q ∧ waitingTile.gangOp q.who = none) ∧
    (∃ q, (waitingTile.engine 0).queue[1]? = some q ∧ q.prio < 3 ∧ q.since + 1756 ≤ waitingTile.clk.cycles ∧
      ∀ j < 1, ∀ r, (waitingTile.engine 0).queue[j]? = some r → r.who ≠ q.who) ∧
    (let s := runningTile (.tzero 3)
     ∃ q c u, (s.engine 0).running = some q ∧ (s.strand q.who).tile = some c ∧ c.op = some (.tzero 3) ∧ (s.strand q.who).paused = false ∧
      ({ s with cur := q.who, replay := (s.strand q.who).got } : State).tileDo c (.tzero 3) = .ok u ∧ u.cur = q.who) ∧
    (let s := runningTile blockOp
     ∃ q c u, (s.engine 0).running = some q ∧ (s.strand q.who).tile = some c ∧ c.engine = 0 ∧ c.op = some blockOp ∧
      (s.strand q.who).tstep.toNat < blocksOf boundMacro.ctl 0 0 ∧ q.ran = false ∧
      ({ s with cur := q.who, replay := (s.strand q.who).got } : State).kblock c boundMacro = .ok u ∧ (u.strand q.who).tstep ≠ (s.strand q.who).tstep) ∧
    (let s := overtaken blockOp true
     ∃ q r, (s.engine 0).running = some q ∧ q.ran = true ∧ (s.strand q.who).got = [] ∧ s.mayTake q.who = false ∧ r ∈ (s.engine 0).queue ∧ q.base ≤ r.prio ∧
      s.gangOp r.who = none) ∧
    (let s := (runningTile blockOp).modMe (fun t => { t with tstep := 1 })
     ∃ q, (s.engine 0).running = some q ∧ s.mayTake q.who = false ∧ blocksOf boundMacro.ctl 0 0 ≤ (s.strand q.who).tstep.toNat ∧
      (s.strand q.who).paused = false) ∧
    ∃ q, (interrupted.engine 0).running = some q ∧ q.ran = true ∧ (interrupted.strand q.who).got = [] ∧ interrupted.mayTake q.who = true := by
  refine ⟨⟨by decide, by decide, { who := { core := 0, num := 0 }, prio := 1, base := 1, since := 0 }, by decide, by decide⟩,
    ⟨{ who := { core := 0, num := 0 }, prio := 1, base := 1, since := 0 }, by decide, by decide, by decide, ?_⟩,
    ⟨_, _, _, rfl, rfl, rfl, by decide, rfl, rfl⟩, ?_, ⟨_, _, rfl, rfl, rfl, by decide, List.mem_singleton_self _, by decide, by decide⟩,
    ⟨_, rfl, by decide, by decide, by decide⟩, ⟨_, rfl, rfl, rfl, by decide⟩⟩
  · intro j hj r h
    obtain rfl : j = 0 := by omega
    simp only [waitingTile, State.engine] at h
    injection h with h
    rw [← h]
    decide
  · obtain ⟨v, e, h1, h2, h3⟩ := kblock_of (s := runningTile blockOp) (some blockOp) (a := 0xFC0000000000) (b := 0xFC0000001000) (ctl := 0x0040004000000040)
      (by decide) (by decide +kernel)
    refine ⟨_, _, v, rfl, rfl, rfl, rfl, by decide, rfl, e, ?_⟩
    show (v.strand (runningTile blockOp).cur).tstep ≠ _
    rw [← h2]
    show v.me.tstep ≠ _
    rw [h1]
    decide

/-- A strand of each core of cluster 0, each bound to its core's engine; those of cores 1 to 3 have issued `tgemm.g`, and are done. -/
def ganged (me : Option TileOp) (step : Word) : State :=
  let op : TileOp := .tgemm true 0x0040004000000040 0xFC0000000000 0xFC0000000000 0 0 32 0
  let sid (k : Nat) : StrandId := { core := k, num := 0 }
  let one (k : Nat) : Nat × Strand := (8 * k, xs 0x0040004000000040 0xFC0000000000 0xFC0000000000 0 5 { Strand.fresh .running (8 * k) with
    tstep := step, tile := some { TileCtx.bound k with op := if k = 0 then me else some op, gang := some (((List.range 4).filter (fun j => j != k)).map sid) } })
  { State.reset with cur := { core := 0, num := 0 }, strands := (List.range 4).map one }

/-- The gang barrier has seen the first three of the four, which are bound and wait. -/
def gathered : State :=
  let sid (k : Nat) : StrandId := { core := k, num := 0 }
  let one (k : Nat) : Nat × Strand := (8 * k, { Strand.fresh .running (8 * k) with tile := some (TileCtx.bound k), gangWait := if k = 0 then none else some 2 })
  { State.reset with cur := sid 0, strands := (List.range 4).map one, clusters := [(0, { ClusterState.reset with gangs := [(2, [sid 3, sid 1, sid 2])] })] }

/-- As `ganged`, at user level of context 7, with strand 3's A elsewhere: the four do not agree. -/
def mismatched : State :=
  let s := ganged none 0
  let t : Strand := s.strand { core := 3, num := 0 }
  let op : TileOp := .tgemm true 0x0040004000000040 0xFC0000001000 0xFC0000000000 0 0 32 0
  { (tenant false) with cur := s.cur, strands := s.strands.set 24 { t with tile := t.tile.map (fun c => { c with op := some op }) } }

/-- As `ganged`, with the engines of the cluster running the four. -/
def joint : State :=
  let op : TileOp := .tgemm true 0x0040004000000040 0xFC0000000000 0xFC0000000000 0 0 32 0
  { ganged (some op) 0 with engines := (List.range 4).map (fun k =>
      (k, { Engine.reset with bound := [8 * k], running := some { who := { core := k, num := 0 }, prio := 1, base := 1, since := 0 } })) }

/-- The sums of a partner are those of its tiles. -/
theorem gangRead_sums (sids : List StrandId) : ∀ (s : State) (gs : List GangPart) (t : State), s.gangRead sids = .ok (gs, t) →
    ∀ g ∈ gs, ∃ step, g.rs = g.args.sums g.ctx step g.ts := by
  induction sids with
  | nil => intro s gs t h g m; cases h; cases m
  | cons p rest ih =>
    intro s gs t h g m
    unfold State.gangRead at h
    split at h
    · exact ih _ _ _ h g m
    · split at h
      · cases h
      · split at h
        · cases h
        · rename_i hq
          cases h
          rcases List.mem_cons.mp m with rfl | m
          · exact ⟨(s.strand p).tstep.toNat, by dsimp only⟩
          · exact ih _ _ _ hq g m

/-- A partner whose tiles are zeros has no trap. -/
theorem gangFails_none {s : State} {g : GangPart} {step : Nat} {a b ctl : Word} {op : Option TileOp} {k : Nat} {gang : Option (List StrandId)}
    (hr : g.rs = g.args.sums g.ctx step g.ts) (ht : g.ts = List.replicate 8 Tile.zero) (hn : (s.strand g.who).nte = false)
    (ha : g.args = { ctl := ctl, a := a, b := b, fa := 0, fb := 0, q := 32, rm := 0 }) (hc : g.ctx = { TileCtx.bound k with op := op, gang := gang }) :
    s.gangFails g = none := by
  have vals : (((List.replicate 8 Tile.zero).take 4).map (fun t => (List.range 16).map (fun i => rowVals t i 0 64))).flatten
      = List.replicate 64 (List.replicate 64 (.zero false)) := by decide +kernel
  have vals' : (((List.replicate 8 Tile.zero).drop 4).map (fun t => (List.range 16).map (fun i => rowVals t i 0 64))).flatten
      = List.replicate 64 (List.replicate 64 (.zero false)) := by decide +kernel
  unfold State.gangFails State.kfails
  rw [show ({ s with cur := g.who } : State).me.nte = false from hn, hr, ht, ha, hc]
  unfold MacroParams.sums
  simp only [show (pairK 0 0).getD 1 = 64 from rfl, vals, vals']
  rw [mulTrap_none]
  · rfl
  · intro i j hi hj
    have c : cellVal (({ TileCtx.bound k with op := op, gang := gang } : TileCtx).cell (0 + i) (0 + j)) = .zero false := by
      have e : ({ TileCtx.bound k with op := op, gang := gang } : TileCtx).cell (0 + i) (0 + j) = cellZero := rfl
      rw [e]; decide
    rw [c, List.getD_eq_getElem?_getD, List.getD_eq_getElem?_getD, List.getElem?_replicate, List.getElem?_replicate, if_pos hi, if_pos hj]
    exact zeroSum

theorem hyp_JointKBlock :
    (joint.engine 0).running = some { who := { core := 0, num := 0 }, prio := 1, base := 1, since := 0 } ∧ joint.gangOp { core := 0, num := 0 } ≠ none ∧
    joint.swapStops 0 = false ∧ ((joint.gangOf { core := 0, num := 0 }).map StrandId.tid).Nodup ∧ joint.gangDone { core := 0, num := 0 } = false ∧
    (∀ p ∈ joint.gangOf { core := 0, num := 0 }, joint.gangOp p ≠ none ∧ (joint.engine (joint.engineOf p)).running.any (fun r => r.who == p) = true) ∧
    ∃ gs t, joint.gangRead (joint.gangOf { core := 0, num := 0 }) = .ok (gs, t) ∧ ∀ g ∈ gs, t.gangFails g = none := by
  refine ⟨rfl, by decide, rfl, by decide, by decide, by decide, ?_⟩
  obtain ⟨⟨gs, t⟩, e, k⟩ := ok_of (x := joint.gangRead (joint.gangOf { core := 0, num := 0 })) (p := fun r => r.1.all (fun g =>
    decide (g.ts = List.replicate 8 Tile.zero) && decide ((r.2.strand g.who).nte = false) &&
    decide (g.args = { ctl := 0x0040004000000040, a := 0xFC0000000000, b := 0xFC0000000000, fa := 0, fb := 0, q := 32, rm := 0 }) &&
    decide (g.ctx = { TileCtx.bound g.ctx.engine with op := g.ctx.op, gang := g.ctx.gang }))) (by decide +kernel)
  refine ⟨gs, t, e, fun g m => ?_⟩
  have q := List.all_eq_true.mp k g m
  simp only [Bool.and_eq_true, decide_eq_true_eq] at q
  obtain ⟨step, hr⟩ := gangRead_sums _ _ _ _ e g m
  exact gangFails_none hr q.1.1.1 q.1.1.2 q.1.2 q.2

theorem hyp_GangTraps :
    (let s := mismatched
     ∃ c g, s.me.tile = some c ∧ c.gang = some g ∧ c.broken = false ∧ c.op = none ∧ Ready s { fmt := true } false ∧
      checkPair (s.me.afmt 0) (s.me.bfmt 0) (s.me.ofmt 15) = .ok 64 ∧ macroChecks 0 true (s.x 5) (s.x 6) (s.x 7) 0 0 = .ok () ∧
      UnheldAll s (macroRanges 0 (s.x 5) (s.x 6) (s.x 7) 0 0) ∧ (s.engine c.engine).queue.length < 32 ∧ ((s.cur :: g).map StrandId.tid).Nodup ∧
      let t := s.enqueue c (.tgemm true (s.x 5) (s.x 6) (s.x 7) 0 0 s.me.q s.me.mode)
      (∀ p ∈ s.cur :: g, t.gangOp p ≠ none) ∧ (∃ p ∈ s.cur :: g, t.gangAgrees s.cur p = false) ∧
      ∀ p ∈ s.cur :: g, isGeneral p = true ∧ s.level p = .user ∧ s.contextOf p.core ≠ none) ∧
    (let s := bound (fun t => { t with tile := some { TileCtx.bound 0 with gang := some [], broken := true } })
     ∃ c, s.me.tile = some c ∧ Ready s { fmt := true } false ∧ c.gang ≠ none ∧ c.broken = true) :=
  ⟨⟨_, _, rfl, rfl, rfl, rfl, ready (by decide), is_of (by decide), unit_of (by decide +kernel), unheldAll (by decide +kernel), by decide, by decide,
    by decide, ⟨{ core := 3, num := 0 }, by decide, by decide⟩, by decide⟩, _, rfl, ready (by decide), by decide, rfl⟩

theorem hyp_Gangs :
    (∃ c, gathered.me.tile = some c ∧ Ready gathered plain false ∧ c.engine = gathered.cur.core % 1024 ∧ c.gang = none ∧
      ∃ round, gangRound (clusterCores 0) (((gathered.cluster 0).gangs.get? 2).getD [] ++ [gathered.cur]) = some round ∧ (round.map StrandId.tid).Nodup) ∧
    gangRound (clusterCores 0) (((gathered.cluster 0).gangs.get? 3).getD [] ++ [gathered.cur]) = none ∧
    (Ready bound { fmt := true } false ∧ ∃ c, bound.me.tile = some c ∧ c.gang = none) ∧
    (let s := ganged none 1
     ∃ c g, s.me.tile = some c ∧ c.gang = some g ∧ c.broken = false ∧ c.op = none ∧ Ready s { fmt := true } false ∧
      checkPair (s.me.afmt 0) (s.me.bfmt 0) (s.me.ofmt 15) = .ok 64 ∧ macroChecks 0 true (s.x 5) (s.x 6) (s.x 7) 0 0 = .ok () ∧
      UnheldAll s (macroRanges 1 (s.x 5) (s.x 6) (s.x 7) 0 0) ∧ (s.engine c.engine).queue.length < 32 ∧ ((s.cur :: g).map StrandId.tid).Nodup ∧
      let t := s.enqueue c (.tgemm true (s.x 5) (s.x 6) (s.x 7) 0 0 s.me.q s.me.mode)
      ∀ p ∈ s.cur :: g, t.gangOp p ≠ none ∧ t.gangAgrees s.cur p = true ∧ t.gangDone p = true) ∧
    (let s := { ganged none 0 with strands := (ganged none 0).strands.take 3 }
     ∃ c, s.me.tile = some c ∧ ∃ p ∈ c.gang.getD [], (s.enqueue c (.tgemm true (s.x 5) (s.x 6) (s.x 7) 0 0 s.me.q s.me.mode)).gangOp p = none) := by
  refine ⟨⟨_, rfl, ready (by decide), by decide, rfl, _, rfl, by decide⟩, by decide, ⟨ready (by decide), _, rfl, rfl⟩,
    ⟨_, _, rfl, rfl, rfl, rfl, ready (by decide), is_of (by decide), unit_of (by decide +kernel), unheldAll (by decide +kernel), by decide, by decide, by decide⟩,
    ⟨_, rfl, { core := 3, num := 0 }, by decide, by decide⟩⟩


/-! ### Contexts, copies and packets -/

/-- Strand 0 of core 0 with the operands of a copy: `x5` a destination and `x7` a source in its scratchpad, `x6` the length 64, `x8` the
second core. The source begins with a box of one element of a tensor of rank 1, whose handle is 0 in the table at 0x2000 of the scratchpad. -/
def copying : State :=
  let base := spadLoc 0 0
  { tenant false (fun t => { xs 0xFC0000001000 64 0xFC0000000000 1 0 t with htb := 0xFC0000002000 }) with
    mem := { Mem.reset with
      bytes := [(base + 16, 1), (base + 20, 1), (base + 24, 1), (base + 28, 1), (base + 0x2001, 0x10), (base + 0x2005, 0xFC), (base + 0x2008, 0x10), (base + 0x2009, 1),
        (base + 0x2010, 8)],
      owners := [(base / 4096, .ctx (.ctx 3 1)), ((base + 0x2000) / 4096, .ctx (.ctx 3 1))] } }

def plan64 : Plan :=
  { op := .send, cls := .send, source := (0xFC0000000000, 64), dest := (0xFC0000001000, 64),
    todo := [{ src := 0xFC0000000000, dst := 0xFC0000001000, len := 64 }], ctl := 64, tagCore := 0, packet := none }

theorem hyp_CopyWords :
    let s := copying
    (s.x 5).toNat = 0xFC0000001000 ∧ (s.x 7).toNat = 0xFC0000000000 ∧ Ready s plain false ∧ s.checkCopy .send (s.x 6) = .ok () ∧
    s.checkSpans (0xFC0000000000, 64) (0xFC0000001000, 64) = .ok () ∧
    s.checkCopy .sendh (s.x 6) = .ok () ∧ s.coreExists 1 = true ∧ s.inGroup 0 1 = true ∧ s.cur.num ≠ 4 ∧
    (s.checkCopy .tsend 0 = .ok () ∧ ∃ addr bs s1 r s2, s.shapeAddr 0 = .ok addr ∧ s.readSpan 0xFC0000000000 32 8 = .ok (bs, s1) ∧
      s1.shapeRead addr = .ok (r, s2) ∧ shapeBad r = false ∧ boxBad r (Box.ofNat (leNat bs)) = false ∧ s.shapeCached addr = none ∧
      UnheldAll s [(0xFC0000000000, 0xFC0000000020), (addr, addr + 64)] ∧
      s2.checkSpans (sourceSpan (boxSpans r (Box.ofNat (leNat bs)) 0xFC0000001000)) (0xFC0000001000, 1) = .ok ()) ∧
    (s.checkCopy .publish 0 = .ok () ∧ s.checkSpans (0, 0) (0x11000, 64) = .ok ()) ∧
    ((s.clearToIssue plan64).isSome = true ∧ (s.modCore 0 (fun k => { k with sendBulk := List.range 32 })).clearToIssue plan64 = none) ∧
    (let s := landing; Ready s plain false ∧ s.cur.num = 4) := by
  refine ⟨by decide, by decide, ready (by decide), unit_of (by decide), unit_of (by decide +kernel), unit_of (by decide), by decide, by decide, by decide, ⟨unit_of (by decide), ?_⟩,
    ⟨unit_of (by decide), unit_of (by decide +kernel)⟩, ⟨by decide +kernel, by decide +kernel⟩, ready (by decide), by decide⟩
  obtain ⟨addr, e1, k1⟩ := ok_of (x := copying.shapeAddr 0) (p := fun a => decide (a = 0xFC0000002000)) (by decide)
  obtain rfl := of_decide_eq_true k1
  obtain ⟨⟨bs, s1⟩, e2, k2⟩ := ok_of (x := copying.readSpan 0xFC0000000000 32 8) (p := fun r => okAnd (r.2.shapeRead 0xFC0000002000) (fun q =>
    decide (shapeBad q.1 = false ∧ boxBad q.1 (Box.ofNat (leNat r.1)) = false) &&
      (q.2.checkSpans (sourceSpan (boxSpans q.1 (Box.ofNat (leNat r.1)) 0xFC0000001000)) (0xFC0000001000, 1)).isOk)) (by decide +kernel)
  obtain ⟨⟨r, s2⟩, e3, k3⟩ := ok_of k2
  simp only [Bool.and_eq_true, decide_eq_true_eq] at k3
  exact ⟨_, bs, s1, r, s2, e1, e2, e3, k3.1.1, k3.1.2, by decide, unheldAll (by decide), unit_of k3.2⟩

/-- The copy that `send` of `copying` issues, and the state that holds it. -/
def copy9 : Copy :=
  { op := .send, issuer := { core := 0, num := 0 }, uid := 0, level := .user, asid := some 7, cred := (live false).cred, cls := .send, group := some 1, slots := [0],
    todo := [{ src := 0xFC0000000000, dst := 0xFC0000001000, len := 64 }], pieces := [], dst := 0xFC0000001000, dstLen := 64, written := 0, tag := 5, tagEn := true,
    tagCore := 0, record := none, packet := none, error := none, wait := none }

def issued (c : Copy := copy9) : State :=
  let s := copying.modCore 0 (fun k => { k with sendBulk := [9] })
  let s := s.modStrand { core := 0, num := 0 } (fun t => { t with cntSend := 1, slots := [(0, { lo := 0xFC0000000000, hi := 0xFC0000001040, count := 2 })] })
  { s with copies := [(9, c)] }

def copyPiece : Copy := { copy9 with todo := [], pieces := [{ dst := 0xFC0000001000, bytes := [1, 2] }] }
def copyFlip : Copy := { copy9 with op := .publish, todo := [{ src := 0, dst := 0x11000, len := 64 }] }
def copyLost : Copy := { copy9 with todo := [{ src := 0x99000, dst := 0xFC0000001000, len := 64 }] }

theorem flip_of {ε α : Type} {x : Option (Nat × Except ε α)} {p : α → Bool}
    (h : x.any (fun r => okAnd r.2 p) = true) : ∃ va a, x = some (va, .ok a) ∧ p a = true := by
  cases x with
  | none => cases h
  | some r =>
    obtain ⟨va, y⟩ := r
    obtain ⟨a, e, k⟩ := ok_of (show okAnd y p = true from h)
    exact ⟨va, a, by rw [e], k⟩

theorem hyp_CopyProgress :
    (let s := copying.modStrand { core := 0, num := 1 } (fun t => { t with st := .running, held := some { op := .send, d := 5, a := 6, b := 7 } })
     let sid : StrandId := { core := 0, num := 1 }
     ∃ h, (s.strand sid).held = some h ∧ h.b.toNat < 32 ∧ (s.setStrand sid { s.strand sid with held := none }).runnable sid = true) ∧
    (∃ va q s1, issued.copies.get? 9 = some copy9 ∧ copy9.error = none ∧ copy9.wait = none ∧ copy9.op ≠ .publish ∧ issued.inProgress copy9 9 = true ∧
      issued.storesPast copy9 9 = true ∧ todoByte copy9.todo 0 = some va ∧ issued.spanRead copy9 va 1 = .ok (q, s1) ∧ s1.placeHeld q false = false ∧
      ∀ p ∈ copy9.todo.filterMap (Span.inside (va / 64 * 64) (va / 64 * 64 + 64)), s1.mem.poisoned q.cred (q.loc + p.src - va) p.len = false) ∧
    (let s := issued copyPiece
     ∃ p q s1, s.copies.get? 9 = some copyPiece ∧ copyPiece.error = none ∧ copyPiece.wait = none ∧ copyPiece.pieces[0]? = some p ∧
      (((pieceBytes copyPiece.pieces (p.dst / 8)).map (·.1)).headD p.dst = p.dst) ∧ copyPiece.todo = [] ∧
      s.pieceWrite copyPiece p.dst = .ok (q, s1) ∧ s.syncBelow copyPiece p.dst = false ∧ s1.placeHeld q true = false ∧ isHub q.loc = false ∧ s.waiters = [] ∧
      (∀ k < 2, ∀ v, s1.fieldCell (q.loc + k, v) = some (q.loc + k, v)) ∧
      KeyFits q.cred) ∧
    (let s := issued copyFlip
     ∃ va e, s.copies.get? 9 = some copyFlip ∧ copyFlip.error = none ∧ copyFlip.wait = none ∧ (s.flipNext copyFlip).1 = some (va, .ok e) ∧
      s.olderWrites copyFlip 9 e.base (e.base + e.size) = false ∧ s.waiters = []) ∧
    (let s := issued copyLost
     ∃ e, s.copies.get? 9 = some copyLost ∧ copyLost.error = none ∧ copyLost.wait = none ∧ copyLost.op.isPacket = false ∧ s.inProgress copyLost 9 = true ∧
      s.copyTrap copyLost 9 = some e) := by
  refine ⟨⟨_, rfl, by decide, by decide⟩, ?_, ?_, ?_, ?_⟩
  · obtain ⟨⟨q, s1⟩, e, k⟩ := ok_of (x := issued.spanRead copy9 0xFC0000000000 1) (p := fun r => !r.2.placeHeld r.1 false && decide (r.2.mem.poison = [] ∧ r.2.mem.badWords = [])) (by decide +kernel)
    simp only [Bool.and_eq_true, Bool.not_eq_true', decide_eq_true_eq] at k
    exact ⟨_, q, s1, rfl, rfl, rfl, by decide, by decide, by decide, by decide, e, k.1, fun _ _ => by simp [Mem.poisoned, k.2]⟩
  · obtain ⟨⟨q, s1⟩, e, k⟩ := ok_of (x := (issued copyPiece).pieceWrite copyPiece 0xFC0000001000)
      (p := fun r => decide (r.2.placeHeld r.1 true = false ∧ isHub r.1.loc = false ∧ r.1.cred = (live false).cred ∧ r.2.queues = [] ∧ r.2.contexts = [(7, live false)])) (by decide +kernel)
    simp only [decide_eq_true_eq] at k
    refine ⟨_, q, s1, rfl, rfl, rfl, rfl, by decide, rfl, e, by decide +kernel, k.1, k.2.1, rfl, fun _ _ _ => field_of k.2.2.2 _, ?_⟩
    rw [k.2.2.1]
    intro epoch h
    injection h with h _
    exact absurd h (by decide)
  · obtain ⟨va, e, h, k⟩ := flip_of (x := ((issued copyFlip).flipNext copyFlip).1) (p := fun e => !(issued copyFlip).olderWrites copyFlip 9 e.base (e.base + e.size)) (by decide +kernel)
    exact ⟨va, e, rfl, rfl, rfl, h, by simpa using k, rfl⟩
  · obtain ⟨e, h⟩ : ∃ e, (issued copyLost).copyTrap copyLost 9 = some e := Option.isSome_iff_exists.mp (by decide +kernel)
    exact ⟨e, rfl, rfl, rfl, by decide, by decide, h⟩

/-- A packet of strand 0 of core 0 to core 1 that has entered the send queue; the next stages take it from there. -/
def packet : Packet := { target := 1, lidx := 0, plen := 0, payload := 0, user := 3, sender := { core := 0, num := 0 }, reply := false }
def copyPacket (g : PacketStage) : Copy := { copy9 with op := .sendh, todo := [], packet := some (packet, g) }

theorem hyp_CopyCompletion :
    (let c : Copy := { copy9 with error := some 0x20, todo := [] }
     (issued c).copies.get? 9 = some c ∧ c.error ≠ none ∧ c.group = some 1 ∧ (issued c).recordReady c = true ∧ c.record = none ∧
      (∃ u, (issued c).strands.get? (StrandId.tid { core := 0, num := 0 }) = some u ∧ u.uid = c.uid) ∧
      (c.tagEn = true ∧ c.op.isPacket = false ∧ c.tag.toNat = 5) ∧ (issued c).images.any (Image.holds c.tagCore c.group) = false ∧
      ((issued c).core c.tagCore).group = c.group) ∧
    (let c : Copy := { copy9 with todo := [], record := some (0xFC0000003000, 1) }
     (issued c).copies.get? 9 = some c ∧ c.op.isPacket = false ∧ c.todo = [] ∧ c.pieces = [] ∧ (issued c).recordReady c = true ∧ (issued c).waiters = [] ∧
      windowOf c.issuer.core 0xFC0000003000 1 (issued c).coreExists (fun _ => true) = .spad 0 0x3000 ∧
      (∀ k < 16, ∀ v, (issued c).fieldCell (spadLoc 0 0x3000 + k, v) = some (spadLoc 0 0x3000 + k, v)) ∧
      windowOf c.issuer.core 0xFC0000800000 1 (issued c).coreExists (fun g => c.level == .machine || g == c.issuer.core ||
        (c.group.isSome && decide (((issued c).core g).group = c.group))) = .bad 0x28) ∧
    (let c : Copy := { copy9 with todo := [] }
     let s : State := { issued c with groups := (issued c).groups.map (fun (g : Nat × Group) => (g.1, { g.2 with st := .releasing })) }
     (∃ g, s.groups.get? 1 = some g ∧ g.st = .releasing) ∧ ∀ e ∈ s.copies, e.1 ≠ 9 → e.2.group ≠ some 1) ∧
    ∃ slots, copying.clearToIssue plan64 = some slots ∧ plan64.todo ≠ [] := by
  refine ⟨⟨rfl, by decide, rfl, by decide, rfl, ⟨_, rfl, by decide⟩, by decide, by decide, by decide⟩, ⟨rfl, by decide, rfl, rfl, by decide +kernel, rfl, by decide, fun _ _ _ => rfl, by decide⟩,
    ⟨⟨_, rfl, rfl⟩, by decide⟩, ?_⟩
  obtain ⟨slots, h⟩ : ∃ l, copying.clearToIssue plan64 = some l := Option.isSome_iff_exists.mp (by decide +kernel)
  exact ⟨slots, h, by decide⟩

/-- The packet waits at the landing queue of core 1, whose landing strand is Idle and whose handler table is in its scratchpad. -/
def arrived : State :=
  let s := (issued (copyPacket .landingQueue)).modCore 1 (fun k => { k with landReq := [9], htab := 0xFC0000100000 })
  { s with mem := { Mem.reset with bytes := [(spadLoc 1 0, 0x01), (spadLoc 1 1, 0x10)], owners := [(spadLoc 1 0 / 4096, .ctx (.ctx 3 1))] } }

theorem hyp_PacketsAndHandlers :
    (let s := (issued (copyPacket .sendQueue)).modCore 0 (fun k => { k with sendReq := [9] })
     (s.core 0).sendReq.head? = some 9 ∧ s.copies.get? 9 = some (copyPacket .sendQueue) ∧ (copyPacket .sendQueue).packet = some (packet, .sendQueue) ∧
      s.storesPast (copyPacket .sendQueue) 9 = true) ∧
    (let s := issued (copyPacket .mesh)
     s.copies.get? 9 = some (copyPacket .mesh) ∧ (copyPacket .mesh).error = none ∧ s.packetWelcome (copyPacket .mesh) 1 = true ∧ (s.core 1).landReq.length < 16 ∧
      s.packetWelcome { copyPacket .mesh with group := none } 1 = false) ∧
    (let s := arrived
     let sid : StrandId := { core := 1, num := 4 }
     (s.strand sid).st = .idle ∧ (s.core 1).attaching = false ∧ (s.core 1).retained = 0 ∧ (s.core 1).nextPacket = some 9 ∧
      s.copies.get? 9 = some (copyPacket .landingQueue) ∧ s.recordReady (copyPacket .landingQueue) = true ∧
      s.fenced sid 0xFC0000100000 0xFC0000100008 = false ∧ ((s.core 1).htab.toNat + 8 * packet.lidx.toNat) % 2 ^ 64 = 0xFC0000100000 ∧
      ∃ q s1 r, ({ s.ahead with cur := sid } : State).reach 0xFC0000100000 8 .read false = .ok (.mem q, s1) ∧ s1.mem.poisoned q.cred q.loc 8 = false ∧
        s1.loadMem q 8 false {} = .ok r ∧ leNat r.1 % 4 = 1) ∧
    (Ready user plain false ∧ user.cur.num ≠ 4) ∧
    (let s := landing (fun t => { t with handler := some (5, true) })
     Ready s plain false ∧ s.cur.num = 4 ∧ s.me.handler = some (5, true) ∧ (s.core 0).nextPacket = none ∧ (s.drain s.cur).me.wait = none) := by
  refine ⟨⟨rfl, rfl, rfl, by decide⟩, ⟨rfl, rfl, by decide, by decide, by decide⟩, ⟨by decide, by decide, by decide, by decide, rfl, by decide, by decide, by decide, ?_⟩,
    ⟨ready (by decide), by decide⟩, ready (by decide), rfl, rfl, rfl, by decide⟩
  obtain ⟨q, s1, e, k⟩ := mem_of (x := ({ arrived.ahead with cur := { core := 1, num := 4 } } : State).reach 0xFC0000100000 8 .read false)
    (c := fun q s1 => !s1.mem.poisoned q.cred q.loc 8 && okAnd (s1.loadMem q 8 false {}) (fun r => decide (leNat r.1 % 4 = 1))) (by decide +kernel)
  simp only [Bool.and_eq_true, Bool.not_eq_true'] at k
  obtain ⟨r, h, g⟩ := ok_of k.2
  exact ⟨q, s1, r, e, k.1, h, of_decide_eq_true g⟩

/-- A strand whose core's tag word is 6, with counts of copies and a completion ring in its scratchpad. -/
def tagged (ring : Byte) : State :=
  let s := (tenant false (fun t => { xs 0 6 14 1 0xFFFFFFFFFFFF0001 t with cntIn := 1, cntOut := 2, crb := 0xFC0000000000 })).modCore 0 (fun k => { k with tagw := 6 })
  { s with mem := { Mem.reset with bytes := if ring = 0 then [] else [(spadLoc 0 0, ring)], owners := [(spadLoc 0 0 / 4096, .ctx (.ctx 3 1))] } }

theorem load_of {s : State} {ea n : Nat} {c : Nat → State → Bool} (h : okAnd (s.loadScalar ea n false {}) (fun r => c r.1 r.2) = true) :
    ∃ b u, s.loadScalar ea n false {} = .ok (b, u) ∧ c b u = true := by
  obtain ⟨⟨b, u⟩, e, k⟩ := ok_of h
  exact ⟨b, u, e, k⟩

theorem hyp_TagWaits : let s := tagged 1
    Ready s plain false ∧ s.x 5 = 0 ∧ ((s.core 0).tagw &&& s.x 6 ≠ 0) ∧ ((s.core 0).tagw &&& s.x 6 = s.x 6) ∧ ((s.core 0).tagw &&& s.x 7 ≠ s.x 7) ∧
    (s.x 8 ≠ 0 ∧ (s.core 0).tagw &&& s.x 8 = 0) ∧ s.cur.num ≠ 4 ∧ s.me.cntIn ≤ ((s.x 9).extractLsb' 0 16).toNat ∧ s.me.cntOut > ((s.x 8).extractLsb' 16 16).toNat ∧
    Ready user plain false ∧ user.me.crb = 0 ∧ s.me.crb ≠ 0 ∧ Unheld s 0xFC0000000000 1 ∧ s.me.crb.toNat = 0xFC0000000000 ∧
    (∃ b u, s.loadScalar 0xFC0000000000 1 false {} = .ok (b, u) ∧ b ≠ 0 ∧ u.me.crb = s.me.crb ∧ u.me.ridx = s.me.ridx) ∧
    (∃ b u, (tagged 0).loadScalar 0xFC0000000000 1 false {} = .ok (b, u) ∧ b = 0) ∧
    Ready (landing (xs 0 6 14 1 1)) plain false ∧ (landing (xs 0 6 14 1 1)).cur.num = 4 := by
  refine ⟨ready (by decide), by decide, by decide, by decide, by decide, by decide, by decide, by decide, by decide, ready (by decide), by decide, by decide,
    by unfold Unheld; decide, by decide, ?_, ?_, ready (by decide), by decide⟩
  · obtain ⟨b, u, e, k⟩ := load_of (s := tagged 1) (ea := 0xFC0000000000) (n := 1)
      (c := fun b u => decide (b ≠ 0 ∧ u.me.crb = (tagged 1).me.crb ∧ u.me.ridx = (tagged 1).me.ridx)) (by decide +kernel)
    exact ⟨b, u, e, of_decide_eq_true k⟩
  · obtain ⟨b, u, e, k⟩ := load_of (s := tagged 0) (ea := 0xFC0000000000) (n := 1) (c := fun b _ => decide (b = 0)) (by decide +kernel)
    exact ⟨b, u, e, of_decide_eq_true k⟩

theorem hyp_RangeFences :
    (let s := copying; Ready s plain false ∧ s.me.fences.length < 4 ∧ UnheldAll s (s.refreshReads 0 4) ∧ (∃ items u, s.refresh 0 0 4 = .ok (items, u)) ∧
      Unheld s 0xFC0000000000 16 ∧ ∃ bs u, s.readSpan 0xFC0000000000 16 8 = .ok (bs, u)) ∧
    (let s := user (fun t => { t with fences := List.replicate 4 { items := [(0, 64)], waits := [9] } }); Ready s plain false ∧
      ∃ f rest, s.me.fences = f :: rest ∧ 3 ≤ rest.length) ∧
    (let s := user (fun t => { t with fences := List.replicate 3 { items := [(0, 64)], waits := [9], blocks := true } })
     Ready s plain false ∧ s.me.fences.length < 4 ∧ ∃ f ∈ s.me.fences, f.blocks = true) ∧
    (∀ f ∈ copying.me.fences, f.blocks = false) ∧
    (let s := user (fun t => { t with fences := [{ items := [(0, 64)], waits := [9] }, { items := [(0, 64)], waits := [] }] })
     ∃ f, (s.strand s.cur).fences[1]? = some f ∧ f.waits = []) := by
  refine ⟨⟨ready (by decide), by decide, unheldAll (by decide), ?_, by unfold Unheld; decide, ?_⟩, ⟨ready (by decide), _, _, rfl, by decide⟩, ⟨ready (by decide), by decide, by decide⟩, by decide, _, rfl, rfl⟩
  · obtain ⟨⟨items, u⟩, e, _⟩ := ok_of (x := copying.refresh 0 0 4) (p := fun _ => true) (by decide +kernel)
    exact ⟨items, u, e⟩
  · obtain ⟨⟨bs, u⟩, e, _⟩ := ok_of (x := copying.readSpan 0xFC0000000000 16 8) (p := fun _ => true) (by decide +kernel)
    exact ⟨bs, u, e⟩

/-- Task records in the scratchpad of core 0: one at `x5` whose join counter is at `x6` and holds 2, one of zeros at `x7`, one with a
nonzero bit in ENTRY at `x8`; the counter at `x9` holds 0. -/
def tasks : State :=
  let base := spadLoc 0 0
  { tenant false (xs 0xFC0000000000 0xFC0000000100 0xFC0000000200 0xFC0000000220 0xFC0000000108) with
    mem := { Mem.reset with bytes := [(base + 1, 0x10), (base + 9, 1), (base + 13, 0xFC), (base + 256, 2), (base + 0x220, 1)]
                            owners := [(base / 4096, .ctx (.ctx 3 1))] } }

def aTask : TaskRecord := { entry := 0x1000, tx := 1, join := 0, ty := 2, arg0 := 3, arg1 := 4, arg2 := 5, tz := 6 }

def fullDeque : State := tasks.modCore 0 (fun k => { k with deque := List.replicate 256 aTask })

theorem span_of {s : State} {ea n al : Nat} {c : List Byte → State → Bool} (h : okAnd (s.readSpan ea n al) (fun r => c r.1 r.2) = true) :
    ∃ bs u, s.readSpan ea n al = .ok (bs, u) ∧ c bs u = true := by
  obtain ⟨⟨bs, u⟩, e, k⟩ := ok_of h
  exact ⟨bs, u, e, k⟩

theorem keyFits_live {c : Cred} (h : c = (live false).cred) : KeyFits c := by
  intro epoch k
  rw [h] at k
  injection k with k _
  exact absurd k (by decide)

theorem hyp_TaskWords : let s := tasks
    Ready s plain false ∧ s.cur.num < 4 ∧
    (∃ bs s1 p s2, UnheldAll s [(0xFC0000000000, 0xFC0000000020)] ∧ s.readSpan 0xFC0000000000 32 32 = .ok (bs, s1) ∧
      taskRejected (leNat bs) = false ∧ (TaskRecord.ofNat (leNat bs)).join ≠ 0 ∧ UnheldAll s (TaskRecord.ofNat (leNat bs)).counterBytes ∧ s1.cur = s.cur ∧ s1.reachHome (TaskRecord.ofNat (leNat bs)).join.toNat 8 = .ok (p, s2) ∧
      s2.cur = s.cur ∧ (s1.core 0).deque.length < 256) ∧
    (∃ bs s1, s.readSpan 0xFC0000000200 32 32 = .ok (bs, s1) ∧ taskRejected (leNat bs) = false ∧ (TaskRecord.ofNat (leNat bs)).join = 0) ∧
    (∃ bs s1, s.readSpan 0xFC0000000220 32 32 = .ok (bs, s1) ∧ taskRejected (leNat bs) = true) ∧
    (∃ bs s1, fullDeque.readSpan 0xFC0000000200 32 32 = .ok (bs, s1) ∧ 256 ≤ (s1.core fullDeque.cur.core).deque.length) ∧
    s.x 4 = 0 ∧ s.x 1 = 0 ∧ (∃ p s1, Unheld s (s.x 6).toNat 8 ∧ s.reachHome (s.x 6).toNat 8 = .ok (p, s1) ∧ s1.mem.readNat s1.free p.cred p.loc 8 = 2 ∧
      s1.waiters = [] ∧ p.loc % 8 = 0 ∧ s1.cur = s.cur ∧ (s1.core 0).deque = [] ∧ KeyFits p.cred ∧ ∀ k < 8, ∀ b, s1.fieldCell (p.loc + k, b) = some (p.loc + k, b)) ∧
    (∃ p s1, Unheld s (s.x 9).toNat 8 ∧ s.reachHome (s.x 9).toNat 8 = .ok (p, s1) ∧ s1.mem.readNat s1.free p.cred p.loc 8 = 0) ∧
    (∃ p s1, fullDeque.reachHome (fullDeque.x 6).toNat 8 = .ok (p, s1) ∧ (s1.core 0).deque = List.replicate 255 aTask ++ [aTask]) ∧
    (let s := user (fun t => { t with x := [(1, 0x1002)] }); (s.x 1).toNat % 4 ≠ 0 ∧ Ready s plain false) ∧
    Ready landing plain false ∧ 4 ≤ landing.cur.num := by
  refine ⟨ready (by decide), by decide, ?_, ?_, ?_, ?_, by decide, by decide, ?_, ?_, ?_, ⟨by decide, ready (by decide)⟩, ready (by decide), by decide⟩
  · obtain ⟨bs, s1, e, k⟩ := span_of (s := tasks) (ea := 0xFC0000000000) (n := 32) (al := 32) (c := fun bs s1 =>
      decide (taskRejected (leNat bs) = false ∧ (TaskRecord.ofNat (leNat bs)).join ≠ 0 ∧ (s1.core 0).deque.length < 256 ∧ s1.cur = tasks.cur) &&
      (TaskRecord.ofNat (leNat bs)).counterBytes.all (fun r => !tasks.fenced tasks.cur r.1 r.2) &&
        okAnd (s1.reachHome (TaskRecord.ofNat (leNat bs)).join.toNat 8) (fun r => decide (r.2.cur = tasks.cur))) (by decide +kernel)
    simp only [Bool.and_eq_true, decide_eq_true_eq] at k
    obtain ⟨p, s2, h, g⟩ := home_of (c := fun _ s2 => decide (s2.cur = tasks.cur)) k.2
    exact ⟨bs, s1, p, s2, unheldAll (by decide +kernel), e, k.1.1.1, k.1.1.2.1, unheldAll k.1.2, k.1.1.2.2.2, h, of_decide_eq_true g, k.1.1.2.2.1⟩
  · obtain ⟨bs, s1, e, k⟩ := span_of (s := tasks) (ea := 0xFC0000000200) (n := 32) (al := 32) (c := fun bs _ =>
      decide (taskRejected (leNat bs) = false ∧ (TaskRecord.ofNat (leNat bs)).join = 0)) (by decide +kernel)
    exact ⟨bs, s1, e, of_decide_eq_true k⟩
  · obtain ⟨bs, s1, e, k⟩ := span_of (s := tasks) (ea := 0xFC0000000220) (n := 32) (al := 32) (c := fun bs _ => taskRejected (leNat bs)) (by decide +kernel)
    exact ⟨bs, s1, e, k⟩
  · obtain ⟨bs, s1, e, k⟩ := span_of (s := fullDeque) (ea := 0xFC0000000200) (n := 32) (al := 32) (c := fun _ s1 =>
      decide (256 ≤ (s1.core fullDeque.cur.core).deque.length)) (by decide +kernel)
    exact ⟨bs, s1, e, of_decide_eq_true k⟩
  · obtain ⟨p, s1, e, k⟩ := home_of (s := tasks) (ea := (tasks.x 6).toNat) (n := 8) (c := fun p s1 => decide (s1.mem.readNat s1.free p.cred p.loc 8 = 2 ∧
      s1.waiters = [] ∧ p.loc % 8 = 0 ∧ s1.cur = tasks.cur ∧ (s1.core 0).deque = [] ∧ p.cred = (live false).cred ∧ s1.queues = [] ∧ s1.contexts = [(7, live false)]))
      (by decide +kernel)
    obtain ⟨k1, k2, k3, k4, k5, k6, k7⟩ := of_decide_eq_true k
    exact ⟨p, s1, by unfold Unheld; decide, e, k1, k2, k3, k4, k5, keyFits_live k6, fun _ _ _ => field_of k7 _⟩
  · obtain ⟨p, s1, e, k⟩ := home_of (s := tasks) (ea := (tasks.x 9).toNat) (n := 8) (c := fun p s1 => decide (s1.mem.readNat s1.free p.cred p.loc 8 = 0))
      (by decide +kernel)
    exact ⟨p, s1, by unfold Unheld; decide, e, of_decide_eq_true k⟩
  · obtain ⟨p, s1, e, k⟩ := home_of (s := fullDeque) (ea := (fullDeque.x 6).toNat) (n := 8) (c := fun _ s1 =>
      decide ((s1.core 0).deque = List.replicate 255 aTask ++ [aTask])) (by decide +kernel)
    exact ⟨p, s1, e, of_decide_eq_true k⟩

/-- Core 2 holds a task, strand 1 of core 0 is Idle, and a flood waits for core 0. -/
def rounds (f : Group → Group := id) : State :=
  let s := (tenant).modCore 2 (fun k => { k with deque := [aTask] })
  let s := s.modStrand { core := 0, num := 1 } (fun t => { t with st := .idle, yielding := some (0, [0]) })
  let flood : Flood := { gen := 1, record := aTask, pending := [0, 1] }
  { s with groups := s.groups.map (fun e => (e.1, f { e.2 with gen := 1, spread := true, floods := [flood] })), clk := { s.clk with cycles := 16 } }

theorem hyp_TaskRounds : let s := rounds
    Ready s plain false ∧ s.cur.num < 4 ∧ Ready landing plain false ∧ 4 ≤ landing.cur.num ∧ Ready user plain false ∧ user.groupOf 0 = none ∧
    (∃ g, s.groupOf 0 = some g ∧ (s.core 0).deque.length < 256 ∧ 2 ∈ g.cores ∧ 5 ∉ g.cores ∧ g.spread = true ∧ (∃ f ∈ g.floods, f.gen = g.gen) ∧ g.st = .active ∧
      (s.findRecord g 0 1 [1, 2, 3, 4]).isSome = true ∧ ((tenant).findRecord g 0 1 [1, 2, 3, 4]).isSome = false ∧
      g.floods.find? (fun f => f.pending.contains 0) = some { gen := 1, record := aTask, pending := [0, 1] }) ∧
    (∃ g, (rounds (fun g => { g with floods := [] })).groupOf 0 = some g ∧ g.spread = true ∧ ∀ f ∈ g.floods, f.gen ≠ g.gen) ∧
    (∃ g, (tenant).groupOf 0 = some g ∧ g.spread = false) ∧
    (∃ sid, s.idleStrand 0 = some sid ∧ (s.core 0).stealAt ≤ s.clk.cycles ∧ (s.core 0).retained = 0 ∧ (s.core 0).attaching = false) ∧
    (tenant).idleStrand 0 = none ∧ s.groups.get? 1 = s.groupOf 0 ∧
    (s.strand { core := 0, num := 1 }).yielding = some (0, [0]) ∧ 0 + 16 ≤ s.clk.cycles := by
  refine ⟨ready (by decide), by decide, ready (by decide), by decide, ready (by decide), by decide,
    ⟨_, rfl, by decide, by decide, by decide, rfl, ⟨_, List.mem_cons_self, rfl⟩, rfl, by decide +kernel, by decide +kernel, rfl⟩,
    ⟨_, rfl, rfl, by decide⟩, ⟨_, rfl, rfl⟩, ⟨_, rfl, by decide, by decide, by decide⟩, by decide, rfl, rfl, by decide⟩

/-- Strand 0 of core 0 with `x5` and `x6` the addresses of two barriers of a sync page: the first expects 2 and has none, the second expects 1. -/
def barriers : State :=
  { tenant false (xs 0x13000 0x13008 0x13010 3 0) with
    mem := { Mem.reset with bytes := [(0x35002, 2), (0x35004, 7), (0x3500A, 1)], keys := [(0x35000 / 64, .ctx 3 1)] } }

theorem bar_of {s : State} {ea : Nat} {w : Bool} {n : Option Nat} {c : Place → State → Bool} (h : okAnd (s.reachBarrier ea w n) (fun r => c r.1 r.2) = true) :
    ∃ p u, s.reachBarrier ea w n = .ok (p, u) ∧ c p u = true := by
  obtain ⟨⟨p, u⟩, e, k⟩ := ok_of h
  exact ⟨p, u, e, k⟩

theorem hyp_Barriers : let s := barriers
    let fits (ea : Nat) (wr : Bool) (n : Option Nat) (w : Nat) : Prop := ∃ p s1, Unheld s ea 8 ∧ s.reachBarrier ea wr n = .ok (p, s1) ∧ KeyFits p.cred ∧
      (∀ k < 8, ∀ b, s1.fieldCell (p.loc + k, b) = some (p.loc + k, b)) ∧ p.loc % 8 = 0 ∧ s1.waiters = [] ∧ s1.cur = s.cur ∧ s1.mem.readNat s1.free p.cred p.loc 8 = w
    Ready s plain false ∧ s.cur.num ≠ 4 ∧ (s.x 5).toNat = 0x13000 ∧ (s.x 6).toNat = 0x13008 ∧ (s.x 7).toNat = 0x13010 ∧ (s.x 8).toNat = 3 ∧
    fits 0x13000 true (some 3) 0x700020000 ∧ fits 0x13000 true none 0x700020000 ∧ fits 0x13008 true none 0x10000 ∧ fits 0x13010 true none 0 ∧
    fits 0x13000 false none 0x700020000 ∧ fits 0x13008 false none 0x10000 := by
  refine ⟨ready (by decide), by decide, by decide, by decide, by decide, by decide, ?_, ?_, ?_, ?_, ?_, ?_⟩
  · obtain ⟨p, u, e, k⟩ := bar_of (s := barriers) (ea := 0x13000) (w := true) (n := some 3) (c := fun p u => decide (p.cred = (live false).cred ∧ (u.queues = [] ∧ u.contexts = [(7, live false)]) ∧ p.loc % 8 = 0 ∧
      u.waiters = [] ∧ u.cur = barriers.cur ∧ u.mem.readNat u.free p.cred p.loc 8 = 0x700020000)) (by decide +kernel)
    have k := of_decide_eq_true k
    exact ⟨p, u, by unfold Unheld; decide, e, keyFits_live k.1, fun _ _ _ => field_of k.2.1 _, k.2.2⟩
  · obtain ⟨p, u, e, k⟩ := bar_of (s := barriers) (ea := 0x13000) (w := true) (n := none) (c := fun p u => decide (p.cred = (live false).cred ∧ (u.queues = [] ∧ u.contexts = [(7, live false)]) ∧ p.loc % 8 = 0 ∧
      u.waiters = [] ∧ u.cur = barriers.cur ∧ u.mem.readNat u.free p.cred p.loc 8 = 0x700020000)) (by decide +kernel)
    have k := of_decide_eq_true k
    exact ⟨p, u, by unfold Unheld; decide, e, keyFits_live k.1, fun _ _ _ => field_of k.2.1 _, k.2.2⟩
  · obtain ⟨p, u, e, k⟩ := bar_of (s := barriers) (ea := 0x13008) (w := true) (n := none) (c := fun p u => decide (p.cred = (live false).cred ∧ (u.queues = [] ∧ u.contexts = [(7, live false)]) ∧ p.loc % 8 = 0 ∧
      u.waiters = [] ∧ u.cur = barriers.cur ∧ u.mem.readNat u.free p.cred p.loc 8 = 0x10000)) (by decide +kernel)
    have k := of_decide_eq_true k
    exact ⟨p, u, by unfold Unheld; decide, e, keyFits_live k.1, fun _ _ _ => field_of k.2.1 _, k.2.2⟩
  · obtain ⟨p, u, e, k⟩ := bar_of (s := barriers) (ea := 0x13010) (w := true) (n := none) (c := fun p u => decide (p.cred = (live false).cred ∧ (u.queues = [] ∧ u.contexts = [(7, live false)]) ∧ p.loc % 8 = 0 ∧
      u.waiters = [] ∧ u.cur = barriers.cur ∧ u.mem.readNat u.free p.cred p.loc 8 = 0)) (by decide +kernel)
    have k := of_decide_eq_true k
    exact ⟨p, u, by unfold Unheld; decide, e, keyFits_live k.1, fun _ _ _ => field_of k.2.1 _, k.2.2⟩
  · obtain ⟨p, u, e, k⟩ := bar_of (s := barriers) (ea := 0x13000) (w := false) (n := none) (c := fun p u => decide (p.cred = (live false).cred ∧ (u.queues = [] ∧ u.contexts = [(7, live false)]) ∧ p.loc % 8 = 0 ∧
      u.waiters = [] ∧ u.cur = barriers.cur ∧ u.mem.readNat u.free p.cred p.loc 8 = 0x700020000)) (by decide +kernel)
    have k := of_decide_eq_true k
    exact ⟨p, u, by unfold Unheld; decide, e, keyFits_live k.1, fun _ _ _ => field_of k.2.1 _, k.2.2⟩
  · obtain ⟨p, u, e, k⟩ := bar_of (s := barriers) (ea := 0x13008) (w := false) (n := none) (c := fun p u => decide (p.cred = (live false).cred ∧ (u.queues = [] ∧ u.contexts = [(7, live false)]) ∧ p.loc % 8 = 0 ∧
      u.waiters = [] ∧ u.cur = barriers.cur ∧ u.mem.readNat u.free p.cred p.loc 8 = 0x10000)) (by decide +kernel)
    have k := of_decide_eq_true k
    exact ⟨p, u, by unfold Unheld; decide, e, keyFits_live k.1, fun _ _ _ => field_of k.2.1 _, k.2.2⟩

/-- A Resident portable kernel of one virtual core and two channels, whose code is page 18. -/
def aKernel : Kernel :=
  { st := .resident, asid := 7, image := [], codePa := 0x34000, codeVa := 0x12000, codeLen := 4096, dataPa := 0x36000, dataVa := 0x13000, dataLen := 4096, dataSec := 0,
    svn := 1, portable := true, vcores := 1, nchan := 2, hostRef := true, queues := [], code := [], entries := [], starts := [0] }

/-- Strand 0 of core 0 runs in it; its mailbox of channel 0 holds one word, and that of channel 1 sixteen. -/
def portable : State :=
  let s := tenant false (fun t => { xs 0 1 7 8 9 t with pc := 0x12000 })
  { s with kernels := [(2, aKernel)], mem := { s.mem with marks := [(0x34, { slot := 2, portable := true })] },
           boxes := [(aKernel.box 0 0, [5]), (aKernel.box 1 0, List.replicate 16 6)] }

theorem hyp_ChannelWords :
    (Ready user plain false ∧ user.chanKernel = none) ∧ (landing.cur.num = 4) ∧
    (let s := portable
     Ready s plain false ∧ s.chanKernel = some (2, aKernel) ∧ 0 < aKernel.vcores ∧ s.ownVcore 2 aKernel = 0 ∧ aKernel.nchan ≤ (2 : BitVec 8).toNat ∧
      (0 : BitVec 8).toNat < aKernel.nchan ∧ (1 : BitVec 8).toNat < aKernel.nchan ∧ (s.x 5).toNat < aKernel.vcores ∧ aKernel.vcores ≤ (s.x 6).toNat ∧
      s.box (aKernel.box 0 0) = [5] ∧ 16 ≤ (s.box (aKernel.box 1 0)).length ∧ (s.drain s.cur).waiters = [] ∧ s.cur.num ≠ 4) ∧
    ({ portable with boxes := [] } : State).box (aKernel.box 0 0) = [] ∧
    (portable.modMe (fun t => { t with inline := some 0 })).me.inline = some 0 ∧
    (let s := portable.modMe (fun t => { t with task := some { aTask with role := .virtual 0 } })
     s.me.inline = none ∧ ∃ r, s.me.task = some r ∧ r.role = .virtual 0) := by
  refine ⟨⟨ready (by decide), by decide +kernel⟩, rfl, ?_, rfl, rfl, rfl, _, rfl, rfl⟩
  refine ⟨ready (by decide), by decide +kernel, by decide, ?_, by decide, by decide, by decide, by decide, by decide, by decide,
    by decide, by decide, by decide⟩
  exact Nat.mod_one _

theorem hyp_ControlRegisters :
    (let s := user; Ready s plain false ∧ s.myLevel = .user) ∧ (let s := standby; Ready s plain false ∧ s.myLevel ≠ .user) ∧
    17 < (18 : BitVec 8).toNat ∧ (17 : BitVec 8).toNat ≤ 17 ∧ (∃ u, user.csrWrite 0 0x30 = .ok u) ∧ (∃ u, standby.csrWrite 17 3 = .ok u) ∧
    (∃ u, user.csrWrite 8 224 = .ok u) ∧ (∃ e, user.csrWrite 8 232 = .error e) ∧ (∃ e, user.csrWrite 0 0x60 = .error e) ∧
    (5 < ((0x60 : Word).extractLsb' 4 3).toNat ∧ ((0x50 : Word).extractLsb' 4 3).toNat ≤ 5) ∧
    ((256 : Word).extractLsb' 0 9).toNat = 2 ^ 8 ∧ (∀ j ≤ 8, ((3 : Word).extractLsb' 0 9).toNat ≠ 2 ^ j) := by
  have err : ∀ (r : Run), r.isOk = false → ∃ e, r = .error e := by
    intro r h
    cases r with
    | ok a => cases h
    | error e => exact ⟨e, rfl⟩
  exact ⟨⟨ready (by decide), by decide⟩, ⟨ready (by decide), by decide⟩, by decide, by decide, some_of (by decide +kernel), some_of (by decide +kernel),
    some_of (by decide +kernel), err _ (by decide +kernel), err _ (by decide +kernel), by decide, by decide, by decide⟩

/-- A message of the handler chain about strand 1 of core 0. -/
def chainMsg : ChainMsg := { who := { core := 0, num := 1 }, cause := 0xA5, hops := 0, epc := 0x1000, eva := 0 }

/-- The standby strand of core 0 serves it. -/
def serving : State :=
  let s := (tenant).setStrand { core := 0, num := 5 } { xs 2 0 0 0 0 (Strand.fresh .running 5) with ssw := 0x8007 }
  let s := s.setStrand { core := 0, num := 1 } { Strand.fresh .trapped 1 with chained := true }
  { s.modCore 0 (fun k => { k with serving := some (.chain chainMsg) }) with cur := { core := 0, num := 5 } }

/-- As `tenant`, at supervisor level. -/
def supervisor (f : Strand → Strand := id) : State := tenant false (fun t => f { t with ssw := 0x8005 })

theorem hyp_SystemWords :
    (Ready user plain false ∧ user.myLevel = .user) ∧
    (let s := user (fun t => { t with woke := true }); s.me.woke = true ∧ Ready s plain false) ∧
    (let s := { user (xs 5 0 0 0 0) with clk := { cycles := 0, time := 5, sub := 0, slew := 0 } }
     s.x 5 ≠ 0 ∧ (s.x 5).toNat ≤ s.time.toNat ∧ ¬ (s.me.woke = true ∨ (s.x 6 ≠ 0 ∧ (s.x 6).toNat ≤ s.time.toNat) ∨ (s.somePending s.cur = true ∧ s.mayTake s.cur = false)) ∧
      s.cur.num ≠ 4) ∧
    (let s := user (fun t => { t with irqTimer := true, ssw := 0x8000 }); s.somePending s.cur = true ∧ s.mayTake s.cur = false) ∧
    (let s := landing; ¬ (s.me.woke = true ∨ (s.x 6 ≠ 0 ∧ (s.x 6).toNat ≤ s.time.toNat) ∨ (s.somePending s.cur = true ∧ s.mayTake s.cur = false)) ∧ s.cur.num = 4) ∧
    (let s := supervisor; Ready s plain true ∧ s.cur.num < 4) ∧
    (let s := serving; Ready s plain true ∧ s.cur.num = 5 ∧ (s.core 0).serving = some (.chain chainMsg) ∧
      ((s.endStandby 0).strand chainMsg.who).chained = true ∧ chainMsg.who.num < 4) ∧
    (Ready standby plain true ∧ standby.cur.num = 5 ∧ ∀ m, (standby.core 0).serving ≠ some (.chain m)) ∧
    (let s := supervisor (xs 8 2 5 0 0)
     Ready s plain true ∧ s.coreExists (s.x 6).toNat = true ∧ s.asid s.cur ≠ none ∧ s.asidOf (s.x 6).toNat = s.asid s.cur ∧ (s.x 5).toNat % 8 < 4 ∧ 4 ≤ (s.x 7).toNat % 8 ∧
      (∀ q ∈ (s.core 2).urgentQ, q.code ≠ 3) ∧ ¬ (s.asidOf 5 = s.asid s.cur)) ∧
    ∃ q ∈ (({ user with cores := [(2, { CoreState.reset with urgentQ := [{ code := 3, issuer := 0, arg := 0 }] })] } : State).core 2).urgentQ, q.code = 3 := by
  refine ⟨⟨ready (by decide), by decide⟩, ⟨by decide, ready (by decide)⟩, by decide, by decide, by decide, ⟨ready (by decide), by decide⟩,
    ⟨ready (by decide), by decide, by decide, by decide +kernel, by decide⟩, ⟨ready (by decide), by decide, fun m => by intro h; cases h⟩,
    ⟨ready (by decide), by decide, by decide, by decide, by decide, by decide, by decide, by decide⟩, by decide⟩

/-- A cluster whose handler chain has an entry on its core 1. -/
def chained (s : State) : State := { s with clusters := [(0, { ClusterState.reset with chain := [(1, 0x8000)] })] }

/-- As `portable`, when the kernel has been withdrawn. -/
def withdrawn : State := { portable with kernels := [(2, { aKernel with st := .withdrawn })] }

theorem hyp_TrapsAndInterrupts :
    (let s := tenant; let sid : StrandId := { core := 0, num := 0 }
     sid.num < 4 ∧ s.level sid = .user ∧ s.contextOf 0 = some (live false) ∧ (0x05 : Cause).toNat < 0xF0 ∧ (live false).pageable = false ∧ (s.strand sid).tile = none) ∧
    (let s := tenant true; let sid : StrandId := { core := 0, num := 0 }
     s.level sid = .user ∧ s.contextOf 0 = some (live true) ∧ (live true).pageable = true ∧ (transTrap { cause := 0x20, level := 1 } 0x5000 .read).fault ≠ none ∧
      (transTrap { cause := 0x20, level := 1 } 0x5000 .read).cause.toNat < 0xF0) ∧
    (let s := chained (supervisor); s.chainFor { core := 0, num := 0 } = [(1, 0x8000)] ∧ s.level { core := 0, num := 0 } ≠ .user ∧
      s.chainFor { core := 0, num := 4 } = [(1, 0x8000)] ∧ s.chainFor { core := 0, num := 5 } = [(1, 0x8000)] ∧ (s.core 0).serving = none) ∧
    (∃ e, withdrawn.contextOf 0 = some (live false) ∧ withdrawn.fetch { core := 0, num := 0 } = .error e ∧ e.cause.toNat < 0xF0 ∧ e.resume = none ∧ e.stall = false ∧ e.drains = false ∧ e.drop = none ∧ e.caches = none) ∧
    (let s : State := { tenant with hub := { Hub.reset with phase := 5 } }; s.tidExists 0 = true ∧ s.hub.phase = 5 ∧ (tenant).hub.phase ≠ 4 ∧ (tenant).hub.phase ≠ 5 ∧ (s.strand { core := 0, num := 0 }).st = .running ∧ (live false).st ≠ .halted ∧
      (s.strand { core := 0, num := 1 }).st = .halted ∧ s.contextOf 5 = none) ∧
    (let s := tenant false (fun t => { t with irqPost := true }); let sid : StrandId := { core := 0, num := 0 }
     s.contextOf 0 = some (live false) ∧ s.mayTake sid = true ∧ (s.strand sid).interruptible = true) := by
  refine ⟨by decide, by decide, by decide, ?_, by decide, by decide⟩
  have err : ∀ (r : Except Trap (IWord × State)) (p : Trap → Bool), (match r with | .ok _ => false | .error e => p e) = true →
      ∃ e, r = .error e ∧ p e = true := by
    intro r p h
    cases r with
    | ok a => cases h
    | error e => exact ⟨e, rfl, h⟩
  obtain ⟨e, h, k⟩ := err (withdrawn.fetch { core := 0, num := 0 })
    (fun e => decide (e.cause.toNat < 0xF0 ∧ e.resume = none ∧ e.stall = false ∧ e.drains = false ∧ e.drop = none ∧ e.caches = none)) (by decide +kernel)
  exact ⟨e, by decide, h, of_decide_eq_true k⟩

/-- Strand 1 of core 0 is parked with a wait; the tag word of the core is 6. -/
def parked (w : Wait) (served : Option Word) : State :=
  let s := (tenant).setStrand { core := 0, num := 1 } { Strand.fresh .parked 1 with wait := some w, served := served }
  { s.modCore 0 (fun k => { k with tagw := 6 }) with clk := { cycles := 100, time := 100, sub := 0, slew := 0 } }

/-- Core 1 waits: a chain message and an urgent request are queued, and every strand is inactive. -/
def quiet (chain : List ChainMsg) (urgent : List UrgentReq) : State :=
  let s := chained { (tenant).modCore 1 (fun k => { k with chainQ := chain, urgentQ := urgent, rfsleep := 2, group := none }) with strands := [] }
  { s with urgentTable := [(3, 0x9000)], clk := { cycles := 100, time := 100, sub := 0, slew := 0 } }

theorem hyp_StrandEvents : let sid : StrandId := { core := 0, num := 1 }
    let rests (s : State) : Prop := (s.strand sid).st = .parked ∧ (s.strand sid).paused = false ∧ (s.strand sid).chained = false ∧
      (s.core 0).retained = 0 ∧ s.interruptFirst sid = false ∧ s.stopPending sid = false ∧ (s.core 0).retiredAt ≠ some s.clk.cycles
    rests (parked (.word .ldc 5 64) (some 9)) ∧ rests (parked (.word .stp 5 64) (some 9)) ∧ rests (parked (.barrier true 5 64 1) (some 9)) ∧
    (rests (parked (.tagAny 5 2) none) ∧ ((parked (.tagAny 5 2) none).core 0).tagw &&& 2 ≠ 0) ∧
    (rests (parked (.tagAll 5 2) none) ∧ ((parked (.tagAll 5 2) none).core 0).tagw &&& 2 = 2) ∧
    (rests (parked (.classes 0) none) ∧ ((parked (.classes 0) none).strand sid).classesMet 0 = true) ∧
    (let s := rounds (fun g => { g with floods := [] })
     let s := s.setStrand sid { s.strand sid with st := .parked, wait := some (.flood 5) }
     rests s ∧ ∃ g, s.groupOf 0 = some g ∧ g.spread = true ∧ ∀ f ∈ g.floods, f.gen ≠ g.gen) ∧
    (rests (parked (.counter 64 .shared) (some 0)) ∧ let s := (parked (.counter 64 .shared) none).modCore 0 (fun k => { k with deque := [aTask] })
     rests s ∧ (s.core 0).deque = [] ++ [aTask]) ∧
    (rests (parked (.event 100) none) ∧ (100 : Word).toNat ≤ (parked (.event 100) none).time.toNat) ∧
    (let s := (parked (.event 0) none).modStrand sid (fun t => { t with nudge := some (100, true), woke := true })
     (s.strand sid).nudge = some (100, true) ∧ 100 ≤ s.clk.cycles ∧ (s.strand sid).woke = true ∧ rests s) ∧
    (let s := quiet [{ chainMsg with hops := 0 }] []
     (∀ n < 4, (s.strand { core := 1, num := n }).got = []) ∧ (s.core 1).serving = none ∧ (s.strand { core := 1, num := 5 }).st = .parked ∧ (s.strand { core := 1, num := 5 }).wait = none ∧ (s.core 1).retained = 0 ∧
      (s.core 1).chainQ = [chainMsg] ∧ (s.chainFor chainMsg.who)[chainMsg.hops]? = some (1, 0x8000)) ∧
    (let s := quiet [] [{ code := 3, issuer := 0, arg := 7 }]
     (s.core 1).chainQ = [] ∧ (s.core 1).urgentQ = [{ code := 3, issuer := 0, arg := 7 }] ∧ s.urgentTable.get? 3 = some 0x9000 ∧ (s.core 1).serving = none ∧
      (s.core 1).retained = 0) ∧
    (let s := quiet [] []
     (∀ n < 6, s.inactive { core := 1, num := n } = true) ∧ ((s.core 1).rfsleep.extractLsb' 0 2).toNat ≠ 0 ∧ (s.core 1).retained = 0) ∧
    (let s := (quiet [] [{ code := 3, issuer := 0, arg := 7 }]).modCore 1 (fun k => { k with retained := 2 })
     (s.core 1).retained ≠ 0 ∧ (s.cluster (1 % 1024 / 4)).curc = 0 ∧ s.wakesCore 1 = true) := by
  refine ⟨by decide, by decide, by decide, by decide, by decide, by decide, ⟨by decide, _, rfl, rfl, by decide⟩, by decide, by decide, by decide, ?_⟩
  decide +kernel

/-- Strand 1 waits for the entry of a completion ring, whose first record has been written. -/
def ringWait : State :=
  (tagged 1).setStrand { core := 0, num := 1 } { Strand.fresh .parked 1 with wait := some (.ring 5), crb := 0xFC0000000000, crn := 2 }

theorem hyp_StrandEvents_ring : let s := ringWait
    let sid : StrandId := { core := 0, num := 1 }
    let q := s.strand sid
    let u : State := { ((s.modCore 0 (fun k => { k with retiredAt := some s.clk.cycles })).setStrand sid
      { q with st := .running, wait := none, served := none, lastFetch := s.clk.cycles }) with cur := sid, cut := none, replay := [] }
    q.st = .parked ∧ q.wait = some (.ring 5) ∧ q.served = none ∧ Ready u plain false ∧ q.crb ≠ 0 ∧ Unheld u u.me.ringHead.toNat 1 ∧
    ∃ v r0, u.loadScalar u.me.ringHead.toNat 1 false {} = .ok (v, r0) ∧ v ≠ 0 ∧ r0.cur = sid ∧ r0.me = u.me := by
  refine ⟨rfl, rfl, rfl, ready (by decide), by decide, by unfold Unheld; decide, ?_⟩
  obtain ⟨v, r0, e, k⟩ := load_of (s := { ((ringWait.modCore 0 (fun k => { k with retiredAt := some ringWait.clk.cycles })).setStrand { core := 0, num := 1 }
      { ringWait.strand { core := 0, num := 1 } with st := .running, wait := none, served := none, lastFetch := ringWait.clk.cycles }) with
        cur := { core := 0, num := 1 }, cut := none, replay := [] }) (ea := 0xFC0000000000) (n := 1)
    (c := fun v r0 => decide (v ≠ 0 ∧ r0.cur = { core := 0, num := 1 } ∧
      r0.me = { ringWait.strand { core := 0, num := 1 } with st := .running, wait := none, served := none, lastFetch := ringWait.clk.cycles })) (by decide +kernel)
  obtain ⟨k1, k2, k3⟩ := of_decide_eq_true k
  exact ⟨v, r0, e, k1, k2, k3⟩

/-- A pageable context with an entry in its fault queue, at index 2, that strand 1 waits for. -/
def faults : State :=
  let f : PagerFault := { va := 0x5000, cause := 0x20, kind := .read, level := 1, posted := true, counted := false }
  let c := { live true with posted := [{ index := 2, page := 5, cause := 0x20, who := [1] }] }
  let s := (tenant true (fun t => { xs 0x10007 2 0x23 0x25 9 t with ssw := 0x8005 })).setStrand { core := 0, num := 1 }
    { Strand.fresh .parked 1 with wait := some (.pager f none) }
  { s with contexts := [(7, c)], mem := { s.mem with bytes := [(c.fqEntry 2 + 18, 1)], keys := [((c.fqEntry 2 + 18) / 64, .ctx 3 1)] } }

theorem leaf_of {s : State} {who : Option StrandId} {core k va : Nat} (h : (s.leafFor who core k va).isOk = true) :
    ∃ e v, s.leafFor who core k va = .ok (e, v) := by
  obtain ⟨⟨e, v⟩, h⟩ := some_of h
  exact ⟨e, v, h⟩

theorem noleaf_of {s : State} {who : Option StrandId} {core k va : Nat}
    (h : (match s.leafFor who core k va with | .ok _ => false | .error f => decide (f.level < 8 ∧ f.held = false)) = true) :
    ∃ f, s.leafFor who core k va = .error f ∧ f.level < 8 ∧ f.held = false := by
  split at h
  · cases h
  · rename_i f e
    exact ⟨f, e, of_decide_eq_true h⟩

theorem hyp_TranslationWords :
    (let s := supervisor (xs 7 0x10000 0xFC0000000000 0x40007 0x10007)
     Ready s plain true ∧ s.asid s.cur = some 7 ∧ s.myLevel ≠ .machine ∧ s.outstanding s.me.uid = 0 ∧ (s.x 5).toNat / 2 ^ 18 = 0 ∧ (s.x 8).toNat / 2 ^ 18 ≠ 0 ∧
      ((s.x 5).extractLsb' 0 16).toNat = 7 ∧ (s.x 5).getLsbD 16 = false ∧ (s.x 5).getLsbD 17 = false ∧ (s.x 9).toNat / 2 ^ 18 = 0 ∧ (s.x 9).getLsbD 16 = true ∧
      s.window s.cur (s.x 6).toNat 1 = .outside ∧ s.window s.cur (s.x 7).toNat 1 ≠ .outside ∧ (∃ e v, s.leafFor (some s.cur) 0 7 0x10000 = .ok (e, v)) ∧
      (∃ f, s.leafFor (some s.cur) 0 7 0x90000 = .error f ∧ f.level < 8 ∧ f.held = false) ∧ s.window s.cur 0x1000000000000 1 = .outside) ∧
    (Ready standby plain true ∧ standby.myLevel = .machine ∧ standby.asid standby.cur = none) ∧
    (let v : Inval := { issuer := some 0, asid := none, glob := true, lo := 0, hi := 1, pending := [1], draining := [] }
     let s := { supervisor with invals := (List.range 8).map (fun i => (i, v)) }; s.outstanding s.me.uid = 8) ∧
    (let s := faults
     Ready s plain true ∧ s.asid s.cur = some 7 ∧ (∃ c, s.contexts.get? 7 = some c ∧ c.pageable = true ∧ (s.x 6).toNat < c.fqSize ∧ KeyFits c.cred ∧
        (s.drain s.cur).mem.readNat (s.drain s.cur).free c.cred (c.fqEntry 2 + 18) 1 = 1 ∧ (s.drain s.cur).mem.readNat (s.drain s.cur).free c.cred (c.fqEntry 9 + 18) 1 ≠ 1 ∧
        ∃ p ∈ c.posted, p.index = 2 ∧ 1 ∈ p.who) ∧ s.waiters = [] ∧ s.me.wait = none ∧ (s.x 7).toNat = 0x23 ∧ (s.x 8).toNat ∈ [0x20, 0x23, 0x24, 0x25, 0x26, 0x27, 0x2B] ∧
      ∃ q, s.strands.get? 1 = some q ∧ s.copies.get? q.uid = none ∧ q.uid = 1 ∧ q.st = .parked ∧ q.wait.isSome = true) := by
  refine ⟨⟨ready (by decide), by decide, by decide, by decide, by decide, by decide, by decide, by decide, by decide, by decide, by decide, by decide, by decide,
    leaf_of (by decide +kernel), noleaf_of (by decide +kernel), by decide⟩, ⟨ready (by decide), by decide, by decide⟩, by decide, ⟨ready (by decide), by decide,
    ⟨_, rfl, rfl, by decide, keyFits_live rfl, by decide +kernel, by decide +kernel, _, List.mem_cons_self, rfl, by decide⟩, rfl, by decide, by decide, by decide,
    _, rfl, rfl, rfl, rfl, rfl⟩⟩

/-- A walk in progress, a fault to be posted, and an invalidation that has reached core 1. -/
def walking (posted : List Posted) : State :=
  let f : PagerFault := { va := 0x5000, cause := 0x20, kind := .read, level := 1, posted := false, counted := false }
  let s := (tenant true).setStrand { core := 0, num := 1 } { Strand.fresh .parked 1 with wait := some (.pager f none) }
  let w : Walk := { asid := 7, page := 16, core := 0, discarded := false }
  { s with contexts := [(7, { live true with posted := posted })]
           clusters := [(0, { ClusterState.reset with walks := [w, { w with discarded := true }] })]
           mem := { s.mem with bytes := [(0x100000, 0x01), (0x100001, 0x10), (0x100002, 0x10), (0x101000, 0x01), (0x101001, 0x20), (0x101002, 0x10),
                                         (0x102000, 0x01), (0x102001, 0x30), (0x102002, 0x10), (0x103080, 0x5F), (0x103082, 0x03)]
                               keys := [(0x4000, .ctx 3 1), (0x4040, .ctx 3 1), (0x4080, .ctx 3 1), (0x40C2, .ctx 3 1)] }
           invals := [(9, { issuer := some 0, asid := some 7, glob := false, lo := 0, hi := 2 ^ 48, pending := [2], draining := [(1, { since := 0, copies := [] })] })] }

theorem found_of {r : WalkResult} (h : (match r with | .found .. => true | .failed _ => false) = true) : ∃ e ptrs, r = .found e ptrs := by
  cases r with
  | found e ptrs => exact ⟨e, ptrs, rfl⟩
  | failed l => cases h

theorem failed_of {r : WalkResult} (h : (match r with | .found .. => false | .failed _ => true) = true) : ∃ l, r = .failed l := by
  cases r with
  | found e ptrs => cases h
  | failed l => exact ⟨l, rfl⟩

theorem hyp_TranslationEvents :
    (let s := walking []
     ∃ w d, (s.cluster 0).walks[0]? = some w ∧ w.discarded = false ∧ (s.cluster 0).walks[1]? = some d ∧ d.discarded = true ∧
      (∃ u, s.walkReads none w.asid (w.page * 4096) = some u) ∧ (∃ e ptrs, s.walk w.asid (w.page * 4096) = .found e ptrs) ∧
      (∃ u, (walking []).walkReads none 7 0x90000 = some u) ∧ ∃ l, (walking []).walk 7 0x90000 = .failed l) ∧
    (let s := walking []
     ∃ p, s.postingOf (.strand { core := 0, num := 1 }) = some p ∧ s.waiters = [] ∧ s.contexts.get? p.asid = some (live true) ∧ KeyFits (live true).cred ∧
      (s.mem.readNat s.free (live true).cred (live true).fqPlace 4 + 2 ^ 32 - s.mem.readNat s.free (live true).cred ((live true).fqPlace + 8) 4) % 2 ^ 32 ≠ (live true).fqSize ∧
      (live true).merging.find? (fun q => q.page == p.fault.va / 4096 && q.cause == p.fault.cause) = none) ∧
    (let q : Posted := { index := 2, page := 5, cause := 0x20, who := [3] }
     let s := walking [q]
     ∃ p c, s.postingOf (.strand { core := 0, num := 1 }) = some p ∧ s.contexts.get? p.asid = some c ∧
      c.merging.find? (fun q => q.page == p.fault.va / 4096 && q.cause == p.fault.cause) = some q) ∧
    (let s := walking []
     ∃ v d, s.invals.get? 9 = some v ∧ 2 ∈ v.pending ∧ v.draining.get? 1 = some d ∧
      (∀ b ∈ (s.core 1).buffer, ∀ e, b.leaf = some e → v.dropsLeaf e = true → d.since < b.born) ∧
      (∀ w ∈ (s.cluster (1 % 1024 / 4)).walks, w.discarded = true → w.core = 1 → v.dropsWalk w = false) ∧
      (∀ n < 6, let q := s.strand { core := 1, num := n }
        q.got = [] ∨ (∀ e ∈ q.pinned, v.dropsLeaf e = false) ∨ d.since < q.bornAt) ∧
      (∀ e ∈ d.copies, ∀ c, s.copies.get? e.1 = some c → c.error ≠ none ∨ c.wait ≠ none ∨ v.workLeft c < e.2) ∧
      s.undrained v 0 d = true) := by
  refine ⟨⟨_, _, rfl, rfl, rfl, rfl, Option.isSome_iff_exists.mp (by decide +kernel), found_of (by decide +kernel),
      Option.isSome_iff_exists.mp (by decide +kernel), failed_of (by decide +kernel)⟩, ⟨_, rfl, rfl, rfl, keyFits_live rfl, by decide +kernel, by decide⟩, ⟨_, _, rfl, rfl, by decide⟩,
    ⟨_, _, rfl, by decide, rfl, by decide, by decide, by decide, by decide, by decide⟩⟩

/-! ### Commands -/

/-- The security engine runs a command. -/
def asks (s : State) (op : Nat) (args : List Word) : State :=
  { s with hub := { s.hub with running := some (BitVec.ofNat 8 op, (List.range args.length).map (fun i => (i + 1, args.getD i 0))) } }

/-- The operands of a command, as `asks` sets them. -/
def operands (args : List Word) : Sparse Word := (List.range args.length).map (fun i => (i + 1, args.getD i 0))

theorem asked {s : State} {op : Nat} {args : List Word} (h : (unusedClear op (operands args) && (asks s op args).namesOk op (operands args)) = true) :
    Asked (asks s op args) op (operands args) := by
  simp only [Bool.and_eq_true] at h
  exact ⟨rfl, h.1, h.2⟩

/-- A context descriptor of ASID 9 at `0x40000`, one of a group of core 8 at `0x40040`, and one that is not accepted at `0x40080`. -/
def descriptors : State :=
  { tenant with mem := { Mem.reset with bytes := [(0x40000, 9), (0x40040, 1), (0x40048, 8), (0x4004A, 1), (0x40082, 2)], keys := [(0x1000, .shared), (0x1001, .shared), (0x1002, .shared)] },
                partitions := [(0, [0, 2])], hub := { State.reset.hub with mode := 0 } }

theorem hyp_ContextCommands :
    (let s := asks tenant 6 [5]; s.hub.running = some (BitVec.ofNat 8 6, operands [5]) ∧ s.namesOk 6 (operands [5]) = false ∧ unusedClear 6 (operands [7, 1]) = false) ∧
    (let s := asks descriptors 1 [0x40000]
     Asked s 1 (operands [0x40000]) ∧ readable 0x40000 64 = true ∧ s.mem.readNat s.free Cred.shared 0x40000 64 = 9 ∧ descriptorBad 9 = false ∧
      (s.contexts.get? (9 % 65536)).isSome = false ∧ s.hub.mode ≠ 3 ∧ s.freeSlot = some 0) ∧
    (let s := asks descriptors 1 [0x40080]; Asked s 1 (operands [0x40080]) ∧ descriptorBad (s.mem.readNat s.free Cred.shared 0x40080 64) = true) ∧
    (let s := asks { descriptors with hub := { descriptors.hub with mode := 3 } } 1 [0x40000]; Asked s 1 (operands [0x40000]) ∧ s.hub.mode = 3) ∧
    (let s := asks descriptors 2 [7, 0x40040]
     Asked s 2 (operands [7, 0x40040]) ∧ s.contexts.get? 7 = some (live false) ∧ (live false).st ≠ .halted ∧ (live false).st ≠ .swapped ∧ readable 0x40040 64 = true ∧
      s.groupRefused (live false) (s.mem.readNat s.free Cred.shared 0x40040 64) = false ∧ s.groupRefused (live false) (s.mem.readNat s.free Cred.shared 0x40000 64) = true) ∧
    (∃ g, (let s := (tenant).modCore 2 (fun k => { k with attaching := true })
     s.groupOf 2 = some g ∧ (s.core 2).attaching = true ∧ ∀ k ∈ g.cores, (s.strand { core := k, num := 4 }).st = .idle)) ∧
    (let s := asks tenant 6 [7]; Asked s 6 (operands [7]) ∧ s.contexts.get? 7 = some (live false) ∧ (live false).st ≠ .halted) ∧
    (let c : Context := { live false with st := .halted }
     let s := asks { tenant with contexts := [(7, c)] } 7 [7]
     Asked s 7 (operands [7]) ∧ s.contexts.get? 7 = some c ∧ s.hub.destroying ≠ some 7 ∧
      let u : State := { s with hub := { s.hub with destroying := some 7 }, invals := [(9, { issuer := none, asid := some 7, glob := true, lo := 0, hi := 1, pending := [1], draining := [] })] }
      Asked u 7 (operands [7]) ∧ u.hub.destroying = some 7 ∧ (∃ e ∈ u.invals, e.2.issuer = none) ∧
      let v : State := { u with invals := [] }
      Asked v 7 (operands [7]) ∧ v.hub.destroying = some 7 ∧ ∀ e ∈ v.invals, e.2.issuer ≠ none) := by
  refine ⟨by decide, ?_, ?_, ?_, ?_, ⟨_, rfl, by decide, by decide⟩, ?_, ?_⟩
  · exact ⟨asked (by decide), by decide, by decide +kernel, by decide +kernel, by decide, by decide, by decide +kernel⟩
  · exact ⟨asked (by decide), by decide +kernel⟩
  · exact ⟨asked (by decide), by decide⟩
  · exact ⟨asked (by decide), by decide, by decide, by decide, by decide, by decide +kernel, by decide +kernel⟩
  · exact ⟨asked (by decide), by decide, by decide⟩
  · exact ⟨asked (by decide), by decide, by decide, ⟨rfl, by decide, by decide⟩, by decide, by decide, ⟨rfl, by decide, by decide⟩, by decide, by decide⟩

/-- Strand 1 of core 0 waits for a tag, and so can be saved; strand 1 of core 1 is saved. -/
def movable : State :=
  let s := (tenant).setStrand { core := 0, num := 1 } { Strand.fresh .parked 1 with wait := some (.tagAny 5 1), evictReq := true }
  let s := s.setStrand { core := 1, num := 1 } { Strand.fresh .evicted 9 with lastFetch := 0 }
  { s with saved := [{ tid := 9, asid := 7, strand := { Strand.fresh .parked 9 with wait := some (.tagAny 5 1) }, waits := [], place := 0x250000,
                       kept := { bytes := [], keys := [], poison := [] } }] }

/-- Partition 0 is swapped out. -/
def swappedOut : State :=
  let im : Image := { partition := 0, clusters := [0], strands := [(0, Strand.fresh .parked 0)], waits := [], cores := [], bytes := [(spadLoc 0 8, 5)], empty := [], owners := [] }
  { State.reset with images := [im], partitions := [(0, [0])], hub := { State.reset.hub with shways := 3 } }

theorem hyp_ContextMoves :
    (let s := asks movable 3 [1]
     Asked s 3 (operands [1]) ∧ ofTid 1 = { core := 0, num := 1 } ∧ s.contextOf 0 = some (live false) ∧ (live false).st = .active ∧ s.canSave { core := 0, num := 1 } = true ∧
      s.groupOf 0 ≠ none) ∧
    (let s := asks movable 3 [0]; Asked s 3 (operands [0]) ∧ s.canSave { core := 0, num := 0 } = false ∧ (s.strand { core := 0, num := 0 }).st = .running) ∧
    (let s := asks movable 3 [2]; Asked s 3 (operands [2]) ∧ s.canSave { core := 0, num := 2 } = false ∧ (s.strand { core := 0, num := 2 }).st = .halted ∧
      (s.strand { core := 0, num := 2 }).paused = false) ∧
    (let s := asks movable 3 [4]; Asked s 3 (operands [4]) ∧ 4 ≤ (ofTid 4).num) ∧
    ((movable.strand { core := 0, num := 1 }).evictReq = true ∧ (movable.strand { core := 0, num := 1 }).paused = false ∧ movable.canSave { core := 0, num := 1 } = true) ∧
    (let s := movable.modStrand { core := 0, num := 2 } (fun t => { t with evictReq := true })
     (s.strand { core := 0, num := 2 }).evictReq = true ∧ s.canSave { core := 0, num := 2 } = false ∧ (s.strand { core := 0, num := 2 }).st = .halted) ∧
    (let s := asks movable 4 [0, 9]
     ∃ x, Asked s 4 (operands [0, 9]) ∧ s.saved.find? (fun x => x.tid == 9) = some x ∧ s.contexts.get? x.asid = some (live false) ∧
      s.restorePlace 9 = some { core := 1, num := 1 } ∧ s.mem.region x.place 0x10000 = x.kept ∧ x.waits = [] ∧ x.strand.tile = none) ∧
    (let s := asks movable 4 [0, 8]; Asked s 4 (operands [0, 8]) ∧ s.saved.find? (fun x => x.tid == 8) = none) ∧
    (let s := asks swappedOut 4 [1, 0]
     ∃ im, Asked s 4 (operands [1, 0]) ∧ s.images.find? (fun im => im.partition == 0) = some im ∧ im.waits = [] ∧ Sparse.sortedFrom 0 im.strands = true ∧
      Sparse.sortedFrom 0 im.bytes = true ∧ ∀ k ∈ s.clusterCoresOf im.clusters, (s.core k).group = none ∧ (s.core k).serving = none) ∧
    (let s := asks { tenant with hub := { State.reset.hub with shways := 3 } } 5 [0]
     Asked s 5 (operands [0]) ∧ s.hub.swapping = none ∧ s.swapWrong 0 = false ∧ s.shadowFull 0 = false) ∧
    (let s := asks tenant 5 [0]; Asked s 5 (operands [0]) ∧ s.swapWrong 0 = false ∧ s.shadowFull 0 = true) ∧
    (let s := asks tenant 5 [1]; Asked s 5 (operands [1]) ∧ s.swapWrong 1 = true) ∧
    (let s := asks { tenant with hub := { State.reset.hub with swapping := some 0 } } 5 [0]
     Asked s 5 (operands [0]) ∧ s.hub.swapping = some 0 ∧ (∀ k ∈ s.clusterCoresOf (s.partition 0), (s.core k).serving = none ∧ (s.core k).chainQ = [] ∧ (s.core k).urgentQ = [] ∧
        ∀ n < 5, (s.strand { core := k, num := n }).got = []) ∧
      (∀ k ∈ s.listedCores, s.sharesContext ((s.clusterCoresOf (s.partition 0)).filter (fun k => s.listedCores.contains k)) k = true →
        ∀ n < 5, (s.strand { core := k, num := n }).got = []) ∧
      ∀ e ∈ s.copies, e.2.intoCores ((s.clusterCoresOf (s.partition 0)).filter (fun k => s.listedCores.contains k)) = false) := by
  refine ⟨⟨asked (by decide), by decide, by decide, by decide, by decide +kernel, by decide⟩, ⟨asked (by decide), by decide +kernel, by decide⟩,
    ⟨asked (by decide), by decide +kernel, by decide, by decide⟩, ⟨asked (by decide), by decide⟩, by decide +kernel, by decide +kernel,
    ⟨_, asked (by decide), rfl, by decide, by decide +kernel, by decide +kernel, rfl, rfl⟩, ⟨asked (by decide), by decide⟩,
    ⟨_, asked (by decide), rfl, rfl, by decide, by decide +kernel, by decide⟩, ⟨asked (by decide), by decide, by decide +kernel, by decide +kernel⟩,
    ⟨asked (by decide), by decide +kernel, by decide +kernel⟩, ⟨asked (by decide), by decide +kernel⟩, ⟨asked (by decide), by decide, by decide, by decide +kernel, by decide⟩⟩

/-- A queue of context 7's group 1: its control block is at `0x40000` and its ring at `0x41000`. -/
def aQueue : Queue := { st := .enabled, block := 0x40000, asid := 7, group := 1, liveva := 0x5000, ring := 0x41000, size := 16 }

/-- A queue and the slot in force that serves it, where the head of the ring holds `head`; `live` is LIVE. -/
def queueing (q : Queue) (head : List Host.Cell) (live_ : Byte) (k : Kernel := aKernel) : State :=
  let s := tenant
  let block := [(0x40000, (2 : Byte))] ++ (if live_ = 0 then [] else [(0x40020, live_)])
  { s with queues := [(3, q)], kernels := [(2, k)], ttable := some { entries := [{ offset := 0, queue := 3, maxpkt := 5, kind := 0, skip := true, target := 0 }], cycle := 1000, start := 0 }
           ttSlot := some { index := 0, stop := 2000, left := 5, began := true }, clk := { cycles := 0, time := 1000, sub := 0, slew := 0 }
           hub := { State.reset.hub with kctr := 0, fwctrNext := 0, dbgauth := true, nkkeys := 1 }
           mem := { Mem.reset with bytes := block ++ head.map (fun e => (0x41000 + e.1, e.2)), keys := [(0x1000, .shared), (0x1040, .ctx 3 1), (0x1041, .ctx 3 1)] } }

def aTable : TtTable := { entries := [{ offset := 0, queue := 3, maxpkt := 5, kind := 0, skip := true, target := 0 }], cycle := 1000, start := 0 }

/-- What `ready` finds, as a check. -/
theorem ready_of {s : State} {n : Nat} (p : Queue → Head → Group → Bool) (h : (s.ready n).any (fun r => p r.1 r.2.1 r.2.2) = true) :
    ∃ q w g, s.ready n = some (q, w, g) ∧ p q w g = true := by
  cases e : s.ready n with
  | none => rw [e] at h; cases h
  | some r => rw [e] at h; exact ⟨r.1, r.2.1, r.2.2, rfl, h⟩

/-- The slot in force is over, with a read of a packet begun, where the stacks are quiesced as `busy` says. -/
def ended (busy : BitVec 12) : State :=
  { queueing aQueue [(0, 6)] 0 with clk := { cycles := 0, time := 3000, sub := 0, slew := 0 }, hub := { State.reset.hub with busy := busy } }

theorem hyp_QueueCommands :
    (let s := asks (queueing aQueue [] 0) 8 [3, 0x40040, 7, 1, 0x5000]; s.waiters = [] ∧ Asked s 8 (operands [3, 0x40040, 7, 1, 0x5000]) ∧ (s.queues.get? 3).isSome = true) ∧
    (let s := asks (queueing aQueue [] 0) 8 [4, 0x40040, 7, 1, 0x5000]
     Asked s 8 (operands [4, 0x40040, 7, 1, 0x5000]) ∧ s.queues.get? 4 = none ∧ s.queueContextOk 7 1 = true ∧
      blockBad 0x40040 (s.mem.readNat s.free (live false).cred 0x40040 64) = false ∧ blockBad 0x40041 0 = true ∧ s.queueContextOk 7 2 = false) ∧
    (let q : Queue := { aQueue with st := .halted }; let s := asks (queueing q [] 0) 9 [3]; Asked s 9 (operands [3]) ∧ s.queues.get? 3 = some q) ∧
    (let s := asks (queueing aQueue [] 0) 10 [3]; Asked s 10 (operands [3]) ∧ s.queues.get? 3 = some aQueue ∧ s.live aQueue = 0 ∧ (queueing aQueue [] 1).live aQueue ≠ 0) ∧
    (let s := asks { State.reset with mem := { Mem.reset with bytes := [(0x40005, 1)], keys := [(0x1000, .shared)] } } 11 [0x40000, 1, 1000, 0]
     Asked s 11 (operands [0x40000, 1, 1000, 0]) ∧ readable 0x40000 16 = true ∧ ttEntryBad 1000 (s.mem.readNat s.free Cred.shared 0x40000 16) = false ∧
      s.switchTable = some s ∧ ∀ x, s.ttNext = some x → s.clk.time < x.start) ∧
    (let s : State := { queueing aQueue [] 0 with ttNext := some aTable }; s.ttNext = some aTable ∧ aTable.start ≤ s.clk.time ∧ s.endSlot ≠ none ∧ s.switchTable ≠ none) ∧
    (let s : State := { queueing aQueue [(0, 6)] 0 with ttNext := some aTable, hub := { State.reset.hub with busy := 0xFFF } }
     s.ttNext = some aTable ∧ s.endSlot = none ∧ s.switchTable = none) ∧
    (let s := ended 0
     ∃ slot e q h g, s.ttSlot = some slot ∧ slot.stop ≤ s.clk.time ∧ slot.began = true ∧ s.ttable = some aTable ∧ aTable.entries[slot.index]? = some e ∧ e.kind = 0 ∧
      s.ready e.queue = some (q, h, g) ∧ (s.servePacket e.queue q h g).ttSlot.all (fun x => !x.began) = true) ∧
    (let s := ended 0xFFF
     ∃ slot e q h g, s.ttSlot = some slot ∧ slot.stop ≤ s.clk.time ∧ slot.began = true ∧ s.ttable = some aTable ∧ aTable.entries[slot.index]? = some e ∧ e.kind = 0 ∧
      s.ready e.queue = some (q, h, g) ∧ (s.servePacket e.queue q h g).ttSlot.any (fun x => x.began) = true) ∧
    (let s : State := { queueing aQueue [] 0 with ttSlot := some { index := 0, stop := 1000, left := 5 } }
     ∃ slot e, s.ttSlot = some slot ∧ slot.stop ≤ s.clk.time ∧ slot.began = false ∧ s.ttable = some aTable ∧ aTable.entries[slot.index]? = some e ∧ e.kind = 0 ∧ e.skip = true ∧
      s.queues.get? e.queue = some aQueue ∧ (queueing aQueue [(0, 6)] 0).pendingPackets aQueue ≠ 0) ∧
    (let s : State := { queueing aQueue [] 0 with ttSlot := none }
     ∃ e, s.ttSlot = none ∧ (∀ x, s.ttNext = some x → s.clk.time < x.start) ∧ s.ttable = some aTable ∧ aTable.entries[0]? = some e ∧ aTable.start ≤ s.clk.time ∧ e.kind ≠ 1 ∧
      e.offset ≤ (s.clk.time - aTable.start) % aTable.cycle ∧
      (s.clk.time - aTable.start) % aTable.cycle < (aTable.entries[0 + 1]?.map (fun x => x.offset)).getD aTable.cycle) := by
  refine ⟨⟨rfl, asked (by decide), by decide⟩, ⟨asked (by decide), by decide, by decide, by decide +kernel, by decide, by decide⟩, ⟨asked (by decide), by decide⟩,
    ⟨asked (by decide), by decide, by decide +kernel, by decide +kernel⟩, ⟨asked (by decide), by decide, by decide +kernel, rfl, by intro x h; cases h⟩,
    ⟨rfl, by decide, by decide +kernel, by decide +kernel⟩, ⟨rfl, by decide +kernel, by decide +kernel⟩, ?_, ?_,
    ⟨_, _, rfl, by decide, rfl, rfl, rfl, by decide, rfl, by decide, by decide +kernel⟩, ⟨_, rfl, (by intro x h; cases h), rfl, rfl, by decide, by decide, by decide, by decide⟩⟩
  · obtain ⟨q, h, g, e, k⟩ := ready_of (s := ended 0) (n := 3) (fun q h g => ((ended 0).servePacket 3 q h g).ttSlot.all (fun x => !x.began)) (by decide +kernel)
    exact ⟨_, _, q, h, g, rfl, by decide, rfl, rfl, rfl, rfl, e, k⟩
  · obtain ⟨q, h, g, e, k⟩ := ready_of (s := ended 0xFFF) (n := 3) (fun q h g => ((ended 0xFFF).servePacket 3 q h g).ttSlot.any (fun x => x.began)) (by decide +kernel)
    exact ⟨_, _, q, h, g, rfl, by decide, rfl, rfl, rfl, rfl, e, k⟩

/-- A ready packet of a type, whose reads are not held. -/
def servesAs (s : State) (k : Nat) (q : Queue) (h : Head) : Bool :=
  h.type == k && !s.frontEndHeld q && (!h.fence || s.live q == 0)

theorem plain_cell {s : State} {loc : Nat} (h : s.queues.find? (fun q => decide (q.2.block ≤ loc) && decide (loc < q.2.block + 64)) = none ∧
    s.contexts.find? (fun c => c.2.fqHolds loc) = none) (v : Byte) : s.fieldCell (loc, v) = some (loc, v) := by
  simp only [State.fieldCell, h.1, h.2]

theorem place_of {s : State} {q : Queue} {g : Group} {a : Nat} {k : Access} {c : Place → Bool}
    (h : (match s.packetPlace q g a k with | .ok p => c p | .error _ => false) = true) : ∃ p, s.packetPlace q g a k = .ok p ∧ c p = true := by
  split at h
  · rename_i p e
    exact ⟨p, e, h⟩
  · cases h

/-- A unit whose ADDR is the scratchpad of core 1. -/
def atSpad (type opt : Byte) (value : Byte) : List Host.Cell := [(0, type)] ++ (if opt = 0 then [] else [(4, opt)]) ++ [(10, 0x10), (12, 0), (13, 0xFC), (16, value), (24, 0xFF)]

/-- A packet whose address is a window is not walked. -/
theorem walk_spad {s : State} {q : Queue} {h : Head} (w : decide (windowOf (2 ^ 40) h.addr 8 (fun _ => true) (fun _ => true) ≠ .outside) = true) :
    s.packetWalk q h = some s := by
  exact if_pos (by rw [bne_iff_ne.mpr (of_decide_eq_true w), Bool.or_true])

theorem hyp_PacketDispatch :
    (let s := queueing aQueue [(0, 9)] 0
     s.served 3 = some aQueue ∧ s.slotOpen = true ∧ s.frontEndHeld aQueue = false ∧ s.queues.get? 3 = some aQueue ∧ s.waiters = [] ∧
     ∃ h, s.headOf aQueue = some h ∧ s.fate 3 aQueue h = some 0xC1 ∧ ((s.frontEndTouch aQueue).packetWalk aQueue h).isSome = true) ∧
    (let s := queueing aQueue [(0, 6)] 0
     s.served 3 = some aQueue ∧ s.slotOpen = true ∧ s.frontEndHeld aQueue = false ∧
     ∃ h, s.headOf aQueue = some h ∧ s.fate 3 aQueue h = none ∧ ((s.frontEndTouch aQueue).packetWalk aQueue h).isSome = true) ∧
    (let s := queueing aQueue [(0, 6)] 0; ∃ q h g, s.ready 3 = some (q, h, g) ∧ servesAs s 6 q h = true) ∧
    (let s : State := { queueing aQueue [(0, 6)] 0 with clk := { cycles := 0, time := 3000, sub := 0, slew := 0 } }
     ∃ q h g, s.slotOpen = false ∧ s.ready 3 = some (q, h, g) ∧ servesAs s 6 q h = true) ∧
    (let s := queueing aQueue [(0, 6), (1, 2)] 1
     ∃ q h g, s.ready 3 = some (q, h, g) ∧ decide (h.type = 6 ∧ s.frontEndHeld q = false ∧ h.fence = true ∧ s.live q ≠ 0) = true) ∧
    (let s := { queueing aQueue [(0, 6)] 0 with hub := { (queueing aQueue [(0, 6)] 0).hub with busy := 0xFFF } }
     ∃ q h g, s.ready 3 = some (q, h, g) ∧ decide (h.type = 6 ∧ s.frontEndHeld q = true) = true) ∧
    (let s := queueing aQueue [(0, 3), (2, 2)] 0 { aKernel with queues := [3] }
     ∃ q h g, s.ready 3 = some (q, h, g) ∧ (servesAs s 3 q h && s.live q == 0) = true) ∧
    (let s := queueing aQueue [(0, 3), (2, 2)] 1 { aKernel with queues := [3] }
     ∃ q h g, s.ready 3 = some (q, h, g) ∧ (servesAs s 3 q h && s.live q != 0) = true) ∧
    (let s := queueing aQueue (atSpad 4 1 5) 0
     ∃ q h g, s.ready 3 = some (q, h, g) ∧ servesAs s 4 q h = true ∧ s.packetWalk q h = some s ∧
      ∃ p, s.packetPlace q g h.addr .read = .ok p ∧ s.placeHeld p false = false) ∧
    (let s := queueing aQueue ((atSpad 5 2 5).take 5) 0
     ∃ q h g, s.ready 3 = some (q, h, g) ∧ servesAs s 5 q h = true ∧ s.packetWalk q h = some s ∧ h.opt.testBit 0 = false) ∧
    (let s := queueing aQueue ((atSpad 5 1 5).take 6) 0
     ∃ q h g, s.ready 3 = some (q, h, g) ∧ servesAs s 5 q h = true ∧ s.packetWalk q h = some s ∧ h.opt.testBit 0 = true ∧
      ∃ p, s.packetPlace q g h.addr .write = .ok p ∧ s.placeHeld p true = false ∧ isHub p.loc = false ∧ KeyFits p.cred ∧
        ∀ k < 8, ∀ v, s.fieldCell (p.loc + k, v) = some (p.loc + k, v)) ∧
    (let s := queueing aQueue [(0, 2), (1, 1)] 0
     ∃ q h g, s.ready 3 = some (q, h, g) ∧ (servesAs s 2 q h && decide (s.groupClear g = true ∧ s.groups.get? q.group = some g)) = true) ∧
    (let s := (queueing aQueue [(0, 2), (1, 1)] 0).modCore 2 (fun k => { k with attaching := true })
     ∃ q h g, s.ready 3 = some (q, h, g) ∧ (servesAs s 2 q h && !s.groupClear g) = true) ∧
    (let s := (queueing aQueue [(0, 1), (1, 1), (8, 1)] 0).modStrand { core := 1, num := 2 } (fun t => { t with st := .idle })
     ∃ q h g, s.ready 3 = some (q, h, g) ∧ (servesAs s 1 q h && decide (s.groupClear g = true ∧ s.groups.get? q.group = some g ∧ h.any = false ∧
      (s.activateGroup q.group g).idleStrand h.core = some { core := 1, num := 2 })) = true) ∧
    (let s := queueing aQueue [(0, 1), (1, 1), (8, 1)] 0
     ∃ q h g, s.ready 3 = some (q, h, g) ∧ (servesAs s 1 q h && decide (s.groupClear g = true ∧ s.groups.get? q.group = some g ∧
      (s.activateGroup q.group g).idleStrand h.core = none ∧ ((s.activateGroup q.group g).core h.core).deque.length < 256)) = true) ∧
    ∃ g, (queueing aQueue [] 0).groups.get? 1 = some g ∧ ({ g with st := .attached } : Group).st = .attached := by
  refine ⟨⟨by decide, by decide, by decide +kernel, by decide, rfl, ?_⟩, ⟨by decide, by decide, by decide +kernel, ?_⟩,
    ready_of (fun q h _ => servesAs (queueing aQueue [(0, 6)] 0) 6 q h) (by decide +kernel),
    ?_,
    ready_of (s := queueing aQueue [(0, 6), (1, 2)] 1) _ (by decide +kernel),
    ready_of (s := { queueing aQueue [(0, 6)] 0 with hub := { (queueing aQueue [(0, 6)] 0).hub with busy := 0xFFF } }) _ (by decide +kernel),
    ready_of (s := queueing aQueue [(0, 3), (2, 2)] 0 { aKernel with queues := [3] }) _ (by decide +kernel),
    ready_of (s := queueing aQueue [(0, 3), (2, 2)] 1 { aKernel with queues := [3] }) _ (by decide +kernel), ?_, ?_, ?_,
    ready_of (s := queueing aQueue [(0, 2), (1, 1)] 0) _ (by decide +kernel),
    ready_of (s := (queueing aQueue [(0, 2), (1, 1)] 0).modCore 2 (fun k => { k with attaching := true })) _ (by decide +kernel),
    ready_of (s := (queueing aQueue [(0, 1), (1, 1), (8, 1)] 0).modStrand { core := 1, num := 2 } (fun t => { t with st := .idle })) _ (by decide +kernel),
    ready_of (s := queueing aQueue [(0, 1), (1, 1), (8, 1)] 0) _ (by decide +kernel), ⟨_, rfl, rfl⟩⟩
  · obtain ⟨h, e⟩ : ∃ h, (queueing aQueue [(0, 9)] 0).headOf aQueue = some h := Option.isSome_iff_exists.mp (by decide +kernel)
    have k : ((queueing aQueue [(0, 9)] 0).headOf aQueue).all (fun h => (queueing aQueue [(0, 9)] 0).fate 3 aQueue h == some 0xC1 &&
      (((queueing aQueue [(0, 9)] 0).frontEndTouch aQueue).packetWalk aQueue h).isSome) = true := by decide +kernel
    rw [e] at k
    obtain ⟨k1, k2⟩ := (Bool.and_eq_true ..).mp k
    exact ⟨h, e, eq_of_beq k1, k2⟩
  · obtain ⟨h, e⟩ : ∃ h, (queueing aQueue [(0, 6)] 0).headOf aQueue = some h := Option.isSome_iff_exists.mp (by decide +kernel)
    have k : ((queueing aQueue [(0, 6)] 0).headOf aQueue).all (fun h => (queueing aQueue [(0, 6)] 0).fate 3 aQueue h == none &&
      (((queueing aQueue [(0, 6)] 0).frontEndTouch aQueue).packetWalk aQueue h).isSome) = true := by decide +kernel
    rw [e] at k
    obtain ⟨k1, k2⟩ := (Bool.and_eq_true ..).mp k
    exact ⟨h, e, eq_of_beq k1, k2⟩
  · obtain ⟨q, h, g, e, k⟩ := ready_of (s := { queueing aQueue [(0, 6)] 0 with clk := { cycles := 0, time := 3000, sub := 0, slew := 0 } }) (n := 3)
      (fun q h _ => servesAs { queueing aQueue [(0, 6)] 0 with clk := { cycles := 0, time := 3000, sub := 0, slew := 0 } } 6 q h) (by decide +kernel)
    exact ⟨q, h, g, by decide, e, k⟩
  · obtain ⟨q, h, g, e, k⟩ := ready_of (s := queueing aQueue (atSpad 4 1 5) 0) (n := 3)
      (fun q h g => servesAs (queueing aQueue (atSpad 4 1 5) 0) 4 q h && decide (windowOf (2 ^ 40) h.addr 8 (fun _ => true) (fun _ => true) ≠ .outside) &&
        match (queueing aQueue (atSpad 4 1 5) 0).packetPlace q g h.addr .read with
        | .ok p => !(queueing aQueue (atSpad 4 1 5) 0).placeHeld p false | .error _ => false) (by decide +kernel)
    simp only [Bool.and_eq_true] at k
    obtain ⟨p, e2, k2⟩ := place_of k.2
    exact ⟨q, h, g, e, k.1.1, walk_spad k.1.2, p, e2, by simpa using k2⟩
  · obtain ⟨q, h, g, e, k⟩ := ready_of (s := queueing aQueue ((atSpad 5 2 5).take 5) 0) (n := 3)
      (fun q h g => servesAs (queueing aQueue ((atSpad 5 2 5).take 5) 0) 5 q h &&
        decide (windowOf (2 ^ 40) h.addr 8 (fun _ => true) (fun _ => true) ≠ .outside) && decide (h.opt.testBit 0 = false)) (by decide +kernel)
    simp only [Bool.and_eq_true] at k
    exact ⟨q, h, g, e, k.1.1, walk_spad k.1.2, of_decide_eq_true k.2⟩
  · obtain ⟨q, h, g, e, k⟩ := ready_of (s := queueing aQueue ((atSpad 5 1 5).take 6) 0) (n := 3)
      (fun q h g => servesAs (queueing aQueue ((atSpad 5 1 5).take 6) 0) 5 q h && decide (windowOf (2 ^ 40) h.addr 8 (fun _ => true) (fun _ => true) ≠ .outside) &&
        h.opt.testBit 0 && match (queueing aQueue ((atSpad 5 1 5).take 6) 0).packetPlace q g h.addr .write with
        | .ok p => decide ((queueing aQueue ((atSpad 5 1 5).take 6) 0).placeHeld p true = false ∧ isHub p.loc = false ∧ p.cred = (live false).cred ∧ p.loc = spadLoc 1 0)
        | .error _ => false) (by decide +kernel)
    simp only [Bool.and_eq_true] at k
    obtain ⟨p, e2, k2⟩ := place_of k.2
    have k2 := of_decide_eq_true k2
    refine ⟨q, h, g, e, k.1.1.1, walk_spad k.1.1.2, k.1.2, p, e2, k2.1, k2.2.1, keyFits_live k2.2.2.1, fun n hn v => plain_cell ?_ v⟩
    rw [k2.2.2.2]
    revert n
    decide

/-- An image of one native page with one entry and no data section, unsigned. -/
@[irreducible] def anImage : List Byte := [0x4B, 0x4F, 0x42, 0x4A, 1, 1, 0, 0, 0, 0x10] ++ List.replicate 8694 (0 : Byte)

/-- The header of an image with one entry and eight bytes of code, and an image whose code is a lone `hsched` word. -/
@[irreducible] def entryImage : List Byte := [0, 0, 0, 0, 0, 1, 0, 0, 8]
@[irreducible] def modifierImage : List Byte := List.replicate 8 (0 : Byte) ++ [4] ++ List.replicate 4087 0 ++ [0, 0, 0, 5]

/-- The two words of that code, behind a `spawn`, a `join`, an `exit x13` and an `exit`. -/
def taskAround : List IWord := [0xB8A2C000, 0xB8028100, 0xB8034200, 0xB8004200, 0, 0]

/-- The kernel that a KLOAD of it starts, and one that waits for its translation. -/
def loading : Kernel := { aKernel with st := .loading, image := anImage, codeLen := 0x2000, portable := false, svn := 1, hostRef := false }
def verified : Kernel := { aKernel with st := .verified, nchan := 0, codeLen := 4096, hostRef := false }

def hosting (k : Kernel) : State := queueing aQueue [] 0 k

theorem hyp_Kernels :
    (let s := asks (hosting loading) 12 [2, 7, 0x41000, 8704, 0x34000, 0x12000, 0x2000, 0x36000, 0x13000, 4096]
     s.kernels.get? 2 = some loading ∧ loading.st = .loading ∧ Asked s 12 (operands [2, 7, 0x41000, 8704, 0x34000, 0x12000, 0x2000, 0x36000, 0x13000, 4096])) ∧
    (let s := asks (hosting loading) 12 [3, 7, 0x41000, 8704, 0x34000, 0x12000, 0x2000, 0x36000, 0x13000, 4096]
     Asked s 12 (operands [3, 7, 0x41000, 8704, 0x34000, 0x12000, 0x2000, 0x36000, 0x13000, 4096]) ∧ s.kernels.get? 3 = none ∧ s.contexts.get? 7 = some (live false) ∧
      (live false).loads = true ∧ readable 0x41000 8704 = true) ∧
    ((hosting loading).kernels.get? 2 = some loading ∧ (Config.kernelSignatureOk anImage = true → (hosting loading).kernelRefusal loading = 0) ∧
      (hosting { loading with image := [] }).kernelRefusal { loading with image := [] } ≠ 0) ∧
    (let k : Kernel := { verified with image := entryImage }
     let s := hosting k
     s.kernels.get? 2 = some k ∧ k.st = .verified ∧ k.portable = true ∧ s.cached k = none ∧ k.translates taskAround [4096] 4112 = true ∧
      k.translates [] [] 0 = false ∧ k.gethen.any modifierWord = false) ∧
    ((hosting { verified with image := modifierImage }).cached { verified with image := modifierImage } = none ∧
      ({ verified with image := modifierImage } : Kernel).gethen.any modifierWord = true) ∧
    (let x := verified.translation [] [] 0
     ({ hosting verified with transCache := [x] } : State).cached verified = some x) ∧
    (let k : Kernel := { verified with st := .translated }; let s := hosting k
     s.kernels.get? 2 = some k ∧ k.st = .translated ∧ s.contexts.get? k.asid = some (live false) ∧ KeyFits (live false).cred ∧ s.waiters = [] ∧
      ∀ e ∈ k.image0 ++ k.zeros, ∀ f ∈ k.image0 ++ k.zeros, e.1 = f.1 → e = f) ∧
    (let s := asks (hosting aKernel) 13 [2]
     Asked s 13 (operands [2]) ∧ s.kernels.get? 2 = some aKernel ∧ aKernel.hostRef = true ∧ aKernel.st = .resident ∧ aKernel.queues = [] ∧
      ({ s with kernels := s.kernels.set 2 { aKernel with hostRef := false } } : State).codeInUse { aKernel with hostRef := false } = false ∧
      let u := s.modStrand { core := 0, num := 0 } (fun t => { t with pc := 0x12000 })
      ({ u with kernels := u.kernels.set 2 { aKernel with hostRef := false } } : State).codeInUse { aKernel with hostRef := false } = true) ∧
    (let s := asks (hosting aKernel) 14 [2]; Asked s 14 (operands [2]) ∧ s.kernels.get? 2 = some aKernel ∧ s.kernels.get? 1 = none) ∧
    (let k : Kernel := { aKernel with st := .withdrawn }; let s := asks (hosting k) 15 [2]; Asked s 15 (operands [2]) ∧ s.kernels.get? 2 = some k ∧ k.st = .withdrawn) := by
  refine ⟨?_, ?_, ⟨rfl, ?_, by decide +kernel⟩, ⟨rfl, rfl, rfl, rfl, by decide +kernel, by decide +kernel, by decide +kernel⟩,
    ⟨rfl, by decide +kernel⟩, ?_, ⟨rfl, rfl, rfl, keyFits_live rfl, rfl, ?_⟩, ?_, ?_, ?_⟩
  · exact ⟨rfl, rfl, asked (by decide +kernel)⟩
  · exact ⟨asked (by decide +kernel), by decide, rfl, by decide, by decide⟩
  · intro sig
    have a : imageBad anImage = false := by decide +kernel
    have b : (decide (loading.codeLen < codeNeed anImage) || decide (loading.dataLen < dataNeed anImage) || !readable loading.codePa (codeNeed anImage) ||
       !readable loading.dataPa (dataNeed anImage)) = false := by decide +kernel
    unfold State.kernelRefusal
    simp only [show loading.image = anImage from rfl, a, b, sig]
    rfl
  · simp [State.cached, Translation.verifies, Kernel.translation, Translation.sign, Translation.signed]
  · have z : ({ verified with st := .translated }.image0 ++ { verified with st := .translated }.zeros).all (fun e => e.2 == 0) = true := by decide +kernel
    intro e me f mf h
    exact Prod.ext h ((eq_of_beq (List.all_eq_true.mp z e me)).trans (eq_of_beq (List.all_eq_true.mp z f mf)).symm)
  · exact ⟨asked (by decide), by decide, rfl, rfl, rfl, by decide, by decide⟩
  · exact ⟨asked (by decide), by decide, by decide⟩
  · exact ⟨asked (by decide), by decide, rfl⟩

/-- A machine whose fuses are as given, with an event before the black box. -/
def trusting (mode : BitVec 2) : State :=
  let e : BbEvent := { event := 7, source := 0, cause := 0, tag := 0, addr := 0, aux := 0, arrived := 0 }
  { tenant with hub := { State.reset.hub with kctr := 0, fwctrNext := 0, dbgauth := true, nkkeys := 1, mode := mode, bbQueue := [e, { e with event := 5, cause := 0xF0, arrived := 1 }] } }

theorem hyp_TrustEvents :
    (let s := asks (trusting 0) 16 [1, 63]; Asked s 16 (operands [1, 63]) ∧ s.hub.kctr.toNat < 63 ∧ s.hub.fwctrNext.toNat < 63) ∧
    (let s := asks (trusting 0) 17 [7, 0x40000, 0x41000]
     Asked s 17 (operands [7, 0x40000, 0x41000]) ∧ s.contexts.get? 7 = some (live false) ∧ (live false).st ≠ .halted ∧ readable 0x40000 64 = true ∧ readable 0x41000 1024 = true ∧
      s.waiters = []) ∧
    (let s := asks (trusting 0) 18 [2, 7, 0]; Asked s 18 (operands [2, 7, 0]) ∧ s.hub.mode ≠ 3 ∧ s.liveContext 7 = true ∧ s.liveContext 8 = false) ∧
    (let s := asks (trusting 0) 18 [3, 0, 0x40000]
     Asked s 18 (operands [3, 0, 0x40000]) ∧ s.hub.dbgauth = true ∧ readable 0x40000 512 = true) ∧
    (let s := asks { trusting 0 with hub := { (trusting 0).hub with dbgauth := false } } 18 [3, 0, 0x40000]; Asked s 18 (operands [3, 0, 0x40000]) ∧ s.hub.dbgauth = false) ∧
    (let s := asks (trusting 3) 18 [0]; Asked s 18 (operands [0]) ∧ s.hub.mode = 3) ∧
    (let s : State := { trusting 1 with hub := { (trusting 1).hub with phase := 5 } }; s.hub.mode = 1 ∧ s.linkOpen = true) ∧ (trusting 1).linkOpen = false ∧
    (let s : State := { trusting 0 with clk := { (trusting 0).clk with cycles := 30 } }
     ∃ e, nextEvent s.hub.bbQueue = some e ∧ e.arrived < s.clk.cycles * 2 / 3 ∧ s.hub.bbWroteAt ≠ some (s.clk.cycles * 2 / 3)) ∧
    (trusting 0).hub.mode = 0 ∧ (trusting 1).hub.mode = 1 ∧ (trusting 3).hub.mode = 3 ∧ ((trusting 3).cluster 0).curc = 0 ∧
    (let s : State := { trusting 2 with hub := { (trusting 2).hub with debugCtx := 7 } }; s.hub.mode = 2 ∧ s.liveContext s.hub.debugCtx = true ∧ s.asidOf 0 = some 7) ∧
    (∃ e, nextEvent (trusting 0).hub.bbQueue = some e ∧ (trusting 0).hub.bbFrozen = false ∧ e.event ≠ 10) ∧
    (let s : State := { trusting 0 with hub := { (trusting 0).hub with bbFrozen := true, bbFrozenAt := 5 } }
     ∃ e, nextEvent s.hub.bbQueue = some e ∧ s.hub.bbFrozen = true ∧ s.hub.bbFrozenAt ≠ e.arrived) := by
  refine ⟨⟨asked (by decide), by decide, by decide⟩, ⟨asked (by decide), by decide, by decide, by decide, by decide, rfl⟩, ⟨asked (by decide), by decide, by decide, by decide⟩,
    ⟨asked (by decide), rfl, by decide⟩, ⟨asked (by decide), rfl⟩, ⟨asked (by decide), by decide⟩, by decide, by decide, ⟨_, rfl, by decide, by decide⟩, by decide, by decide, by decide, by decide, by decide,
    ⟨_, rfl, by decide, by decide⟩, ⟨_, rfl, by decide, by decide⟩⟩

/-- A machine in a bring-up phase; line `0x1000` is dirty in its slice, and a miss of it is pending for core 0's `pf`. -/
def caching (phase : BitVec 4) (busy : BitVec 12) : State :=
  { tenant with hub := { State.reset.hub with phase := phase, busy := busy, ratioAt := if busy = 0 then [] else [(0, 0)] }
                caches := { silt := [(0x1000, { slot := 1023, prio := 0, used := 0 })], uses := 1,
                            dirty := [(0x1000, { held := { bytes := [], empty := [] }, live := true })],
                            misses := [{ line := 0x1000, slot := 1023, prio := 2, pfs := [(0, 3)], reserved := false }],
                            wback := [{ line := 0x1000, held := { bytes := [], empty := [] }, again := false }], leases := [(0, 0x1000)] }
                clk := { cycles := 4800, time := 2000, sub := 0, slew := 0 } }

theorem hyp_MemoryEvents :
    3 ≤ (caching 3 0).hub.phase.toNat ∧ (caching 3 0).hub.phase.toNat ≤ 5 ∧ ¬ (3 ≤ (caching 2 0).hub.phase.toNat) ∧ (caching 3 0).hub.busy.getLsbD 11 = false ∧
    (caching 3 1).hub.busy.getLsbD 0 = true ∧ (caching 3 0).hub.built = false ∧ ({ (caching 3 0).hub with built := true } : Hub).built = true ∧
    ((caching 3 1).hub.ratioAt.get? 0 = some 0 ∧ 0 + 4800 ≤ (caching 3 1).clk.cycles) ∧
    (isDram (0x1000 * 64) = true ∧ (caching 3 0xFFF).stackBusy 0x1000 = true ∧ (caching 3 0).stackBusy 0x1000 = false) ∧
    (∃ m, ((caching 3 0).missTable 0x1000).find? (fun m => m.line == 0x1000) = some m ∧ (m.pfs.filter (fun e => e.1 == 0)).getLast? = some (0, 3) ∧ ∀ e ∈ m.pfs, e.1 ≠ 1) ∧
    (∃ w, (caching 3 0).caches.wback.find? (fun w => w.line == 0x1000) = some w ∧ w.again = false) ∧
    (caching 3 0).caches.lineDirty 0x1000 = true ∧ (caching 3 0).wbackRoom 0x1000 = true ∧
    (caching 3 0).caches.silt.get? 0x1000 ≠ none ∧ (caching 3 0).caches.dirty.get? 0x1000 ≠ none ∧ (caching 3 0).caches.silt.get? 5 = none ∧
    ((caching 3 0).strand { core := 0, num := 0 }).st = .running ∧ ((caching 3 0).strand { core := 0, num := 1 }).st = .halted ∧
    Ready user { himm := 1 } false ∧ Ready user { himm := 0 } false ∧ Whole user := by
  refine ⟨by decide, by decide, by decide, by decide, by decide, rfl, rfl, by decide, by decide, ⟨_, rfl, by decide, by decide⟩, ⟨_, rfl, rfl⟩, by decide, by decide, by decide, by decide, by decide,
    by decide, by decide, ready (by decide), ready (by decide), by unfold Whole; decide⟩

/-- Port 0 in a state since time 0, seen at a time; this socket is 0, and socket 1 is routed over port 0. -/
def linked (st : PortState) (time : Nat) (peer : BitVec 6 := 1) (fails : Nat := 0) : State :=
  { State.reset with hub := { State.reset.hub with phase := 4, sockSet := true, ports := [(0, { Port.reset with st := st, peer := peer, fails := fails })], droute := [(1, 1)] }
                     clk := { cycles := 0, time := time, sub := 0, slew := 0 } }

theorem hyp_LinkEvents :
    ((linked .off 0).hub.phase ≠ 15 ∧ ((linked .off 0).hub.port 0).st = .off ∧ (linked .off 0).hub.sockSet = true ∧ ∀ k < 8, ((linked .off 0).hub.port k).st = .off) ∧
    ({ (linked .off 0).hub with phase := 15 } : Hub).phase = 15 ∧ ((linked .detect 0).hub.port 0).st = .detect ∧ ((linked .down 0).hub.port 0).st = .down ∧
    ((linked .fenced 0).hub.port 0).st = .fenced ∧ ((linked .train 20000).hub.port 0).st = .train ∧
    (((linked .train 20000).hub.port 0).peer ≠ (linked .train 20000).hub.sockid ∧ (linked .train 20000).clk.time ≤ ((linked .train 20000).hub.port 0).since + 20000) ∧
    ((linked .train 0 0).hub.port 0).peer = (linked .train 0 0).hub.sockid ∧
    (linked .retrain 40000).clk.time ≤ ((linked .retrain 40000).hub.port 0).since + 40000 ∧
    ((linked .train 1000000).hub.port 0).since + 1000000 ≤ (linked .train 1000000).clk.time ∧ ((linked .active 0).hub.port 0).up = true ∧ ((linked .half 0).hub.port 0).up = true ∧
    (let s := (linked .down 1000000).modHub (fun h => { h with cutSince := some 0 })
     s.hub.cutSince = some 0 ∧ (s.hub.port 0).st = .down ∧ 0 + 1000000 ≤ s.clk.time ∧ (s.hub.port 0).since + 1000000 ≤ s.clk.time) ∧
    (linked .off 0).linkOpen = true ∧ State.reset.linkOpen = false ∧ (linked .off 0).hub.leftOff = false ∧
    ((linked .active 0).hub.holding = [] ∧ ((linked .active 0).hub.port 0).sent = []) ∧
    (1 ∉ (linked .active 0).hub.lost ∧ ∃ j < 8, (Sparse.at 0 (linked .active 0).hub.droute 1).getLsbD j = true ∧ ((linked .active 0).hub.port j).up = true) ∧
    (∀ j < 8, (Sparse.at 0 (linked .active 0).hub.droute 1).getLsbD j = true → ((linked .down 0).hub.port j).up = false) ∧
    (∃ f : Flit, f.payload.length = 240 ∧ f.crcOk = false ∧ ((linked .active 0 1 7).hub.port 0).fails = 7 ∧ ((linked .active 0 1 6).hub.port 0).fails ≠ 7 ∧ f.seq = ((linked .active 0).hub.port 0).expect) ∧
    (∃ f : Flit, f.payload.length = 240 ∧ f.crcOk = true ∧ f.seq = ((linked .active 0).hub.port 0).expect ∧ f.socket ≠ (linked .active 0).hub.sockid.toNat ∧ f.hops < 3 ∧
      Sparse.at 0 (linked .active 0).hub.droute f.socket ≠ 0) ∧
    (∃ f : Flit, f.payload.length = 240 ∧ f.crcOk = true ∧ f.seq = ((linked .active 0).hub.port 0).expect ∧ f.socket = (linked .active 0).hub.sockid.toNat) ∧
    (0x40000 + 8 ≤ Config.dramEnd ∧ (linked .off 0).hub.phase = 4 ∧ ¬ (State.reset.hub.phase = 4 ∨ State.reset.hub.phase = 5)) ∧
    (Config.hostBase + 8 ≤ Config.physEnd ∧ Config.hubBase + 8 ≤ Config.hubEnd ∧ Config.hubBase % 8 = 0 ∧ [0, 0, 0, 0, 0, 0, 0, (0 : Byte)].length = 8) ∧
    (let s := linked .off 0
     let cells := cellsAt 0x40000 (List.replicate 8 (1 : Byte))
     s.waiters = [] ∧ (∀ c ∈ cells, s.fieldCell c = some c) ∧ s.writeHeld Cred.shared cells = false ∧ s.anyHeld Cred.shared false (linesOf cells) = false ∧
      let u := s.modHub (fun h => { h with busy := 0xFFF })
      u.hub.phase = 4 ∧ u.writeHeld Cred.shared cells = true ∧ u.anyHeld Cred.shared false (linesOf cells) = true) ∧
    ((tenant true).queues = [] ∧ (tenant true).contexts = [(7, live true)] ∧ (live true).pageable = true ∧ (live true).st ≠ .halted ∧ 8 < 64 + 32 * (live true).fqSize) := by
  refine ⟨by decide, rfl, by decide, by decide, by decide, by decide, by decide, by decide, by decide, by decide, by decide, by decide,
    by decide, by decide, by decide, by decide, ⟨rfl, by decide⟩, ⟨by decide, 0, by decide⟩, by decide, ⟨{ network := 0, crcOk := false, seq := 0, socket := 0, hops := 0, payload := List.replicate 240 0 }, List.length_replicate, by decide⟩, ⟨{ network := 0, crcOk := true, seq := 0, socket := 1, hops := 2, payload := List.replicate 240 0 }, List.length_replicate, by decide⟩,
    ⟨{ network := 0, crcOk := true, seq := 0, socket := 0, hops := 0, payload := List.replicate 240 0 }, List.length_replicate, by decide⟩, by decide, by decide,
    by decide +kernel, by decide⟩

/-- Clusters 0 and 1 with a CPWR; every core of cluster 0 rests where `rest` says so. -/
def powered (f : ClusterState → ClusterState) (rfsleep : Word := 1) : State :=
  { State.reset with clusters := [(0, f ClusterState.reset)], cores := (List.range 4).map (fun k => (k, { CoreState.reset with rfsleep := rfsleep, retained := 2 }))
                     hub := { State.reset.hub with hotDies := [1], phase := 4, resetHeld := false }, clk := { cycles := 2400, time := 10000000, sub := 0, slew := 0 } }

theorem hyp_PackageEvents :
    ((powered (fun c => { c with changing := some 0 })).cluster 0).changing ≠ none ∧ ((powered id).cluster 0).changing = none ∧
    (let s := powered (fun c => { c with cmax := 2 }) 2
     s.deepest 0 ≠ 0 ∧ (s.cluster 0).curc = 0 ∧ ∀ i < 4, s.restful (s.hub.sockid.toNat * 1024 + 0 * 4 + i) = true) ∧
    (powered id 0).deepest 0 = 0 ∧
    (let s := (powered (fun c => { c with curc := 1 })).modCore 0 (fun k => { k with landReq := [9] }); (s.cluster 0).curc ≠ 0 ∧ ∃ i < 4, s.wakesCore (s.hub.sockid.toNat * 1024 + 0 * 4 + i) = true) ∧
    (1 ∈ (powered id).hub.hotDies ∧ 0 ∉ (powered id).hub.hotDies ∧ ((powered (fun c => { c with thr := true })).cluster 0).thr = true) ∧
    (State.reset.hub.resetHeld = true ∧ ({ State.reset with clk := { cycles := 0, time := 10000000, sub := 0, slew := 0 } } : State).hub.railsAt + 10000000 ≤ 10000000) ∧
    (State.reset.hub.resetHeld = true ∧ State.reset.clk.time < State.reset.hub.railsAt + 10000000) ∧
    ((powered id).hub.resetHeld = false ∧ (powered id).hub.phase.toNat < 5) ∧
    ((powered id).linkOpen = true ∧ State.reset.linkOpen = false ∧
      (State.reset.modHub (fun h => { h with phase := 2, resetHeld := false, image := { h.image with table := false }, absent := [.driost 0] })).hub.absent ≠ [] ∧
      State.reset.hub.dramOk = true ∧ ((State.reset.core 0).landReq = [] ∧ ((State.reset.modCore 0 (fun k => { k with landReq := [9] })).core 0).landReq ≠ [])) := by
  refine ⟨by decide, by decide, by decide +kernel, by decide +kernel, by decide +kernel, by decide, by decide, by decide, by decide, by decide⟩

/-! ### The machine -/

/-- A standby strand about to fetch `addi x9, x0, 7`, and one about to fetch a word of zeros. -/
def fetching (w : Nat) : State := State.reset.withFetchWord 32 w

theorem chosen {s : State} {core n : Nat} (h : ((s.choose core).1 == some n) = true) : s.choose core = (some n, (s.choose core).2) := by
  rw [← eq_of_beq h]

theorem fetchPlace_of {s : State} {sid : StrandId} {c : Place → State → Bool} (h : okAnd (s.fetchPlace sid) (fun r => c r.1 r.2) = true) :
    ∃ p q, s.fetchPlace sid = .ok (p, q) ∧ c p q = true := by
  obtain ⟨⟨p, q⟩, e, k⟩ := ok_of h
  exact ⟨p, q, e, k⟩

theorem hyp_StepRunsDecoded :
    (let s := fetching 0x0C900007; let sid : StrandId := { core := 0, num := 5 }
     s.hub.tripped = false ∧ s.hub.phase ≠ 15 ∧ s.halfWay = [] ∧ s.agenda = [] ∧ s.focus = 0 ∧ ¬ ((s.core 0).fetchedAt = some s.clk.cycles ∨ (s.core 0).retiredAt = some s.clk.cycles) ∧
      s.canFetch 0 = true ∧ ∃ v, s.choose 0 = (some 5, v) ∧
      let t := v.startIssue sid
      (t.strand sid).got = [] ∧ (t.strand sid).struck = none ∧ t.mayTake sid = false ∧ ∃ p q, t.fetchPlace sid = .ok (p, q) ∧ t.withdrawn p.loc = false ∧
        t.mem.poisoned p.cred p.loc 4 = false ∧ isHub p.loc = false ∧ q.fetchHeld 0 p = false ∧
        (q.strand sid).fetched.get? (p.loc / 64) = none ∧ decode (BitVec.ofNat 32 (leNat (q.mem.readBytes q.free p.cred p.loc 4))) = .ok (.addi 9 0 7)) ∧
    (Instr.addi 9 0 7).wellFormed = true ∧
    (let s : State := { fetching 0 with agenda := [.issue 1] }; s.agenda = .issue 1 :: [] ∧ s.canFetch 1 = true ∧ (s.choose 1).1 = none) ∧
    (let s : State := { fetching 0 with agenda := [.partIssue 0 2] }; s.agenda = .partIssue 0 2 :: []) ∧
    (let s := (fetching 0).modCore 0 (fun k => { k with fetchedAt := some 0 }); (s.core 0).fetchedAt = some s.clk.cycles ∧ s.nextCycle.canFetch 0 = true) ∧
    (let s := (fetching 0).modStrand { core := 0, num := 5 } (fun t => { t with struck := some (0xF1, 0) })
     (s.choose 0).1 = some 5 ∧ ((s.choose 0).2.startIssue { core := 0, num := 5 }).me.struck = some (0xF1, 0)) ∧
    (let s := (fetching 0).modCore 0 (fun k => { k with retained := 1 }); s.canFetch 0 = false) ∧
    (∃ c, decode 0 = .error c) ∧ (∃ e, (user.fetch { core := 0, num := 0 }) = .error e) ∧
    (let w : State := { State.reset with agenda := [.event .resetRelease] }
     w.hub.tripped = false ∧ w.hub.phase ≠ 15 ∧ w.halfWay = [] ∧ w.agenda = .event .resetRelease :: [] ∧ agendaEvent .resetRelease = true) ∧
    (let z := (fetching 0).modStrand { core := 0, num := 5 } (fun t => { t with got := [[0]], word := some 0x0C900007 })
     (z.strand { core := 0, num := 5 }).got ≠ [] ∧ (z.strand { core := 0, num := 5 }).word = some 0x0C900007 ∧ decode 0x0C900007 = .ok (.addi 9 0 7)) ∧
    (let z := user (fun t => { t with ssw := 0x7F4, irqPost := true, irqAt := 3 })
     z.mayTake { core := 0, num := 0 } = true ∧ (z.strand { core := 0, num := 0 }).irqAt ≠ z.clk.cycles ∧
      ({ z with clk := { z.clk with cycles := 3 } } : State).mayTake { core := 0, num := 0 } = true) := by
  have err : ∀ {α : Type} (r : Except Trap α), r.isOk = false → ∃ e, r = .error e := by
    intro α r h
    cases r with
    | ok a => cases h
    | error e => exact ⟨e, rfl⟩
  refine ⟨⟨by decide, by decide, by decide, by decide, rfl, by decide, by decide, _, chosen (by decide), by decide, by decide, by decide, ?_⟩, by decide,
    ⟨rfl, by decide, by decide⟩, rfl,
    by decide, by decide, by decide, ⟨_, rfl⟩, err _ (by decide +kernel), ⟨by decide, by decide, by decide, rfl, by decide⟩, ⟨by decide, by decide, rfl⟩, by decide⟩
  obtain ⟨p, q, e, k⟩ := fetchPlace_of (s := ((fetching 0x0C900007).choose 0).2.startIssue { core := 0, num := 5 }) (sid := { core := 0, num := 5 })
    (c := fun p q => decide ((((fetching 0x0C900007).choose 0).2.startIssue { core := 0, num := 5 }).withdrawn p.loc = false ∧
      (((fetching 0x0C900007).choose 0).2.startIssue { core := 0, num := 5 }).mem.poisoned p.cred p.loc 4 = false ∧ isHub p.loc = false ∧ q.fetchHeld 0 p = false ∧
      (q.strand { core := 0, num := 5 }).fetched.get? (p.loc / 64) = none) &&
      okAnd (decode (BitVec.ofNat 32 (leNat (q.mem.readBytes q.free p.cred p.loc 4)))) (fun i => decide (i = .addi 9 0 7))) (by decide +kernel)
  simp only [Bool.and_eq_true, decide_eq_true_eq] at k
  exact ⟨p, q, e, k.1.1, k.1.2.1, k.1.2.2.1, k.1.2.2.2.1, k.1.2.2.2.2, is_of k.2⟩

theorem hyp_StepKeepsMemoryForm : Inv (fetching 0x0C900007) ∧ ∃ t, step (fetching 0x0C900007) = .next t := by
  refine ⟨by unfold Safety.Inv; decide, ?_⟩
  have h : (match step (fetching 0x0C900007) with | .next _ => true | _ => false) = true := by decide +kernel
  split at h
  · rename_i t e
    exact ⟨t, e⟩
  · cases h

theorem hyp_DecodeEncode : (Instr.amoAdd 5 8 9 1).wellFormed = true ∧ (Instr.fenceH 25 4).wellFormed = true := by decide

/-! ## Decoding -/

/-- Words that the spec's listings of programs print beside their instructions (R46, R47, R49, R50, R57). -/
def listed : List (Nat × Instr) :=
  [(0x0C900007, .addi 9 0 7), (0x49A00002, .beq 26 0 2), (0x4CD03FFC, .bne 13 0 0x3FFC), (0x2071E000, .lih 7 7 0x2000), (0x3051A402, .ld 5 6 4 2 0 2),
   (0x31D52C02, .ld 29 20 5 2 0 2), (0x3842342C, .ldx 4 8 6 2 0 11), (0x3471B102, .st 7 6 6 0 1 2), (0x35D52402, .st 29 20 4 2 0 2), (0x30027E02, .pf 9 3 0 2),
   (0x40024682, .amoAdd 0 9 6 1), (0x44424000, .ldc 4 9), (0x44024601, .stp 9 6)]

def listedReal : List (Nat × Instr) :=
  [(0x07006000, .fmt 0 0 6 0 0), (0x740B8000, .fld 0 23 0), (0x74452240, .fldS 2 10 9), (0x748A1008, .fst 4 20 8), (0x7120A002, .fmul 9 0 20),
   (0x7061110B, .ftwoprod 3 1 2 4), (0x78050000, .setprec 5), (0x902C0060, .msetn 1 12), (0x91A10068, .mpop 13 1), (0x90211050, .mxor 1 1 2),
   (0x905F0013, .vbcast 2 31 0 3), (0x92C0001B, .vext 22 0 0 3), (0x8C840A97, .vgathT 4 8 5 2 3), (0x8C6A809C, .vldel 3 21 0 2), (0x8C6B80A0, .vstel 3 23 0 2),
   (0x9062193F, .vredEw 3 2 3 1 7), (0x9082193A, .vredEw 4 2 3 1 2)]

def listedTiles : List (Nat × Instr) :=
  [(0xA0718000, .tbind 7 6), (0x98820CF0, .tld 1 8 12 15), (0x98040F03, .acst 0 0 16 15 0), (0x9C140000, .tmma 1 2 0 0), (0xA8A2C900, .send 10 11 9),
   (0xAA020001, .sendh 32 8 0), (0xB5455600, .tsend 20 21 22), (0xB1048000, .fenceR 16 18), (0xB0064101, .fenceH 25 1), (0xAC518100, .waitl 5 6),
   (0xAD120100, .waitl 17 8), (0xAC000400, .waitc 0), (0xAC700500, .waitr 7), (0xAC01C300, .tclr 7)]

def listedSystem : List (Nat × Instr) :=
  [(0xB8554000, .spawn 5 21), (0xB8034200, .exit 13), (0xB8050100, .join 20), (0xBC520300, .barAw 5 8), (0xC1B00002, .csrr 27 2), (0xC007010D, .csrw 0 28 13),
   (0xC0000407, .trap 7), (0xC0000500, .eret), (0xC0018700, .wfe 6), (0xC5B7001D, .invR 27 28 29), (0xC4000200, .invack), (0xC405C519, .fqFail 23 25)]

/-- Words written out bit by bit from the encodings: `add s7, x3, s9` (major 0x02), `slli x5, x6, 12`, `vadd.w v3, v1, v2, m1`, `vdot4`, `tgemm`, `gang 2`,
`tcoord x5, 3`, `lret`, `chsend x5, x6, 7`, `j -1`, `call 1` (R46, R48, R57). -/
def written : List (Nat × Instr) :=
  [(0x0A70E900, .add 39 3 41), (0x1C51800C, .slli 5 6 12), (0x80611102, .vadd 3 1 2 1 2), (0x80C11088, .vdot4 6 1 2 0), (0x9CA20910, .tgemm 10 8 9),
   (0xA4000002, .gang 2), (0xB8500503, .tcoord 5 3), (0xC0000B00, .lret), (0xC8518007, .chsend 5 6 7), (0x04000001, .himm 1), (0x70611105, .fma 3 1 2 4)]

theorem test_decode_listed : listed.all (fun e => decodeTableWord 32 e.1 == some e.2) = true := by decide
theorem test_decode_listedReal : listedReal.all (fun e => decodeTableWord 32 e.1 == some e.2) = true := by decide
theorem test_decode_listedTiles : listedTiles.all (fun e => decodeTableWord 32 e.1 == some e.2) = true := by decide
theorem test_decode_listedSystem : listedSystem.all (fun e => decodeTableWord 32 e.1 == some e.2) = true := by decide
theorem test_decode_written : written.all (fun e => decodeTableWord 32 e.1 == some e.2) = true := by decide

/-- Encoding gives the same words back. -/
theorem test_encode : (listed ++ listedReal ++ listedTiles ++ listedSystem ++ written).all (fun e => (encode e.2).toNat == e.1) = true := by decide

/-- Words without a meaning are rejected by cause: major 0x00, an unassigned OP, reserved bits, and a branch-form field (R60). -/
theorem test_decode_rejects : (match decode 0x00000000 with | .error c => c == 0x03 | .ok _ => false) = true ∧
    (match decode 0x9082193C with | .error c => c == 0x02 | .ok _ => false) = true ∧ decodeTableWord 32 0x9082193C = none := by decide

/-! ## Ill-formed terms -/

/-- One ill-formed term for each check of `Instr.fieldsOk`, and an event. -/
def illFormed : List Instr :=
  [.hsched 3 0 0, .hsched 0 0 3, .fmt 0 0 0 7 0, .ld 1 2 7 0 0 0, .st 1 2 1 0 0 0, .ldx 1 2 7 0 0 3, .stx 1 2 3 0 0 3, .vfadd 1 2 3 0 6, .vfsub 1 2 3 0 6, .vfmul 1 2 3 0 7,
   .vfdiv 1 2 3 0 6, .vfsqrt 1 2 0 6, .vfma 1 2 3 0 6, .vfmin 1 2 3 0 6, .vfmax 1 2 3 0 7, .vfcmpEq 1 2 3 0 6, .vfcmpLt 1 2 3 0 6, .vfcmpLe 1 2 3 0 6, .vfcmpUn 1 2 3 0 6,
   .vfcvt 1 2 0 0 6, .vfcvt 1 2 6 0 0, .vgathT 1 2 3 0 0, .vredEw 1 2 3 0 4, .vredEw 1 2 3 0 6, .acld 4 0 1 2 0, .acld 0 4 1 2 0, .acst 4 0 1 2 0, .acst 0 4 1 2 0,
   .tmma 0 0 4 0, .tmma 0 0 0 4, .aczero 4 0, .aczero 0 4, .acmov 4 0 0 0, .acmov 0 4 0 0, .acmov 0 0 4 0, .acmov 0 0 0 4, .sendh 0 1 31, .sendr 0 1 31, .fenceH 1 0, .fenceH 1 5,
   .fenceL 1 0, .fenceL 1 5, .grank 1 2 0, .coldReset]

theorem test_wellFormed_refuses : illFormed.all (fun i => !i.wellFormed) = true := by decide


/-! ## Single steps

The results are those of the spec's examples, or worked out by hand from the rules cited. -/

/-- The next state satisfies `p`. -/
def nextAnd (o : Host.Outcome State Fault Refusal) (p : State → Bool) : Bool :=
  match o with
  | .next t => p t
  | _ => false

/-- 2^64 − 1 plus 2 wraps to 1, and the pc advances by a word (R66, R89). -/
theorem test_add_wraps : nextAnd (exec (.add 5 6 7) (user (xs 0 (-1) 2 0 0))) (fun t => t.x 5 == 1 && t.me.pc == 4) = true := by decide +kernel

/-- `x0` discards what is written (R86). -/
theorem test_x0_discards : nextAnd (exec (.addi 0 6 1) (user (xs 0 3 10 0 0))) (fun t => t.x 0 == 0 && t.me.pc == 4) = true := by decide +kernel

/-- A count of 65 shifts by 1, and the sign fills (R89). -/
theorem test_sra_fills : nextAnd (exec (.sra 5 6 7) (user (xs 0 0x8000000000000000 65 0 0))) (fun t => t.x 5 == 0xC000000000000000) = true := by decide +kernel

/-- The high half of (−1) × (−1) is 0 signed and 2^64 − 2 unsigned (R89). -/
theorem test_mulh_signed : nextAnd (exec (.mulh 5 6 7) (user (xs 0 (-1) (-1) 0 0))) (fun t => t.x 5 == 0) = true := by decide +kernel
theorem test_mulhu_unsigned : nextAnd (exec (.mulhu 5 6 7) (user (xs 0 (-1) (-1) 0 0))) (fun t => t.x 5 == 0xFFFFFFFFFFFFFFFE) = true := by decide +kernel

/-- `div` of −7 by 2 is −3, `rem` is −1, and `remu` of 7 by 0 is 7: the examples of R90. -/
theorem test_div_truncates : nextAnd (exec (.div 5 6 7) (user (xs 0 (-7) 2 0 0))) (fun t => t.x 5 == (-3 : Word)) = true := by decide +kernel
theorem test_rem_sign : nextAnd (exec (.rem 5 6 7) (user (xs 0 (-7) 2 0 0))) (fun t => t.x 5 == (-1 : Word)) = true := by decide +kernel
theorem test_remu_by_zero : nextAnd (exec (.remu 5 6 7) (user (xs 0 7 0 0 0))) (fun t => t.x 5 == 7) = true := by decide +kernel

/-- `lih x7, x7, 0x2000` after `addi x7, x0, 1`: the example of R94. -/
theorem test_lih : nextAnd (exec (.lih 7 7 0x2000) (user (xs 0 0 1 0 0))) (fun t => t.x 7 == 0x8000000000000001) = true := by decide +kernel

/-- A branch taken backwards by two words, and one not taken (R108). -/
theorem test_bne_taken : nextAnd (exec (.bne 6 7 0x3FFE) (user (fun t => { xs 0 1 2 0 0 t with pc := 0x1000 }))) (fun t => t.me.pc == 0xFF8) = true := by decide +kernel
theorem test_beq_not_taken : nextAnd (exec (.beq 6 7 0x3FFE) (user (fun t => { xs 0 1 2 0 0 t with pc := 0x1000 }))) (fun t => t.me.pc == 0x1004) = true := by decide +kernel

/-- A call writes the address of the next word to `x1` (R109). -/
theorem test_call : nextAnd (exec (.call 3) (user (fun t => { t with pc := 0x1000 }))) (fun t => t.me.pc == 0x100C && t.x 1 == 0x1004) = true := by decide +kernel

/-- The word at 0x20008 is 0x8000000000000085; a signed byte of it is −123 (R95). -/
theorem test_ld_double : nextAnd (exec (.ld 10 5 6 0 0 0) memory) (fun t => t.x 10 == 0x8000000000000085) = true := by decide +kernel
theorem test_ld_byte_extends : nextAnd (exec (.ld 10 5 0 0 0 0) memory) (fun t => t.x 10 == 0xFFFFFFFFFFFFFF85) = true := by decide +kernel

/-- The example of R40: a store to offset 0x8_0028 of the self window writes `x5`, and to that of `x0` nothing. -/
theorem test_st_register_space : nextAnd (exec (.st 7 6 6 0 0 0) (user (xs 1 0xFBFFFFE80028 77 0 0))) (fun t => t.x 5 == 77 && t.me.pc == 4) = true := by decide +kernel

/-- A trapping access: a misaligned load goes to no register, and its cause and address are recorded (R95, R97, R262). -/
theorem test_ld_misaligned : nextAnd (exec (.ld 5 5 6 0 0 0) (tenant false (xs 0x20004 0 0 0 0))) (fun t => t.x 5 == 0x20004 && t.me.cause == 0x21 && t.me.eva == 0x20004 && t.me.pc == 0x4000) = true := by decide +kernel

/-- An atomic returns the old word and leaves the sum, here with the carry lost (R101). -/
theorem test_amoadd : nextAnd (exec (.amoAdd 10 5 5 1) memory)
    (fun t => t.x 10 == 0x8000000000000085 && t.mem.raw 0x20008 == 0x8D && t.mem.raw 0x2000A == 2) = true := by decide +kernel

/-- `ldc` empties the word it reads (R104). -/
theorem test_ldc : nextAnd (exec (.ldc 10 5) memory) (fun t => t.x 10 == 0x8000000000000085 && t.mem.empty == [0x20008 / 8]) = true := by decide +kernel

/-- 1 + 1 = 2 at P = 32: header 0x047F_FFFF becomes 0x0480_0000 (R72, R74). -/
theorem test_fadd : nextAnd (exec (.fadd 3 1 2) (user (fun t => { t with g := [(1, 0x80000000047FFFFF), (2, 0x80000000047FFFFF)] })))
    (fun t => Sparse.at 0 t.me.g 3 == 0x8000000004800000) = true := by decide +kernel

/-- A 32-bit lane adds four signed products: 1 × (−1) + 2 × 3 = 5, on top of 10 (R135). -/
theorem test_vdot4 : nextAnd (exec (.vdot4 6 1 2 0) (user (fun t => { t with v := [(1, 0x0201), (2, 0x03FF), (6, 10)] })))
    (fun t => (t.v 6).extractLsb' 0 32 == 15) = true := by decide +kernel

/-- `trap 7` enters the supervisor handler with the address of the next word saved (R260, R271). -/
theorem test_trap : nextAnd (exec (.trap 7) (tenant false (fun t => { t with pc := 0x1000 })))
    (fun t => t.me.cause == 0xE0 && t.me.epc == 0x1004 && t.me.eidx == 7 && t.me.pc == 0x4000 && t.me.ssw.extractLsb' 0 2 == 1) = true := by decide +kernel

/-- `eret` at supervisor level returns to EPC with the status that EPS holds (R260, R272). -/
theorem test_eret : nextAnd (exec .eret (tenant false (fun t => { t with pc := 0x4000, epc := 0x1004, eps := 0x8004, ssw := 0x8001 })))
    (fun t => t.me.pc == 0x1004 && t.me.ssw == 0x8004) = true := by decide +kernel
end Sys2Proof.Tests
end

section
/-! PROOF. The statement about control registers (R5, R6, R34-R37, R270). -/

namespace Sys2Proof.Machine

open Sys2Proof.Safety

/-! ## Fields of a register value -/

/-- A field of a bit vector, as a number. -/
theorem bitsAt_toNat {m : Nat} (w : BitVec m) (lo n : Nat) : bitsAt w.toNat lo n = (w.extractLsb' lo n).toNat := by
  simp [bitsAt, BitVec.extractLsb'_toNat, Nat.shiftRight_eq_div_pow]

/-- A number is its bits below a field, the field, and the bits above it. -/
theorem split_at_field (x lo n : Nat) : x = 2 ^ lo * (2 ^ n * (x / 2 ^ (lo + n)) + bitsAt x lo n) + x % 2 ^ lo := by
  have hi : x / 2 ^ lo / 2 ^ n = x / 2 ^ (lo + n) := by rw [Nat.div_div_eq_div_mul, ← Nat.pow_add]
  rw [bitsAt, ← hi, Nat.div_add_mod, Nat.div_add_mod]

/-- A field replaced in a word: its bits are those of the new value, and every other bit stands. -/
theorem getLsbD_putBits {m : Nat} (w : BitVec m) (lo n v j : Nat) :
    (putBits w lo n v).getLsbD j = (decide (j < m) && if lo ≤ j ∧ j < lo + n then v.testBit (j - lo) else w.getLsbD j) := by
  have hx := split_at_field w.toNat lo n
  have low : w.toNat % 2 ^ lo < 2 ^ lo := Nat.mod_lt _ (Nat.two_pow_pos _)
  have mid : bitsAt w.toNat lo n < 2 ^ n := Nat.mod_lt _ (Nat.two_pow_pos _)
  have new : v % 2 ^ n < 2 ^ n := Nat.mod_lt _ (Nat.two_pow_pos _)
  have hput : w.toNat - bitsAt w.toNat lo n * 2 ^ lo + v % 2 ^ n * 2 ^ lo =
      2 ^ lo * (2 ^ n * (w.toNat / 2 ^ (lo + n)) + v % 2 ^ n) + w.toNat % 2 ^ lo := by
    generalize w.toNat / 2 ^ (lo + n) = hi at *
    generalize bitsAt w.toNat lo n = b at *
    generalize w.toNat % 2 ^ lo = l at *
    rw [hx, Nat.mul_add, Nat.mul_add, Nat.mul_comm (2 ^ lo) b, Nat.mul_comm (2 ^ lo) (v % 2 ^ n)]
    omega
  rw [putBits, BitVec.getLsbD_ofNat, hput, Nat.testBit_two_pow_mul_add _ low, Nat.testBit_two_pow_mul_add _ new, BitVec.getLsbD]
  have hold : w.toNat.testBit j = if j < lo then (w.toNat % 2 ^ lo).testBit j
      else if j - lo < n then (bitsAt w.toNat lo n).testBit (j - lo) else (w.toNat / 2 ^ (lo + n)).testBit (j - lo - n) :=
    (congrArg (fun x => x.testBit j) hx).trans (by rw [Nat.testBit_two_pow_mul_add _ low, Nat.testBit_two_pow_mul_add _ mid])
  rw [hold]
  by_cases h1 : j < lo
  · simp [h1, show ¬ lo ≤ j by omega]
  · by_cases h2 : j - lo < n
    · simp [h1, h2, show lo ≤ j ∧ j < lo + n by omega]
    · simp [h1, h2, show ¬ (lo ≤ j ∧ j < lo + n) by omega]

theorem ofNat_mod_two_pow (v : Word) (k : Nat) : BitVec.ofNat 64 (v.toNat % 2 ^ k) = v &&& BitVec.ofNat 64 (2 ^ k - 1) := by
  refine BitVec.eq_of_getLsbD_eq fun i hi => ?_
  rw [BitVec.getLsbD_and, BitVec.getLsbD_ofNat, BitVec.getLsbD_ofNat, Nat.testBit_mod_two_pow, Nat.testBit_two_pow_sub_one, BitVec.getLsbD]
  simp [hi, Bool.and_comm]

theorem ofNat_alignDown_two_pow (v : Word) (k : Nat) :
    BitVec.ofNat 64 (alignDown v.toNat (2 ^ k)) = v &&& ~~~(BitVec.ofNat 64 (2 ^ k - 1)) := by
  refine BitVec.eq_of_getLsbD_eq fun i hi => ?_
  rw [BitVec.getLsbD_and, BitVec.getLsbD_not, BitVec.getLsbD_ofNat, BitVec.getLsbD_ofNat, alignDown, Nat.mul_comm, Nat.testBit_two_pow_mul,
    Nat.testBit_div_two_pow, Nat.testBit_two_pow_sub_one, BitVec.getLsbD]
  by_cases h : k ≤ i
  · simp [hi, h, Nat.sub_add_cancel h]
  · simp [hi, h, show i < k by omega]

/-! ## What writes of elastic registers leave -/

theorem Strand.putGranules_frame (t : Strand) (i n w : Nat) : t.putGranules i n w = { t with g := (t.putGranules i n w).g } := by
  induction n generalizing t i w with
  | zero => rfl
  | succ n ih => rw [Strand.putGranules, ih]

theorem Strand.putFs_frame (t : Strand) (i : Nat) (vs : List Val) : t.putFs i vs = { t with g := (t.putFs i vs).g } := by
  induction vs generalizing t i with
  | nil => rfl
  | cons v vs ih => rw [Strand.putFs, ih, Strand.putF, Strand.putGranules_frame]

/-! ## Traps of the control registers -/

theorem got_of_ready {s : State} {a : Accepts} {p : Bool} (h : Ready s a p) : s.me.got = [] := by
  obtain ⟨-, -, -, -, -, hg⟩ := h
  exact hg

/-- The trap is raised in the state in which it is found: nothing stands before it. -/
def Trap.Bare (e : Trap) : Prop := e.resume = none ∧ e.stall = false ∧ e.drains = false ∧ e.drop = none ∧ e.caches = none

theorem bare_trapOf (c : Cause) : (trapOf c).Bare := ⟨rfl, rfl, rfl, rfl, rfl⟩

theorem finish_bare {s : State} {e : Trap} (h : e.Bare) : finish s (.error e) = .next (s.raise s.cur e) := by
  obtain ⟨hr, hs, hb, hd, hc⟩ := h
  exact finish_error hr hs hb hd hc

theorem bare_readF {t : Strand} {i : Nat} {e : Trap} (h : t.readF i = .error e) : e.Bare := by
  unfold Strand.readF at h
  split at h <;> cases h
  exact ⟨rfl, rfl, rfl, rfl, rfl⟩

theorem bare_relay {t : Strand} {p n : Nat} {e : Trap} (h : t.relay p n = .error e) : e.Bare := by
  induction n generalizing e with
  | zero => cases h
  | succ n ih =>
    rw [Strand.relay] at h
    split at h
    · cases h; exact ih ‹_›
    · split at h
      · cases h; exact bare_readF ‹_›
      · dsimp only at h
        split at h <;> cases h
        exact ⟨rfl, rfl, rfl, rfl, rfl⟩

theorem bare_setPrec {t : Strand} {p : Nat} {e : Trap} (h : t.setPrec p = .error e) : e.Bare := by
  unfold Strand.setPrec at h
  split at h
  · cases h; exact bare_trapOf _
  · dsimp only at h
    split at h <;> cases h
    exact bare_relay ‹_›

theorem setPrec_bad {t : Strand} {p : Nat} (h : p < 8 ∨ 224 < p ∨ p % 8 ≠ 0) : t.setPrec p = .error (trapOf 0x41) := by
  rw [Strand.setPrec, if_pos h]

/-- A new length changes PREC, the flags of SSW and the elastic registers. -/
theorem setPrec_ok {t u : Strand} {p : Nat} (h : t.setPrec p = .ok u) : u = { t with prec := BitVec.ofNat 64 p, ssw := u.ssw, g := u.g } := by
  unfold Strand.setPrec at h
  split at h
  · cases h
  · dsimp only at h
    split at h <;> cases h
    rw [Strand.putFs_frame]

theorem got_setPrec {t u : Strand} {p : Nat} (h : t.setPrec p = .ok u) : u.got = t.got := by rw [setPrec_ok h]

theorem bare_csrWrite {s : State} {n : Nat} {v : Word} {e : Trap} (h : s.csrWrite n v = .error e) : e.Bare := by
  unfold State.csrWrite at h
  dsimp only at h
  split at h
  case h_1 | h_2 | h_15 =>
    split at h <;> cases h
    exact bare_trapOf _
  case h_9 =>
    split at h <;> cases h
    exact bare_setPrec ‹_›
  all_goals cases h

/-! ## The words -/

theorem exec_csrr (d : IntReg) (n : BitVec 8) (s : State) : exec (.csrr d n) s = execCsrr d n s := rfl
theorem exec_csrw (d a : IntReg) (n : BitVec 8) (s : State) : exec (.csrw d a n) s = execCsrw d a n s := rfl
theorem exec_csrs (d a : IntReg) (n : BitVec 8) (s : State) : exec (.csrs d a n) s = execCsrs d a n s := rfl
theorem exec_csrc (d a : IntReg) (n : BitVec 8) (s : State) : exec (.csrc d a n) s = execCsrc d a n s := rfl

theorem csrCheck_unnamed {s : State} {n : Nat} (w : Bool) (h : 17 < n) : s.csrCheck n w = .error (trapOf 0x02) := if_pos h

theorem csrCheck_denied {s : State} {n : Nat} {w : Bool} (h : n ≤ 17) (k : csrDenied s.myLevel w n = true) :
    s.csrCheck n w = .error (trapOf 0x06) := by
  simp [State.csrCheck, show ¬ 17 < n by omega, k]

theorem csrCheck_ok {s : State} {n : Nat} {w : Bool} (h : n ≤ 17) (k : csrDenied s.myLevel w n = false) : s.csrCheck n w = .ok () := by
  simp [State.csrCheck, show ¬ 17 < n by omega, k]

theorem csrDenied_read (l : Level) (n : BitVec 8) :
    csrDenied l false n.toNat = false ↔ (l = .user → n = 0 ∨ (8 ≤ n.toNat ∧ n.toNat ≤ 15)) := by
  rw [show n = 0 ↔ n.toNat = 0 from BitVec.toNat_inj.symm]
  generalize n.toNat = k
  cases l <;> simp [csrDenied, csrUserRead, Decidable.or_iff_not_imp_left]

theorem csrDenied_write (l : Level) (n : BitVec 8) : csrDenied l true n.toNat = false ↔ (l = .user → n = 0 ∨ n = 8) := by
  rw [show n = 0 ↔ n.toNat = 0 from BitVec.toNat_inj.symm, show n = 8 ↔ n.toNat = 8 from BitVec.toNat_inj.symm]
  generalize n.toNat = k
  cases l <;> simp [csrDenied, csrUserWrite, Decidable.or_iff_not_imp_left]

/-- A write of a control register makes no access. -/
theorem got_csrWrite {s u : State} {n : Nat} {v : Word} (h : s.csrWrite n v = .ok u) : u.me.got = s.me.got := by
  unfold State.csrWrite at h
  dsimp only at h
  split at h
  case h_1 | h_2 | h_15 =>
    split at h <;> cases h
    rw [State.me_modMe]
  case h_9 =>
    split at h <;> cases h
    rw [State.me_setStrand, got_setPrec ‹_›, State.me]
  case h_13 | h_17 | h_18 => cases h; rfl
  all_goals cases h; rw [State.me_modMe]

/-- What a word that writes a control register does once its number and level have passed. -/
theorem csrForm_write {s : State} {d : IntReg} {n : BitVec 8} {new : Word → Option Word} {v : Word} (hc : s.csrCheck n.toNat true = .ok ())
    (hv : new (s.csr n.toNat) = some v) (hg : s.me.got = []) :
    (∀ u, s.csrWrite n.toNat v = .ok u → ∃ t, finish s (s.csrForm d n new) = .next t ∧ WroteX u t d (s.csr n.toNat)) ∧
    (∀ e, s.csrWrite n.toNat v = .error e → finish s (s.csrForm d n new) = .next (s.raise s.cur e)) := by
  simp only [State.csrForm, hc, hv]
  refine ⟨fun u hu => ?_, fun e he => ?_⟩
  · exact ⟨(u.setX d (s.csr n.toNat)).retire, by rw [hu, finish_ok], wroteX_setX u d _ ((got_csrWrite hu).trans hg)⟩
  · rw [he, finish_bare (bare_csrWrite he)]

theorem csrForm_keep {s : State} {d : IntReg} {n : BitVec 8} {new : Word → Option Word} (hc : s.csrCheck n.toNat true = .ok ())
    (hv : new (s.csr n.toNat) = none) (hg : s.me.got = []) :
    ∃ t, finish s (s.csrForm d n new) = .next t ∧ WroteX s t d (s.csr n.toNat) := by
  simp only [State.csrForm, hc, hv]
  exact ⟨_, finish_ok _ _, wroteX_setX s d _ hg⟩

theorem csrForm_refused {s : State} {d : IntReg} {n : BitVec 8} {new : Word → Option Word} {c : Cause}
    (hc : s.csrCheck n.toNat true = .error (trapOf c)) : finish s (s.csrForm d n new) = .next (s.raise s.cur (trapOf c)) := by
  simp only [State.csrForm, hc, finish_bare (bare_trapOf c)]

section words
variable {s : State} (hs : Ready s plain false) (d a : IntReg) (n : BitVec 8)
include hs

theorem exec_csrr_refused {c : Cause} (hc : s.csrCheck n.toNat false = .error (trapOf c)) :
    exec (.csrr d n) s = .next (s.raise s.cur (trapOf c)) := by
  simp only [exec_csrr, execCsrr, word_of_ready hs, hc, finish_bare (bare_trapOf c)]

theorem exec_csrr_ok (hc : s.csrCheck n.toNat false = .ok ()) :
    ∃ t, exec (.csrr d n) s = .next t ∧ WroteX s t d (s.csr n.toNat) := by
  simp only [exec_csrr, execCsrr, word_of_ready hs, hc]
  exact ⟨_, finish_ok _ _, wroteX_setX s d _ (got_of_ready hs)⟩

theorem exec_csrWrites_refused {c : Cause} (hc : s.csrCheck n.toNat true = .error (trapOf c)) :
    ∀ i ∈ [Instr.csrw d a n, Instr.csrs d a n, Instr.csrc d a n], exec i s = .next (s.raise s.cur (trapOf c)) := by
  intro i hi
  simp only [List.mem_cons, List.not_mem_nil, or_false] at hi
  rcases hi with rfl | rfl | rfl
  · rw [exec_csrw, execCsrw, word_of_ready hs, csrForm_refused hc]
  · rw [exec_csrs, execCsrs, word_of_ready hs, csrForm_refused hc]
  · rw [exec_csrc, execCsrc, word_of_ready hs, csrForm_refused hc]

end words

/-! ## What a write of each register leaves -/

/-- The eighteen control registers in the order of their numbers (R34). -/
def State.csrs (s : State) : List Word :=
  [s.me.ssw, s.me.eps, s.me.epc, s.me.cause, s.me.eva, s.me.etile, s.me.eidx, s.me.efmt, s.me.prec, s.me.tstep, s.me.fmtp, s.me.tcoord,
   (s.core s.cur.core).tagw, s.me.crb, s.me.crn, s.me.htb, (s.core s.cur.core).htab, (s.core s.cur.core).rfsleep]

theorem csrs_csr (s : State) {k : Nat} (hk : k < 18) : s.csrs[k]? = some (s.csr k) := by
  match k, hk with
  | k + 18, h => omega
  | 0, _ | 1, _ | 2, _ | 3, _ | 4, _ | 5, _ | 6, _ | 7, _ | 8, _ | 9, _ | 10, _ | 11, _ | 12, _ | 13, _ | 14, _ | 15, _ | 16, _ | 17, _ => rfl

/-- A register that the writes of some others do not name keeps its value. -/
theorem csr_of_csrs_set_ne {s u : State} {l : List Word} {n k : Nat} {w : Word} (h : u.csrs = l.set n w) (hl : l[k]? = s.csrs[k]?)
    (hk : k < 18) (hne : k ≠ n) : u.csr k = s.csr k := by
  have e := csrs_csr u hk
  rw [h, List.getElem?_set_ne (Ne.symm hne), hl, csrs_csr s hk, Option.some.injEq] at e
  exact e.symm

theorem csr_of_csrs_set {s u : State} {n : Nat} {w : Word} (hn : n < 18) (h : u.csrs = s.csrs.set n w) :
    u.csr n = w ∧ ∀ k < 18, k ≠ n → u.csr k = s.csr k := by
  refine ⟨?_, fun k hk hne => csr_of_csrs_set_ne h rfl hk hne⟩
  have e := csrs_csr u hn
  rw [h, List.getElem?_set_self (show n < s.csrs.length from hn), Option.some.injEq] at e
  exact e.symm

/-- The control registers after a change of the executing strand. -/
theorem csrs_modMe (s : State) (f : Strand → Strand) : (s.modMe f).csrs =
    [(f s.me).ssw, (f s.me).eps, (f s.me).epc, (f s.me).cause, (f s.me).eva, (f s.me).etile, (f s.me).eidx, (f s.me).efmt, (f s.me).prec,
     (f s.me).tstep, (f s.me).fmtp, (f s.me).tcoord, (s.core s.cur.core).tagw, (f s.me).crb, (f s.me).crn, (f s.me).htb,
     (s.core s.cur.core).htab, (s.core s.cur.core).rfsleep] := by
  rw [State.csrs, State.me_modMe]; rfl

/-- The control registers after a change of the executing strand's core. -/
theorem csrs_modCore (s : State) (f : CoreState → CoreState) : (s.modCore s.cur.core f).csrs =
    ((s.csrs.set 12 (f (s.core s.cur.core)).tagw).set 16 (f (s.core s.cur.core)).htab).set 17 (f (s.core s.cur.core)).rfsleep := by
  have hc : (s.modCore s.cur.core f).core (s.modCore s.cur.core f).cur.core = f (s.core s.cur.core) :=
    (State.core_modCore s s.cur.core s.cur.core f).trans (if_pos rfl)
  rw [State.csrs, hc]; rfl

/-- What a write that changes strands and cores alone, and of the control registers only one, gives (R34). -/
theorem csrWrite_one {s u : State} {n : Nat} {v w w' : Word} (hn : n < 18) (h : s.csrWrite n v = .ok u) (hu : u.csrs = s.csrs.set n w) (hw : w = w')
    (hf : u = { s with strands := u.strands, cores := u.cores }) :
    ∃ u, s.csrWrite n v = .ok u ∧ u.csr n = w' ∧ (∀ k < 18, k ≠ n → u.csr k = s.csr k) ∧ u = { s with strands := u.strands, cores := u.cores } := by
  obtain ⟨h1, h2⟩ := csr_of_csrs_set hn hu
  exact ⟨u, h, h1.trans hw, h2, hf⟩

theorem csrWrite_plain (s : State) (v : Word) :
    ∀ e ∈ [(2, v &&& ~~~3), (3, v &&& 0xFF), (4, v), (5, v &&& 0xFFFFFFFFFFFF), (6, v), (7, v &&& 0xFFF), (9, v &&& 0xFFFFFFFF),
        (10, v &&& 0xFFFFFF), (11, v &&& 0xFFFFFFFFFFFF), (12, s.csr 12 &&& ~~~v), (13, v &&& ~~~15), (15, v), (16, v &&& ~~~63), (17, v &&& 3)],
      ∃ u, s.csrWrite e.1 v = .ok u ∧ u.csr e.1 = e.2 ∧ (∀ k < 18, k ≠ e.1 → u.csr k = s.csr k) ∧
        u = { s with strands := u.strands, cores := u.cores } := by
  intro e he
  simp only [List.mem_cons, List.not_mem_nil, or_false] at he
  rcases he with rfl | rfl | rfl | rfl | rfl | rfl | rfl | rfl | rfl | rfl | rfl | rfl | rfl | rfl
  · exact csrWrite_one (n := 2) (by decide) rfl (csrs_modMe s _) (ofNat_alignDown_two_pow v 2) rfl
  · exact csrWrite_one (n := 3) (by decide) rfl (csrs_modMe s _) (ofNat_mod_two_pow v 8) rfl
  · exact csrWrite_one (n := 4) (by decide) rfl (csrs_modMe s _) rfl rfl
  · exact csrWrite_one (n := 5) (by decide) rfl (csrs_modMe s _) (ofNat_mod_two_pow v 48) rfl
  · exact csrWrite_one (n := 6) (by decide) rfl (csrs_modMe s _) rfl rfl
  · exact csrWrite_one (n := 7) (by decide) rfl (csrs_modMe s _) (ofNat_mod_two_pow v 12) rfl
  · exact csrWrite_one (n := 9) (by decide) rfl (csrs_modMe s _) (ofNat_mod_two_pow v 32) rfl
  · exact csrWrite_one (n := 10) (by decide) rfl (csrs_modMe s _) (ofNat_mod_two_pow v 24) rfl
  · exact csrWrite_one (n := 11) (by decide) rfl (csrs_modMe s _) (ofNat_mod_two_pow v 48) rfl
  · exact csrWrite_one (n := 12) (by decide) rfl (csrs_modCore s _) rfl rfl
  · exact csrWrite_one (n := 13) (by decide) rfl (csrs_modMe s _) (ofNat_alignDown_two_pow v 4) rfl
  · exact csrWrite_one (n := 15) (by decide) rfl (csrs_modMe s _) rfl rfl
  · exact csrWrite_one (n := 16) (by decide) rfl (csrs_modCore s _) (ofNat_alignDown_two_pow v 6) rfl
  · exact csrWrite_one (n := 17) (by decide) rfl (csrs_modCore s _) (ofNat_mod_two_pow v 2) rfl

theorem crnOk_iff (n : Nat) : crnOk n = true ↔ ∃ j ≤ 8, n = 2 ^ j := by
  have hl : [1, 2, 4, 8, 16, 32, 64, 128, 256] = (List.range 9).map (fun j => 2 ^ j) := by decide
  simp only [crnOk, hl, List.contains_iff_mem, List.mem_map, List.mem_range]
  exact ⟨fun ⟨j, hj, e⟩ => ⟨j, by omega, e.symm⟩, fun ⟨j, hj, e⟩ => ⟨j, by omega, e.symm⟩⟩

theorem csrWrite_crn (s : State) (v : Word) :
    let k := (v.extractLsb' 0 9).toNat
    ((∃ j ≤ 8, k = 2 ^ j) → ∃ u, s.csrWrite 14 v = .ok u ∧ u.csr 14 = BitVec.ofNat 64 k ∧ u.me.widx = 0 ∧ u.me.ridx = 0 ∧ u.me.seq = 0 ∧
      ∀ j < 18, j ≠ 14 → u.csr j = s.csr j) ∧
    ((∀ j ≤ 8, k ≠ 2 ^ j) → s.csrWrite 14 v = .error (trapOf 0x0A)) := by
  have hk : v.toNat % 2 ^ 9 = (v.extractLsb' 0 9).toNat := by rw [← bitsAt_toNat]; simp [bitsAt]
  refine ⟨fun h => ?_, fun h => ?_⟩
  · have hw : s.csrWrite 14 v = .ok (s.modMe (fun t => { t with crn := BitVec.ofNat 64 (v.extractLsb' 0 9).toNat, widx := 0, ridx := 0, seq := 0 })) := by
      simp only [State.csrWrite, hk, (crnOk_iff _).2 h, if_true]
    obtain ⟨h1, h2⟩ := csr_of_csrs_set (n := 14) (by decide) (csrs_modMe s (fun t => { t with crn := BitVec.ofNat 64 (v.extractLsb' 0 9).toNat, widx := 0, ridx := 0, seq := 0 }))
    exact ⟨_, hw, h1, by rw [State.me_modMe], by rw [State.me_modMe], by rw [State.me_modMe], h2⟩
  · have hbad : crnOk (v.extractLsb' 0 9).toNat = false := by
      rw [Bool.eq_false_iff, ne_eq, crnOk_iff]
      rintro ⟨j, hj, e⟩; exact h j hj e
    simp only [State.csrWrite, hk, hbad, Bool.false_eq_true, if_false]

/-! ## SSW, EPS and PREC -/

theorem rm_toNat (v : Word) : bitsAt v.toNat 4 3 = (v.extractLsb' 4 3).toNat := bitsAt_toNat v 4 3

theorem csrWrite_badRm (s : State) (v : Word) (h : 5 < (v.extractLsb' 4 3).toNat) : ∀ i ∈ [0, 1], s.csrWrite i v = .error (trapOf 0x0A) := by
  intro i hi
  simp only [List.mem_cons, List.not_mem_nil, or_false] at hi
  rcases hi with rfl | rfl <;> simp only [State.csrWrite, rm_toNat, h, if_true]

theorem getLsbD_sswMask : ∀ j < 64, (BitVec.ofNat 64 sswMask).getLsbD j = decide (j = 2 ∨ (4 ≤ j ∧ j ≤ 16)) := by decide

/-- SSW before the check of EPRI: its writable bits come from the value written (R36). -/
theorem getLsbD_sswMerge (old new : Word) {j : Nat} (hj : j < 64) :
    ((old &&& ~~~(BitVec.ofNat 64 sswMask)) ||| (new &&& BitVec.ofNat 64 sswMask)).getLsbD j =
      if j = 2 ∨ (4 ≤ j ∧ j ≤ 16) then new.getLsbD j else old.getLsbD j := by
  rw [BitVec.getLsbD_or, BitVec.getLsbD_and, BitVec.getLsbD_and, BitVec.getLsbD_not, getLsbD_sswMask j hj]
  by_cases h : j = 2 ∨ (4 ≤ j ∧ j ≤ 16) <;> simp only [h, hj, decide_true, decide_false, if_true, if_false] <;> simp

theorem epri_sswMerge (old new : Word) :
    ((old &&& ~~~(BitVec.ofNat 64 sswMask)) ||| (new &&& BitVec.ofNat 64 sswMask)).extractLsb' 13 2 = new.extractLsb' 13 2 := by
  refine BitVec.eq_of_getLsbD_eq fun i hi => ?_
  rw [BitVec.getLsbD_extractLsb', BitVec.getLsbD_extractLsb', getLsbD_sswMerge old new (by omega), if_pos (by omega)]

theorem toNat_eq_three_iff (w : BitVec 2) : w.toNat = 3 ↔ w = 3 := BitVec.toNat_inj (y := (3 : BitVec 2))

/-- At user level an EPRI of 3 stores 2, and bit 13 is then clear (R36). -/
theorem getLsbD_sswWrite (l : Level) (old new : Word) {j : Nat} (hj : j < 64) (h : j ≠ 13 ∨ l ≠ .user) :
    (sswWrite l old new).getLsbD j = if j = 2 ∨ (4 ≤ j ∧ j ≤ 16) then new.getLsbD j else old.getLsbD j := by
  unfold sswWrite
  dsimp only
  rw [bitsAt_toNat, epri_sswMerge]
  split
  next hu =>
    simp only [Bool.and_eq_true, beq_iff_eq, decide_eq_true_eq, toNat_eq_three_iff] at hu
    have h13 : j ≠ 13 := h.resolve_right (fun n => n hu.1)
    rw [getLsbD_putBits]
    by_cases h14 : j = 14
    · have hb := congrArg (fun w => w.getLsbD 1) hu.2
      rw [BitVec.getLsbD_extractLsb'] at hb
      subst h14
      exact (show Nat.testBit 2 1 = true by decide).trans hb.symm
    · rw [if_neg (by omega), getLsbD_sswMerge old new hj]; simp [hj]
  · exact getLsbD_sswMerge old new hj

theorem epri_sswWrite (old new : Word) :
    (sswWrite .user old new).extractLsb' 13 2 = if new.extractLsb' 13 2 = 3 then 2 else new.extractLsb' 13 2 := by
  unfold sswWrite
  dsimp only
  rw [bitsAt_toNat, epri_sswMerge]
  by_cases h : new.extractLsb' 13 2 = 3
  · rw [if_pos h, if_pos (by rw [h]; decide)]
    refine BitVec.eq_of_getLsbD_eq fun i hi => ?_
    rw [BitVec.getLsbD_extractLsb', getLsbD_putBits, if_pos (by omega)]
    exact (show ∀ i < 2, (decide (i < 2) && (decide (13 + i < 64) && Nat.testBit 2 (13 + i - 13))) = (2 : BitVec 2).getLsbD i by decide) i hi
  · rw [if_neg h, if_neg (by rw [Bool.and_eq_true, decide_eq_true_eq, toNat_eq_three_iff]; exact fun n => h n.2), epri_sswMerge]

theorem getLsbD_epsWrite (l : Level) (new : Word) {j : Nat} (h2 : 2 ≤ j) (hj : j < 64) :
    (epsWrite l new).getLsbD j = if j ≤ 16 then new.getLsbD j else false := by
  unfold epsWrite
  dsimp only
  rw [getLsbD_putBits, if_neg (by omega), BitVec.getLsbD_ofNat, bitsAt_toNat, ← BitVec.getLsbD, BitVec.getLsbD_extractLsb']
  simp only [hj, decide_true, Bool.true_and, Nat.zero_add, show j < 17 ↔ j ≤ 16 by omega]
  by_cases h : j ≤ 16 <;> simp only [h, decide_true, decide_false, Bool.true_and, Bool.false_and, if_true, if_false]

section status
variable (s : State) (v : Word) (h : (v.extractLsb' 4 3).toNat ≤ 5)
include h

theorem csrWrite_ssw : s.csrWrite 0 v = .ok (s.modMe (fun t => { t with ssw := sswWrite s.myLevel t.ssw v })) := by
  simp only [State.csrWrite, rm_toNat, show ¬ 5 < (v.extractLsb' 4 3).toNat by omega, if_false]

theorem csrWrite_eps : s.csrWrite 1 v = .ok (s.modMe (fun t => { t with eps := epsWrite s.myLevel v })) := by
  simp only [State.csrWrite, rm_toNat, show ¬ 5 < (v.extractLsb' 4 3).toNat by omega, if_false]

theorem csrWrite_ssw_fields :
    (∃ u, s.csrWrite 0 v = .ok u ∧ (∀ k < 18, k ≠ 0 → u.csr k = s.csr k) ∧
      ∀ j < 64, j ≠ 13 ∨ ¬ s.myLevel = .user → (u.csr 0).getLsbD j = if j = 2 ∨ (4 ≤ j ∧ j ≤ 16) then v.getLsbD j else (s.csr 0).getLsbD j) ∧
    (s.myLevel = .user → ∀ u, s.csrWrite 0 v = .ok u → (u.csr 0).extractLsb' 13 2 = if v.extractLsb' 13 2 = 3 then 2 else v.extractLsb' 13 2) := by
  obtain ⟨h1, h2⟩ := csr_of_csrs_set (n := 0) (by decide) (csrs_modMe s (fun t => { t with ssw := sswWrite s.myLevel t.ssw v }))
  refine ⟨⟨_, csrWrite_ssw s v h, h2, fun j hj hl => ?_⟩, fun hu u hw => ?_⟩
  · rw [h1]; exact getLsbD_sswWrite _ _ _ hj hl
  · rw [csrWrite_ssw s v h, Except.ok.injEq] at hw
    rw [← hw, h1, hu]
    exact epri_sswWrite _ _

theorem csrWrite_eps_fields :
    ∃ u, s.csrWrite 1 v = .ok u ∧ (∀ k < 18, k ≠ 1 → u.csr k = s.csr k) ∧
      ∀ j, 2 ≤ j → j < 64 → (u.csr 1).getLsbD j = if j ≤ 16 then v.getLsbD j else false := by
  obtain ⟨h1, h2⟩ := csr_of_csrs_set (n := 1) (by decide) (csrs_modMe s (fun t => { t with eps := epsWrite s.myLevel v }))
  refine ⟨_, csrWrite_eps s v h, h2, fun j h2 hj => ?_⟩
  rw [h1]; exact getLsbD_epsWrite _ _ h2 hj

end status

theorem csrs_setPrec {s : State} {t : Strand} {p : Nat} (h : s.me.setPrec p = .ok t) :
    (s.setStrand s.cur t).csrs = (s.csrs.set 0 t.ssw).set 8 (BitVec.ofNat 64 p) := by
  rw [State.csrs, State.me_setStrand, setPrec_ok h]; rfl

theorem csrWrite_prec (s : State) (v : Word) :
    let p := (v.extractLsb' 0 8).toNat
    ((p < 8 ∨ 224 < p ∨ p % 8 ≠ 0) → s.csrWrite 8 v = .error (trapOf 0x41)) ∧
    (∀ u, s.csrWrite 8 v = .ok u → u.csr 8 = BitVec.ofNat 64 p ∧ ∀ k < 18, k ≠ 0 → k ≠ 8 → u.csr k = s.csr k) := by
  have hp : v.toNat % 2 ^ 8 = (v.extractLsb' 0 8).toNat := by rw [← bitsAt_toNat]; simp [bitsAt]
  refine ⟨fun h => ?_, fun u hu => ?_⟩
  · simp only [State.csrWrite, hp, setPrec_bad h]
  · simp only [State.csrWrite, hp] at hu
    split at hu
    · cases hu
    · rename_i t ht
      cases hu
      have hs := csrs_setPrec ht
      refine ⟨?_, fun k hk h0 h8 => csr_of_csrs_set_ne hs (List.getElem?_set_ne (Ne.symm h0)) hk h8⟩
      have e := csrs_csr (s.setStrand s.cur t) (k := 8) (by decide)
      rw [hs, List.getElem?_set_self (show 8 < 18 by decide), Option.some.injEq] at e
      exact e.symm

/-- Settles O41: the number and the level of a word are checked first (`csrCheck`), a form that writes does what `csrWrite` does
(`csrForm_write`), and `csrWrite` is described register by register. -/
theorem controlRegisters : Obligations.ControlRegisters := by
  intro s d a n v hs
  dsimp only
  have hg : s.me.got = [] := got_of_ready hs
  refine ⟨fun hn i hi => ?_, fun hn => ⟨fun hr => ?_, fun hr => ?_, fun hw => ?_, fun hw => ?_⟩, csrWrite_plain s v, csrWrite_crn s v,
    fun i hi hrm => csrWrite_badRm s v hrm i hi, fun hrm => ⟨(csrWrite_ssw_fields s v hrm).1, (csrWrite_ssw_fields s v hrm).2,
    csrWrite_eps_fields s v hrm⟩, csrWrite_prec s v⟩
  · rcases List.mem_cons.1 hi with rfl | hi
    · exact exec_csrr_refused hs d n (csrCheck_unnamed false hn)
    · exact exec_csrWrites_refused hs d a n (csrCheck_unnamed true hn) i hi
  · exact exec_csrr_refused hs d n (csrCheck_denied hn (eq_true_of_ne_false (mt (csrDenied_read _ n).1 hr)))
  · exact exec_csrr_ok hs d n (csrCheck_ok hn ((csrDenied_read _ n).2 hr))
  · exact exec_csrWrites_refused hs d a n (csrCheck_denied hn (eq_true_of_ne_false (mt (csrDenied_write _ n).1 hw)))
  · have hc := csrCheck_ok hn ((csrDenied_write s.myLevel n).2 hw)
    refine ⟨?_, ?_, fun h12 => ?_, fun h12 => ?_⟩
    · rw [exec_csrw, execCsrw, word_of_ready hs]
      exact csrForm_write hc rfl hg
    · rw [exec_csrs, execCsrs, word_of_ready hs]
      exact csrForm_write hc rfl hg
    · rw [exec_csrc, execCsrc, word_of_ready hs]
      exact csrForm_write hc (if_neg h12) hg
    · rw [exec_csrc, execCsrc, word_of_ready hs]
      exact csrForm_keep hc (if_pos h12) hg

end Sys2Proof.Machine
end

section
/-! PROOF. What a write of bytes under a credential leaves of memory, as a reader under that credential finds it (R98, R100, R269). -/

namespace Sys2Proof.Machine

open Sys2Proof.Safety

/-! ## Tables and sets of numbers -/

theorem Sparse.get?_filter_key {α : Type} (p : Nat → Bool) (t : Sparse α) (k : Nat) :
    Sparse.get? (t.filter (fun e => p e.1)) k = if p k then Sparse.get? t k else none := by
  induction t with
  | nil => simp [Sparse.get?]
  | cons e t ih =>
    obtain ⟨j, v⟩ := e
    by_cases hj : p j = true <;> by_cases hk : j = k <;> simp_all [Sparse.get?, List.filter]

theorem mem_insertNat (l : List Nat) (k j : Nat) : j ∈ insertNat l k ↔ j = k ∨ j ∈ l := by
  induction l with
  | nil => simp [insertNat]
  | cons i l ih => grind [insertNat]

/-! ## One update of memory -/

theorem Mem.raw_putByte (m : Mem) (e : Host.Cell) (a : Nat) : (m.putByte e).raw a = if a = e.1 then e.2 else m.raw a := Sparse.at_put 0 m.bytes e.1 a e.2

theorem Mem.rawFull_setFull (m : Mem) (full : Bool) (loc a : Nat) :
    (m.setFull full loc).rawFull a = if a / 8 = loc / 8 then full else m.rawFull a := by
  rw [Bool.eq_iff_iff]
  cases full <;> simp only [Mem.rawFull, Mem.setFull, Bool.not_eq_true', List.contains_eq_mem, decide_eq_false_iff_not]
  · simp only [Bool.false_eq_true, if_false, mem_insertNat]
    split <;> simp_all
  · simp only [if_true, removeNat, List.mem_filter]
    split <;> simp_all

/-- Byte and bit of a location, the older value of its word, and what a reader finds there, are the same in two memories. -/
def Mem.KeptAt (c : Cred) (a : Nat) (m n : Mem) : Prop :=
  n.raw a = m.raw a ∧ n.rawFull a = m.rawFull a ∧ n.olds.get? (a / 8) = m.olds.get? (a / 8) ∧ n.sight c a = m.sight c a

/-- A location that a reader did not find as it is holds a zero in a full word now, which it does find. -/
def Mem.FilledAt (c : Cred) (a : Nat) (m n : Mem) : Prop :=
  m.sight c a ≠ .plain ∧ n.sight c a = .plain ∧ n.raw a = 0 ∧ n.rawFull a = true ∧ n.olds.get? (a / 8) = none

theorem Mem.keptAt_refl (c : Cred) (a : Nat) (m : Mem) : Mem.KeptAt c a m m := ⟨rfl, rfl, rfl, rfl⟩

/-- The zero-fill of a range of whole words spares what lies outside it. -/
theorem Mem.zeroFill_outside (m : Mem) {lo n a : Nat} (hlo : lo % 8 = 0) (hn : n % 8 = 0) (h : a < lo ∨ lo + n ≤ a) :
    (m.zeroFill lo n).raw a = m.raw a ∧ (m.zeroFill lo n).rawFull a = m.rawFull a ∧
      (m.zeroFill lo n).olds.get? (a / 8) = m.olds.get? (a / 8) := by
  have ha : (!(decide (lo ≤ a) && decide (a < lo + n))) = true := by simp; omega
  have hw : (!(decide (lo ≤ a / 8 * 8) && decide (a / 8 * 8 < lo + n))) = true := by simp; omega
  refine ⟨?_, ?_, ?_⟩
  · simp only [Mem.raw, Mem.zeroFill, Sparse.at]
    rw [Sparse.get?_filter_key (fun k => !(decide (lo ≤ k) && decide (k < lo + n))), if_pos ha]
  · rw [Bool.eq_iff_iff]
    simp only [Mem.rawFull, Mem.zeroFill, Bool.not_eq_true', List.contains_eq_mem, decide_eq_false_iff_not, List.mem_filter, hw, and_true]
  · simp only [Mem.zeroFill]
    rw [Sparse.get?_filter_key (fun k => !(decide (lo ≤ k * 8) && decide (k * 8 < lo + n))), if_pos hw]

/-- The zero-fill of a range of whole words leaves zeros in full words, and no older value. -/
theorem Mem.zeroFill_inside (m : Mem) {lo n a : Nat} (hlo : lo % 8 = 0) (hn : n % 8 = 0) (h : lo ≤ a ∧ a < lo + n) :
    (m.zeroFill lo n).raw a = 0 ∧ (m.zeroFill lo n).rawFull a = true ∧ (m.zeroFill lo n).olds.get? (a / 8) = none := by
  have ha : (!(decide (lo ≤ a) && decide (a < lo + n))) = false := by simp; omega
  have hw : (!(decide (lo ≤ a / 8 * 8) && decide (a / 8 * 8 < lo + n))) = false := by simp; omega
  refine ⟨?_, ?_, ?_⟩
  · simp only [Mem.raw, Mem.zeroFill, Sparse.at]
    rw [Sparse.get?_filter_key (fun k => !(decide (lo ≤ k) && decide (k < lo + n))), if_neg (by simp [ha])]
    rfl
  · simp only [Mem.rawFull, Mem.zeroFill, Bool.not_eq_true', List.contains_eq_mem, decide_eq_false_iff_not, List.mem_filter, hw,
      Bool.false_eq_true, and_false, not_false_eq_true]
  · simp only [Mem.zeroFill]
    rw [Sparse.get?_filter_key (fun k => !(decide (lo ≤ k * 8) && decide (k * 8 < lo + n))), if_neg (by simp [hw])]

/-! ## Claims (R269) -/

theorem sight_congr {m n : Mem} (c : Cred) {a : Nat} (ho : n.owners.get? (a / 4096) = m.owners.get? (a / 4096))
    (hk : n.keys.get? (a / 64) = m.keys.get? (a / 64)) : n.sight c a = m.sight c a := by simp only [Mem.sight, ho, hk]

theorem sight_other {m : Mem} {c : Cred} {a : Nat} (hs : isSpad a = false) (hd : isDram a = false) : m.sight c a = .plain := by
  simp only [Mem.sight, hs, hd, Bool.false_eq_true, if_false]

/-- The owner tag that a write under a credential leaves (R269). -/
def Cred.ownerTag (c : Cred) : Owner := match c.owner with | none => .noContext | some t => .ctx t

theorem sight_block_plain {m : Mem} {c : Cred} {a : Nat} (h : isSpad a = true) :
    m.sight c a = .plain ↔ m.owners.get? (a / 4096) = some c.ownerTag := by
  simp only [Mem.sight, h, if_true, Cred.ownerTag]
  rcases m.owners.get? (a / 4096) with _ | _ | t <;> rcases c.owner with _ | u <;> simp [eq_comm]

theorem sight_line_plain {m : Mem} {c : Cred} {a : Nat} (hc : KeyFits c) (hs : isSpad a = false) (hd : isDram a = true) :
    m.sight c a = .plain ↔ m.keys.get? (a / 64) = some c.key ∨ m.keys.get? (a / 64) = some .shared := by
  simp only [Mem.sight, hs, hd, Bool.false_eq_true, if_false, if_true]
  rcases m.keys.get? (a / 64) with _ | _ | ⟨sl, ep⟩ <;> rcases hk : c.key with _ | ⟨sl', ep'⟩ <;> simp
  · split <;> simp
  · have hfit : sl' ≠ Config.sharedSlot := fun e => hc ep' (by rw [hk, e])
    by_cases h1 : sl = Config.sharedSlot
    · simp [h1, hfit.symm]
    · by_cases h2 : sl = sl' <;> by_cases h3 : ep = ep' <;> simp [h1, h2, h3, hfit]

/-- A scratchpad block is claimed: it is the credential's own already, or it is zeroed (R269). -/
theorem claim_block (m : Mem) (c : Cred) {loc : Nat} (h : isSpad loc = true) :
    (m.owners.get? (loc / 4096) = some c.ownerTag ∧ m.claim c loc = m) ∨
    (m.owners.get? (loc / 4096) ≠ some c.ownerTag ∧
      m.claim c loc = { (m.zeroFill (loc / 4096 * 4096) 4096) with owners := m.owners.set (loc / 4096) c.ownerTag }) := by
  by_cases ho : m.owners.get? (loc / 4096) = some c.ownerTag
  · exact .inl ⟨ho, (if_pos h).trans (if_pos ho)⟩
  · exact .inr ⟨ho, (if_pos h).trans (if_neg ho)⟩

/-- A line is claimed: it is the credential's own already, or it passes from the shared key, or it is zeroed (R269). -/
theorem claim_line (m : Mem) (c : Cred) {loc : Nat} (hs : isSpad loc = false) (hd : isDram loc = true) :
    (m.keys.get? (loc / 64) = some c.key ∧ m.claim c loc = m) ∨
    (m.keys.get? (loc / 64) = some .shared ∧ m.claim c loc = { m with keys := m.keys.set (loc / 64) c.key }) ∨
    (m.keys.get? (loc / 64) ≠ some c.key ∧ m.keys.get? (loc / 64) ≠ some .shared ∧
      m.claim c loc = { (m.zeroFill (loc / 64 * 64) 64) with
        keys := m.keys.set (loc / 64) c.key, selects := removeNat m.selects (loc / 64 * 64) }) := by
  unfold Mem.claim
  rw [if_neg (by simp [hs]), if_pos hd]
  dsimp only
  split
  next t ht =>
    split
    next he => exact .inl ⟨by rw [ht, he], rfl⟩
    next he =>
      split
      next hsh => exact .inr (.inl ⟨by rw [ht, hsh], rfl⟩)
      next hsh => exact .inr (.inr ⟨by simpa [ht] using he, by simpa [ht] using hsh, rfl⟩)
  next hn => exact .inr (.inr ⟨by simp [hn], by simp [hn], rfl⟩)

theorem claim_other (m : Mem) (c : Cred) {loc : Nat} (hs : isSpad loc = false) (hd : isDram loc = false) : m.claim c loc = m := by
  simp only [Mem.claim, hs, hd, Bool.false_eq_true, if_false]

theorem isSpad_iff (a : Nat) : isSpad a = true ↔ 0x10000000000000 ≤ a := decide_eq_true_iff

theorem isDram_iff (a : Nat) : isDram a = true ↔ a < 0x9000000000 := decide_eq_true_iff

theorem isSpad_of_block {a b : Nat} (h : a / 4096 = b / 4096) : isSpad a = isSpad b := by
  rw [Bool.eq_iff_iff, isSpad_iff, isSpad_iff]; omega

theorem region_of_line {a b : Nat} (h : a / 64 = b / 64) : isSpad a = isSpad b ∧ isDram a = isDram b := by
  exact ⟨by rw [Bool.eq_iff_iff, isSpad_iff, isSpad_iff]; omega, by rw [Bool.eq_iff_iff, isDram_iff, isDram_iff]; omega⟩

/-- A claim leaves a location as it is or fills it with zeros that the claiming party now reads (R269). -/
theorem claim_at {c : Cred} (hc : KeyFits c) (m : Mem) (loc a : Nat) : Mem.KeptAt c a m (m.claim c loc) ∨ Mem.FilledAt c a m (m.claim c loc) := by
  rcases hs : isSpad loc with _ | _
  · rcases hd : isDram loc with _ | _
    · rw [claim_other m c hs hd]; exact .inl (Mem.keptAt_refl c a m)
    · by_cases hl : a / 64 = loc / 64
      · obtain ⟨has, had⟩ := region_of_line hl
        rw [hs] at has
        rw [hd] at had
        rcases claim_line m c hs hd with ⟨-, e⟩ | ⟨hk, e⟩ | ⟨hk, hk', e⟩ <;> rw [e]
        · exact .inl (Mem.keptAt_refl c a m)
        · refine .inl ⟨rfl, rfl, rfl, ?_⟩
          exact ((sight_line_plain hc has had).2 (.inl (by rw [Sparse.get?_set, if_pos hl]))).trans
            ((sight_line_plain hc has had).2 (.inr (by rw [hl, hk]))).symm
        · refine .inr ⟨?_, (sight_line_plain hc has had).2 (.inl (by rw [Sparse.get?_set, if_pos hl])),
            m.zeroFill_inside (lo := loc / 64 * 64) (n := 64) (a := a) (by omega) (by omega) (by omega)⟩
          rw [ne_eq, sight_line_plain hc has had, hl]
          exact not_or.2 ⟨hk, hk'⟩
      · have key : ∀ k, Sparse.get? (m.keys.set (loc / 64) k) (a / 64) = m.keys.get? (a / 64) := fun k => by rw [Sparse.get?_set, if_neg hl]
        rcases claim_line m c hs hd with ⟨-, e⟩ | ⟨-, e⟩ | ⟨-, -, e⟩ <;> rw [e]
        · exact .inl (Mem.keptAt_refl c a m)
        · exact .inl ⟨rfl, rfl, rfl, sight_congr c rfl (key _)⟩
        · obtain ⟨h1, h2, h3⟩ := m.zeroFill_outside (lo := loc / 64 * 64) (n := 64) (a := a) (by omega) (by omega) (by omega)
          exact .inl ⟨h1, h2, h3, sight_congr c rfl (key _)⟩
  · rcases claim_block m c hs with ⟨-, e⟩ | ⟨ho, e⟩ <;> rw [e]
    · exact .inl (Mem.keptAt_refl c a m)
    · by_cases hb : a / 4096 = loc / 4096
      · have has : isSpad a = true := (isSpad_of_block hb).trans hs
        exact .inr ⟨by rw [ne_eq, sight_block_plain has, hb]; exact ho, (sight_block_plain has).2 (by rw [Sparse.get?_set, if_pos hb]),
          m.zeroFill_inside (lo := loc / 4096 * 4096) (n := 4096) (a := a) (by omega) (by omega) (by omega)⟩
      · obtain ⟨h1, h2, h3⟩ := m.zeroFill_outside (lo := loc / 4096 * 4096) (n := 4096) (a := a) (by omega) (by omega) (by omega)
        exact .inl ⟨h1, h2, h3, sight_congr c (by rw [Sparse.get?_set, if_neg hb]) rfl⟩

/-- A party finds as it is what it has claimed (R269). -/
theorem sight_claim_self {c : Cred} (hc : KeyFits c) (m : Mem) (loc : Nat) : (m.claim c loc).sight c loc = .plain := by
  rcases hs : isSpad loc with _ | _
  · rcases hd : isDram loc with _ | _
    · exact sight_other hs hd
    · rw [sight_line_plain hc hs hd]
      rcases claim_line m c hs hd with ⟨hk, e⟩ | ⟨-, e⟩ | ⟨-, -, e⟩ <;> rw [e]
      · exact .inl hk
      · exact .inl (by rw [Sparse.get?_set, if_pos rfl])
      · exact .inl (by rw [Sparse.get?_set, if_pos rfl])
  · rw [sight_block_plain hs]
    rcases claim_block m c hs with ⟨ho, e⟩ | ⟨-, e⟩ <;> rw [e]
    · exact ho
    · rw [Sparse.get?_set, if_pos rfl]

/-! ## What a reader finds at a location -/

/-- A reader that finds a location, or zeros there, finds the same byte and the same full/empty bit in two memories. -/
def Mem.SameAt (free : Nat) (c : Cred) (a : Nat) (m n : Mem) : Prop :=
  m.sight c a ≠ .stale → n.sight c a ≠ .stale ∧ n.read free c a = m.read free c a ∧ n.full free c a = m.full free c a

theorem Mem.sameAt_refl (free : Nat) (c : Cred) (a : Nat) (m : Mem) : Mem.SameAt free c a m m := fun h => ⟨h, rfl, rfl⟩

theorem Mem.sameAt_trans {free : Nat} {c : Cred} {a : Nat} {l m n : Mem} (h : Mem.SameAt free c a l m) (k : Mem.SameAt free c a m n) :
    Mem.SameAt free c a l n := fun hl => by
  obtain ⟨h1, h2, h3⟩ := h hl
  obtain ⟨k1, k2, k3⟩ := k h1
  exact ⟨k1, k2.trans h2, k3.trans h3⟩

/-- The older value that a word may read as, or none. -/
theorem Mem.older_congr {m n : Mem} (free : Nat) {a : Nat} (h : n.olds.get? (a / 8) = m.olds.get? (a / 8)) : n.older free a = m.older free a := by
  simp only [Mem.older, h]

theorem Mem.older_none {m : Mem} (free : Nat) {a : Nat} (h : m.olds.get? (a / 8) = none) : m.older free a = none := by
  simp only [Mem.older, h]

theorem Mem.KeptAt.same {c : Cred} {a : Nat} {m n : Mem} (free : Nat) (h : Mem.KeptAt c a m n) : Mem.SameAt free c a m n := by
  obtain ⟨hr, hf, ho, hs⟩ := h
  intro hm
  exact ⟨by rw [hs]; exact hm, by simp only [Mem.read, hs, hr, Mem.older_congr free ho], by simp only [Mem.full, hs, hf, Mem.older_congr free ho]⟩

theorem Mem.read_now {m : Mem} {c : Cred} {a : Nat} (free : Nat) (hs : m.sight c a = .plain) (ho : m.olds.get? (a / 8) = none) :
    m.read free c a = m.raw a := by simp only [Mem.read, hs, Mem.older_none free ho]

theorem Mem.full_now {m : Mem} {c : Cred} {a : Nat} (free : Nat) (hs : m.sight c a = .plain) (ho : m.olds.get? (a / 8) = none) :
    m.full free c a = m.rawFull a := by simp only [Mem.full, hs, Mem.older_none free ho]

theorem Mem.FilledAt.same {c : Cred} {a : Nat} {m n : Mem} (free : Nat) (h : Mem.FilledAt c a m n) : Mem.SameAt free c a m n := by
  obtain ⟨hp, hs, hr, hf, ho⟩ := h
  intro hm
  have hz : m.sight c a = .zero := by rcases e : m.sight c a with _ | _ | _ <;> simp_all
  refine ⟨by simp [hs], ?_, ?_⟩
  · rw [Mem.read_now free hs ho, hr]; simp only [Mem.read, hz]
  · rw [Mem.full_now free hs ho, hf]; simp only [Mem.full, hz]

theorem claim_same {c : Cred} (hc : KeyFits c) (free : Nat) (m : Mem) (loc a : Nat) : Mem.SameAt free c a m (m.claim c loc) := by
  rcases claim_at hc m loc a with h | h
  · exact h.same free
  · exact h.same free

/-! ## Bytes stored one after another -/

theorem Mem.putBytes_frame (m : Mem) (l : List Host.Cell) : m.putBytes l = { m with bytes := (m.putBytes l).bytes } := by
  induction l generalizing m with
  | nil => rfl
  | cons e l ih => exact (ih (m.putByte e)).trans rfl

theorem Mem.raw_putBytes_of_forall_ne (m : Mem) {l : List Host.Cell} {a : Nat} (h : ∀ e ∈ l, e.1 ≠ a) : (m.putBytes l).raw a = m.raw a := by
  induction l generalizing m with
  | nil => rfl
  | cons e l ih =>
    refine (ih (m.putByte e) fun x hx => h x (List.mem_cons_of_mem _ hx)).trans ?_
    rw [Mem.raw_putByte, if_neg (h e List.mem_cons_self).symm]

/-- The cells of a list give each location one byte. -/
def Functional (l : List Host.Cell) : Prop := ∀ e ∈ l, ∀ e' ∈ l, e.1 = e'.1 → e = e'

theorem Mem.raw_putBytes_of_mem (m : Mem) {l : List Host.Cell} (hl : Functional l) {e : Host.Cell} (he : e ∈ l) : (m.putBytes l).raw e.1 = e.2 := by
  induction l generalizing m with
  | nil => cases he
  | cons x l ih =>
    have hl' : Functional l := fun a ha b hb => hl a (List.mem_cons_of_mem _ ha) b (List.mem_cons_of_mem _ hb)
    by_cases h : e ∈ l
    · exact ih (m.putByte x) hl' h
    · have hx : e = x := (List.mem_cons.1 he).resolve_right h
      subst hx
      refine (Mem.raw_putBytes_of_forall_ne (m.putByte e) fun y hy hn => h ?_).trans (by rw [Mem.raw_putByte, if_pos rfl])
      rw [← hl y (List.mem_cons_of_mem _ hy) e he hn]; exact hy

theorem mem_cellsAt {lo : Nat} {bs : List Byte} {e : Host.Cell} : e ∈ cellsAt lo bs ↔ ∃ i, bs[i]? = some e.2 ∧ e.1 = lo + i := by
  induction bs generalizing lo with
  | nil => simp [cellsAt]
  | cons b bs ih =>
    rw [cellsAt, List.mem_cons, ih]
    constructor
    · rintro (rfl | ⟨i, h1, h2⟩)
      · exact ⟨0, rfl, rfl⟩
      · exact ⟨i + 1, h1, by omega⟩
    · rintro ⟨_ | i, h1, h2⟩
      · exact .inl (Prod.ext h2 (Option.some.inj h1).symm)
      · exact .inr ⟨i, h1, by omega⟩

theorem functional_cellsAt (lo : Nat) (bs : List Byte) : Functional (cellsAt lo bs) := by
  intro e he e' he' h
  obtain ⟨i, h1, h2⟩ := mem_cellsAt.1 he
  obtain ⟨j, k1, k2⟩ := mem_cellsAt.1 he'
  have : i = j := by omega
  subst this
  exact Prod.ext h (Option.some.inj (h1.symm.trans k1))

theorem getElem?_leBytes {n w i : Nat} (h : i < n) : (leBytes n w)[i]? = some (BitVec.ofNat 8 (w / 2 ^ (8 * i))) := by
  induction n generalizing w i with
  | zero => omega
  | succ n ih =>
    cases i with
    | zero => simp [leBytes]
    | succ i =>
      rw [leBytes, List.getElem?_cons_succ, ih (by omega), Nat.div_div_eq_div_mul, show 8 * (i + 1) = 8 + 8 * i by omega, Nat.pow_add]

theorem length_leBytes (n w : Nat) : (leBytes n w).length = n := by
  induction n generalizing w with
  | zero => rfl
  | succ n ih => rw [leBytes, List.length_cons, ih]

/-! ## What a write does before its bytes are stored -/

/-- A reader finds a location as it is now. -/
def Mem.Clear (c : Cred) (a : Nat) (m : Mem) : Prop := m.sight c a = .plain ∧ m.olds.get? (a / 8) = none

theorem settle_frame (m : Mem) (free loc : Nat) :
    m.settle free loc = { m with bytes := (m.settle free loc).bytes, empty := (m.settle free loc).empty, olds := m.olds.erase (loc / 8) } := by
  unfold Mem.settle
  split
  · rw [Mem.putBytes_frame]; rfl
  · rfl

theorem sight_settle (m : Mem) (free : Nat) (c : Cred) (loc a : Nat) : (m.settle free loc).sight c a = m.sight c a := by
  rw [settle_frame]; exact sight_congr c rfl rfl

theorem olds_settle (m : Mem) (free loc w : Nat) : (m.settle free loc).olds.get? w = if w = loc / 8 then none else m.olds.get? w := by
  rw [settle_frame]; exact Sparse.get?_erase m.olds (loc / 8) w

theorem settle_of_none {m : Mem} {free loc : Nat} (h : m.older free loc = none) : m.settle free loc = { m with olds := m.olds.erase (loc / 8) } := by
  simp only [Mem.settle, h]

/-- A word that reads as an older value becomes that value. -/
theorem settle_of_some {m : Mem} {free loc : Nat} {o : OldWord} (h : m.older free loc = some o) (a : Nat) :
    (m.settle free loc).raw a = (if a / 8 = loc / 8 then byteOf o.bytes (a % 8) else m.raw a) ∧
    (m.settle free loc).rawFull a = if a / 8 = loc / 8 then o.full else m.rawFull a := by
  have e : m.settle free loc =
      { ((m.putBytes (cellsAt (loc / 8 * 8) (leBytes 8 o.bytes.toNat))).setFull o.full loc) with olds := m.olds.erase (loc / 8) } := by
    simp only [Mem.settle, h]
  rw [e]
  have hraw : (m.putBytes (cellsAt (loc / 8 * 8) (leBytes 8 o.bytes.toNat))).raw a = if a / 8 = loc / 8 then byteOf o.bytes (a % 8) else m.raw a := by
    split
    next hw =>
      exact Mem.raw_putBytes_of_mem m (functional_cellsAt _ _) (e := (a, byteOf o.bytes (a % 8)))
        (mem_cellsAt.2 ⟨a % 8, getElem?_leBytes (by omega), by change a = loc / 8 * 8 + a % 8; omega⟩)
    next hw =>
      refine Mem.raw_putBytes_of_forall_ne m fun x hx => ?_
      obtain ⟨j, hj, hx⟩ := mem_cellsAt.1 hx
      have := (List.getElem?_eq_some_iff.1 hj).1
      rw [length_leBytes] at this
      omega
  refine ⟨hraw, (Mem.rawFull_setFull _ o.full loc a).trans ?_⟩
  rw [Mem.putBytes_frame]; rfl

/-- The word's value is settled: a reader finds what it found before (R100). -/
theorem settle_same (m : Mem) (free : Nat) (c : Cred) (loc a : Nat) : Mem.SameAt free c a m (m.settle free loc) := by
  intro hm
  refine ⟨by rw [sight_settle]; exact hm, ?_⟩
  have hsame : (m.settle free loc).older free a = if a / 8 = loc / 8 then none else m.older free a := by
    split
    next hw => exact Mem.older_none free (by rw [olds_settle, if_pos hw])
    next hw => exact Mem.older_congr free (by rw [olds_settle, if_neg hw])
  have hword : a / 8 = loc / 8 → m.older free a = m.older free loc := fun hw => by simp only [Mem.older, hw]
  simp only [Mem.read, Mem.full, sight_settle, hsame]
  rcases ho : m.older free loc with _ | o
  · rw [settle_of_none ho]
    by_cases hw : a / 8 = loc / 8
    · simp only [if_pos hw, hword hw, ho]; exact ⟨rfl, rfl⟩
    · simp only [if_neg hw]; exact ⟨rfl, rfl⟩
  · obtain ⟨hr, hf⟩ := settle_of_some ho a
    by_cases hw : a / 8 = loc / 8
    · simp only [if_pos hw, hword hw, ho, hr, hf]
      rcases hs : m.sight c a with _ | _ | _
      · simp
      · simp
      · exact absurd hs hm
    · simp only [if_neg hw, hr, hf]; exact ⟨trivial, trivial⟩

theorem unmark_frame (m : Mem) (loc : Nat) : m.unmark loc = { m with marks := (m.unmark loc).marks } := by
  unfold Mem.unmark; split <;> rfl

theorem unmark_kept (m : Mem) (c : Cred) (loc a : Nat) : Mem.KeptAt c a m (m.unmark loc) := by
  rw [unmark_frame]; exact ⟨rfl, rfl, rfl, sight_congr c rfl rfl⟩

theorem Mem.KeptAt.clear {c : Cred} {a : Nat} {m n : Mem} (h : Mem.KeptAt c a m n) (k : Mem.Clear c a m) : Mem.Clear c a n := by
  obtain ⟨-, -, ho, hs⟩ := h
  exact ⟨hs.trans k.1, ho.trans k.2⟩

section writes
variable {c : Cred} (hc : KeyFits c) (free : Nat)
include hc

theorem prepare_same (m : Mem) (e : Host.Cell) (a : Nat) : Mem.SameAt free c a m (m.prepare free c e) :=
  Mem.sameAt_trans (claim_same hc free m e.1 a) (Mem.sameAt_trans (settle_same _ free c e.1 a) ((unmark_kept _ c e.1 a).same free))

theorem prepare_clears (m : Mem) (e : Host.Cell) : Mem.Clear c e.1 (m.prepare free c e) :=
  (unmark_kept _ c e.1 e.1).clear ⟨by rw [sight_settle]; exact sight_claim_self hc m e.1, by rw [olds_settle, if_pos rfl]⟩

theorem prepare_clear {m : Mem} {a : Nat} (h : Mem.Clear c a m) (e : Host.Cell) : Mem.Clear c a (m.prepare free c e) := by
  have hclaim : Mem.Clear c a (m.claim c e.1) := by
    rcases claim_at hc m e.1 a with k | ⟨hp, -⟩
    · exact k.clear h
    · exact absurd h.1 hp
  refine (unmark_kept _ c e.1 a).clear ⟨by rw [sight_settle]; exact hclaim.1, ?_⟩
  rw [olds_settle]
  split
  · rfl
  · exact hclaim.2

theorem prepares_same (l : List Host.Cell) (m : Mem) (a : Nat) : Mem.SameAt free c a m (l.foldl (Mem.prepare free c) m) := by
  induction l generalizing m with
  | nil => exact Mem.sameAt_refl free c a m
  | cons e l ih => exact Mem.sameAt_trans (prepare_same hc free m e a) (ih _)

theorem prepares_clear {m : Mem} {a : Nat} (h : Mem.Clear c a m) (l : List Host.Cell) : Mem.Clear c a (l.foldl (Mem.prepare free c) m) := by
  induction l generalizing m with
  | nil => exact h
  | cons e l ih => exact ih (prepare_clear hc free h e)

theorem prepares_clear_written (l : List Host.Cell) (m : Mem) {e : Host.Cell} (he : e ∈ l) : Mem.Clear c e.1 (l.foldl (Mem.prepare free c) m) := by
  induction l generalizing m with
  | nil => cases he
  | cons x l ih =>
    rcases List.mem_cons.1 he with rfl | h
    · exact prepares_clear hc free (prepare_clears hc free m e) l
    · exact ih _ h

end writes

/-! ## The write -/

theorem foldl_setFull_frame (l : List Host.Cell) (m : Mem) :
    l.foldl (fun m e => m.setFull true e.1) m = { m with empty := (l.foldl (fun m e => m.setFull true e.1) m).empty } := by
  induction l generalizing m with
  | nil => rfl
  | cons e l ih => exact (ih _).trans rfl

theorem rawFull_foldl_setFull (l : List Host.Cell) (m : Mem) (a : Nat) :
    (l.foldl (fun m e => m.setFull true e.1) m).rawFull a = true ↔ m.rawFull a = true ∨ ∃ e ∈ l, e.1 / 8 = a / 8 := by
  induction l generalizing m with
  | nil => simp
  | cons e l ih =>
    rw [List.foldl_cons, ih, Mem.rawFull_setFull]
    by_cases h : a / 8 = e.1 / 8
    · simp [h]
    · have h' : ¬ e.1 / 8 = a / 8 := fun n => h n.symm
      simp [h, h']

/-- Memory as a write prepares it: the lines and blocks claimed, the words settled. -/
def Mem.prepared (m : Mem) (free : Nat) (c : Cred) (l : List Host.Cell) : Mem := l.foldl (Mem.prepare free c) m

theorem write_parts (m : Mem) (free : Nat) (c : Cred) (l : List Host.Cell) (a : Nat) :
    (m.write free c l).sight c a = (m.prepared free c l).sight c a ∧
    (m.write free c l).olds = (m.prepared free c l).olds ∧
    (m.write free c l).raw a = ((m.prepared free c l).putBytes l).raw a ∧
    ((m.write free c l).rawFull a = true ↔ (m.prepared free c l).rawFull a = true ∨ ∃ e ∈ l, e.1 / 8 = a / 8) := by
  have hw : ∃ poison bad, m.write free c l =
      { (l.foldl (fun m e => m.setFull true e.1) ((m.prepared free c l).putBytes l)) with poison := poison, badWords := bad } := ⟨_, _, rfl⟩
  obtain ⟨poison, bad, hw⟩ := hw
  have hfull := rawFull_foldl_setFull l ((m.prepared free c l).putBytes l) a
  rw [hw, foldl_setFull_frame]
  refine ⟨?_, ?_, rfl, ?_⟩
  · exact sight_congr c (by rw [Mem.putBytes_frame]) (by rw [Mem.putBytes_frame])
  · change ((m.prepared free c l).putBytes l).olds = _
    rw [Mem.putBytes_frame]
  · rw [foldl_setFull_frame] at hfull
    refine hfull.trans ?_
    rw [Mem.putBytes_frame]; rfl

section written
variable {c : Cred} (hc : KeyFits c) (free : Nat) (m : Mem) {l : List Host.Cell}
include hc

/-- A written byte is what its party reads there, whatever the free values, and its word is full (R98, R269). -/
theorem write_written (hl : Functional l) {e : Host.Cell} (he : e ∈ l) (f : Nat) :
    (m.write free c l).read f c e.1 = e.2 ∧ (m.write free c l).rawFull e.1 = true ∧ (m.write free c l).raw e.1 = e.2 := by
  obtain ⟨hs, ho, hr, hf⟩ := write_parts m free c l e.1
  obtain ⟨hplain, hnone⟩ := prepares_clear_written hc free l m he
  have hraw : (m.write free c l).raw e.1 = e.2 := by rw [hr]; exact Mem.raw_putBytes_of_mem _ hl he
  exact ⟨by rw [Mem.read_now f (hs.trans hplain) (by rw [ho]; exact hnone), hraw], hf.2 (.inr ⟨e, he, rfl⟩), hraw⟩

/-- A byte that is not written reads as before, outside lines left under a replaced key (R269). -/
theorem write_read_other {a : Nat} (ha : ∀ e ∈ l, e.1 ≠ a) (hm : m.sight c a ≠ .stale) :
    (m.write free c l).read free c a = m.read free c a := by
  obtain ⟨hs, ho, hr, -⟩ := write_parts m free c l a
  rw [Mem.raw_putBytes_of_forall_ne _ ha] at hr
  refine Eq.trans ?_ (prepares_same hc free l m a hm).2.1
  simp only [Mem.read, hs, hr, Mem.older_congr free (congrArg (fun t => Sparse.get? t (a / 8)) ho)]
  rfl

/-- A word that is not written keeps its full/empty bit, outside lines left under a replaced key (R98, R269). -/
theorem write_full_other {a : Nat} (ha : ∀ e ∈ l, e.1 / 8 ≠ a / 8) (hm : m.sight c a ≠ .stale) :
    (m.write free c l).full free c a = m.full free c a := by
  obtain ⟨hs, ho, -, hf⟩ := write_parts m free c l a
  have hfull : (m.write free c l).rawFull a = (m.prepared free c l).rawFull a := by
    rw [Bool.eq_iff_iff, hf]
    exact ⟨fun h => h.resolve_right (fun ⟨e, he, hn⟩ => ha e he hn), .inl⟩
  refine Eq.trans ?_ (prepares_same hc free l m a hm).2.2
  simp only [Mem.full, hs, hfull, Mem.older_congr free (congrArg (fun t => Sparse.get? t (a / 8)) ho)]
  rfl

end written

end Sys2Proof.Machine
end

section
/-! PROOF. A write at its home where nobody waits, and the statement about the store buffer (R43, R98, R100, R154, R155, R269). -/

namespace Sys2Proof.Machine

open Sys2Proof.Safety

/-! ## Lists without repeats -/

theorem mem_dedup (l : List Nat) (k : Nat) : k ∈ dedup l ↔ k ∈ l := by
  have key : ∀ acc : List Nat, k ∈ l.foldl (fun acc k => if acc.contains k then acc else acc ++ [k]) acc ↔ k ∈ acc ∨ k ∈ l := by
    induction l with
    | nil => simp
    | cons j l ih =>
      intro acc
      rw [List.foldl_cons, ih]
      split
      next h =>
        have hj : j ∈ acc := by simpa using h
        grind
      next h => simp [or_assoc]
  exact (key []).trans (by simp)

theorem mem_linesOf {cells : List Host.Cell} {line : Nat} : line ∈ linesOf cells ↔ ∃ e ∈ cells, e.1 / 64 = line := by
  simp [linesOf, mem_dedup]

/-! ## Wakes from retention -/

theorem ClusterState.wake_wake (k : ClusterState) : k.wake.wake = k.wake := by
  by_cases h : k.curc = 0
  · have e : k.wake = k := if_pos h
    rw [e, e]
  · have e : k.wake = { k.settle with curc := 0, changing := k.changing } := if_neg h
    exact if_pos (by rw [e])

theorem woken_refl (s : State) : Woken s s := ⟨fun _ => .inl rfl, fun _ => .inl rfl⟩

theorem woken_trans {s t u : State} (h : Woken s t) (k : Woken t u) : Woken s u := by
  refine ⟨fun c => ?_, fun n => ?_⟩
  · rcases h.1 c with h | ⟨hr, h⟩ <;> rcases k.1 c with k | ⟨kr, k⟩ <;> rw [h] at k
    · exact .inl k
    · rw [h] at kr; exact .inr ⟨kr, k⟩
    · exact .inr ⟨hr, k⟩
    · rw [h] at kr; cases kr
  · rcases h.2 n with h | h <;> rcases k.2 n with k | k <;> rw [h] at k
    · exact .inl k
    · exact .inr k
    · exact .inr k
    · exact .inr (k.trans (ClusterState.wake_wake _))

/-- Cores, clusters and caches alone differ. -/
def Homes (s t : State) : Prop := t = { s with cores := t.cores, clusters := t.clusters, caches := t.caches }

theorem homes_trans {s t u : State} (h : Homes s t) (k : Homes t u) : Homes s u := by
  unfold Homes at *
  rw [k, h]

theorem soil_frame (s : State) (line : Nat) : s.soil line = { s with caches := (s.soil line).caches } := by
  unfold State.soil; split <;> rfl

theorem wakeSpad_of_depth {s : State} {loc : Nat} (h : isSpad loc = true ∧ (s.core (spadCore loc)).retained = 3) :
    s.wakeSpad loc = (s.modCluster (clusterOf (spadCore loc)) ClusterState.wake).modCore (spadCore loc) (fun k => { k with retained := 0 }) := by
  simp [State.wakeSpad, State.wakeCore, h]

theorem wakeSpad_of_not {s : State} {loc : Nat} (h : ¬ (isSpad loc = true ∧ (s.core (spadCore loc)).retained = 3)) : s.wakeSpad loc = s := by
  rw [State.wakeSpad, if_neg (by simpa using h)]

/-- A write that reaches a line wakes the core in whose scratchpad it lies, and nothing else (R43). -/
theorem reachLine_homes (s : State) (line : Nat) : Homes s (s.reachLine line) ∧ Woken s (s.reachLine line) ∧
    ∀ c, (s.reachLine line).core c ≠ s.core c → isSpad (line * 64) = true ∧ spadCore (line * 64) = c := by
  have hsoil : ∀ t : State, Homes t (t.soil line) ∧ Woken t (t.soil line) ∧ ∀ c, (t.soil line).core c = t.core c := fun t => by
    rw [soil_frame]; exact ⟨rfl, woken_refl t, fun _ => rfl⟩
  unfold State.reachLine
  obtain ⟨k1, k2, k3⟩ := hsoil (s.wakeSpad (line * 64))
  by_cases h : isSpad (line * 64) = true ∧ (s.core (spadCore (line * 64))).retained = 3
  · have hcore : ∀ c, (s.wakeSpad (line * 64)).core c = if c = spadCore (line * 64) then { s.core c with retained := 0 } else s.core c := fun c => by
      rw [wakeSpad_of_depth h, State.core_modCore]
      split
      · subst_vars; rfl
      · rfl
    refine ⟨homes_trans (by rw [wakeSpad_of_depth h]; rfl) k1, woken_trans ⟨fun c => ?_, fun n => ?_⟩ k2, fun c hc => ?_⟩
    · rw [hcore]
      split
      next e => exact .inr ⟨by rw [e]; exact h.2, rfl⟩
      next => exact .inl rfl
    · rw [wakeSpad_of_depth h]
      change ((s.modCluster _ _).cluster n = _) ∨ ((s.modCluster _ _).cluster n = _)
      rw [State.cluster_modCluster]
      split
      next e => exact .inr (by rw [e])
      next => exact .inl rfl
    · rw [k3, hcore] at hc
      split at hc
      next e => exact ⟨h.1, e.symm⟩
      next => exact absurd rfl hc
  · rw [wakeSpad_of_not h] at k1 k2 k3 ⊢
    exact ⟨k1, k2, fun c hc => absurd (k3 c) hc⟩

theorem reachLines_homes (lines : List Nat) (s : State) :
    Homes s (lines.foldl State.reachLine s) ∧ Woken s (lines.foldl State.reachLine s) ∧
    ∀ c, (lines.foldl State.reachLine s).core c ≠ s.core c → ∃ line ∈ lines, isSpad (line * 64) = true ∧ spadCore (line * 64) = c := by
  induction lines generalizing s with
  | nil => exact ⟨rfl, woken_refl s, fun c hc => absurd rfl hc⟩
  | cons line lines ih =>
    obtain ⟨h1, h2, h3⟩ := reachLine_homes s line
    obtain ⟨k1, k2, k3⟩ := ih (s.reachLine line)
    refine ⟨homes_trans h1 k1, woken_trans h2 k2, fun c hc => ?_⟩
    by_cases e : (s.reachLine line).core c = s.core c
    · rw [← e] at hc
      obtain ⟨l, hl, hs⟩ := k3 c hc
      exact ⟨l, List.mem_cons_of_mem _ hl, hs⟩
    · exact ⟨line, List.mem_cons_self, h3 c e⟩

/-! ## A write where nobody waits -/

theorem roundsAt_of_no_waiters {s : State} (h : s.waiters = []) (locs : List Nat) : s.roundsAt locs = s := by
  have hf : s.follow = s := by
    unfold State.follow
    dsimp only
    rw [h]
    simp only [List.map_nil, State.paired, List.filter_nil, List.foldl_nil]
    rw [← h]
  unfold State.roundsAt
  dsimp only
  rw [hf, h]; rfl

theorem spad_of_line (a : Nat) : isSpad (a / 64 * 64) = isSpad a ∧ (isSpad a = true → spadCore (a / 64 * 64) = spadCore a) := by
  refine ⟨(region_of_line (by omega)).1, fun h => ?_⟩
  rw [isSpad_iff] at h
  simp only [spadCore, Config.spadLocBase, Config.spadBlock]
  omega

/-- The cells of a store, each as the field that holds it takes it (R5). -/
abbrev State.storedCells (s : State) (l : List Host.Cell) : List Host.Cell := l.filterMap s.fieldCell

/-- A store where nobody waits is a write of memory; a core in whose scratchpad it writes may wake from retention (R43, R98). -/
theorem store_of_no_waiters {s : State} (h : s.waiters = []) (c : Cred) (l : List Host.Cell) :
    ∃ t, Homes s t ∧ Woken s t ∧ (∀ k, t.core k ≠ s.core k → ∃ e ∈ s.storedCells l, isSpad e.1 = true ∧ spadCore e.1 = k) ∧
      s.store c l = { t with mem := s.mem.write s.free c (s.storedCells l) } := by
  obtain ⟨h1, h2, h3⟩ := reachLines_homes (linesOf (s.storedCells l)) s
  refine ⟨_, h1, h2, fun k hk => ?_, ?_⟩
  · obtain ⟨line, hl, hs, hc⟩ := h3 k hk
    obtain ⟨e, he, rfl⟩ := mem_linesOf.1 hl
    obtain ⟨e1, e2⟩ := spad_of_line e.1
    rw [e1] at hs
    exact ⟨e, he, hs, (e2 hs).symm.trans hc⟩
  · unfold State.store State.deviceStore
    dsimp only
    have hm : ((linesOf (s.storedCells l)).foldl State.reachLine s).mem = s.mem := by rw [h1]
    have hf : ((linesOf (s.storedCells l)).foldl State.reachLine s).free = s.free := by rw [h1]
    rw [roundsAt_of_no_waiters (by change ((linesOf (s.storedCells l)).foldl State.reachLine s).waiters = []; rw [h1]; exact h)]
    rw [hm, hf]

theorem fieldCell_loc {s : State} {e e' : Host.Cell} (h : s.fieldCell e = some e') : e'.1 = e.1 := by
  unfold State.fieldCell at h
  split at h
  · rw [Option.map_eq_some_iff] at h
    obtain ⟨b, -, rfl⟩ := h
    rfl
  · split at h
    · split at h <;> cases h
      rfl
    · cases h; rfl

theorem functional_taken {s : State} {l : List Host.Cell} (h : Functional l) : Functional (s.storedCells l) := by
  intro e he e' he' hn
  obtain ⟨x, hx, hxe⟩ := List.mem_filterMap.1 he
  obtain ⟨y, hy, hye⟩ := List.mem_filterMap.1 he'
  have : x = y := h x hx y hy (by rw [← fieldCell_loc hxe, ← fieldCell_loc hye, hn])
  subst this
  exact Option.some.inj (hxe.symm.trans hye)

/-! ## Last uses -/

theorem demote_frame (s : State) (line : Nat) : s.demote line = { s with caches := (s.demote line).caches } := by
  have hw : ∀ line, s.toWback line = { s with caches := (s.toWback line).caches } := fun line => by
    unfold State.toWback
    split
    · rfl
    · split <;> rfl
  unfold State.demote
  dsimp only
  split
  · rfl
  · split
    · rw [hw]
    · rfl

theorem dropLine_frame (s : State) (line : Nat) : ∃ c o, s.dropLine line = { s with caches := c, mem := { s.mem with olds := o } } := by
  unfold State.dropLine
  dsimp only
  split
  · exact ⟨_, s.mem.olds, rfl⟩
  · exact ⟨_, _, rfl⟩

/-- Last uses of lines change what the caches note of them; where they drop the lines, also the older values that words may read as. -/
theorem lastUses_frame (drop : Bool) (lines : List Nat) (s : State) :
    ∃ c o, lines.foldl (fun s line => s.lastUse line drop) s = { s with caches := c, mem := { s.mem with olds := o } } ∧
      (drop = false → o = s.mem.olds) := by
  induction lines generalizing s with
  | nil => exact ⟨_, _, rfl, fun _ => rfl⟩
  | cons line lines ih =>
    obtain ⟨c, o, h, hd⟩ := ih (s.lastUse line drop)
    rw [List.foldl_cons, h]
    cases drop with
    | false =>
      have e : s.lastUse line false = s.demote line := rfl
      rw [e, demote_frame] at hd ⊢
      exact ⟨_, _, rfl, hd⟩
    | true =>
      have e : s.lastUse line true = s.dropLine line := rfl
      obtain ⟨c', o', e'⟩ := dropLine_frame s line
      rw [e, e']
      exact ⟨_, _, rfl, nofun⟩

/-! ## The statement -/

theorem core_setBuffer (s : State) (c k : Nat) (l : List BufStore) :
    (s.modCore c (fun q => { q with buffer := l })).core k = { s.core k with buffer := if k = c then l else (s.core k).buffer } := by
  rw [State.core_modCore]
  split
  next e => rw [e]
  next => rfl

theorem drainOne_of_alone {s : State} {sid : StrandId} {b : BufStore} {rest : List BufStore}
    (h : takeFirst (fun b => b.num == sid.num) (s.core sid.core).buffer = some (b, rest))
    (hr : ∀ a ∈ (s.core sid.core).buffer.takeWhile (fun a => a.id != b.id), s.readBoth sid.core a b = false) :
    s.drainOne sid.core sid.num = (s.modCore sid.core (fun k => { k with buffer := rest })).enterT b := by
  unfold State.drainOne
  simp only [h]
  rw [if_neg]
  rw [List.any_eq_true]
  rintro ⟨a, ha, hn⟩
  rw [hr a ha] at hn
  cases hn

/-- What a buffered store leaves as it enters memory where nobody waits: the write, and the notes of a last use. -/
theorem enterT_of_no_waiters {s : State} (h : s.waiters = []) (b : BufStore) :
    ∃ t c o, Homes s t ∧ Woken s t ∧ (∀ k, t.core k ≠ s.core k → ∃ e ∈ s.storedCells (b.placed s.mem), isSpad e.1 = true ∧ spadCore e.1 = k) ∧
      s.enterT b = { t with caches := c, mem := { s.mem.write s.free b.cred (s.storedCells (b.placed s.mem)) with olds := o } } ∧
      (b.last ≠ some true → o = (s.mem.write s.free b.cred (s.storedCells (b.placed s.mem))).olds) := by
  obtain ⟨t, h1, h2, h3, h4⟩ := store_of_no_waiters h b.cred (b.placed s.mem)
  unfold State.enterT
  dsimp only
  rw [h4]
  rcases b.last with _ | drop
  · exact ⟨t, _, _, h1, h2, h3, rfl, fun _ => rfl⟩
  · obtain ⟨c, o, e, hd⟩ := lastUses_frame drop (linesOf (b.placed s.mem)) { t with mem := s.mem.write s.free b.cred (s.storedCells (b.placed s.mem)) }
    exact ⟨t, c, o, h1, h2, h3, e, fun hl => hd (by simpa using hl)⟩

/-- Settles O9: with no waiter the drained store is one write of memory (`enterT_of_no_waiters`), and what a write leaves to the reader of
its credential is said by `write_written`, `write_read_other` and `write_full_other`. -/
theorem storeEntersMemory : Obligations.StoreEntersMemory := by
  intro s sid b rest htake hread hwait hkey hfun
  dsimp only
  have hexec : exec (.storeBufferDrain sid) s = .next (s.drainOne sid.core sid.num) := rfl
  obtain ⟨t, c, o, hh, hw, hwake, he, ho⟩ := enterT_of_no_waiters (s := s.modCore sid.core (fun k => { k with buffer := rest })) hwait b
  have hcell : Functional ((b.placed s.mem).filterMap s.fieldCell) := functional_taken hfun
  change ∀ k, _ → ∃ e ∈ (b.placed s.mem).filterMap s.fieldCell, _ at hwake
  change _ = { t with caches := c, mem := { s.mem.write s.free b.cred ((b.placed s.mem).filterMap s.fieldCell) with olds := o } } at he
  change _ → o = (s.mem.write s.free b.cred ((b.placed s.mem).filterMap s.fieldCell)).olds at ho
  generalize (b.placed s.mem).filterMap s.fieldCell = cells at *
  have hbuf : ∀ k, (t.core k).buffer = if k = sid.core then rest else (s.core k).buffer := fun k => by
    rcases hw.1 k with e | ⟨-, e⟩ <;> rw [e, core_setBuffer]
  refine ⟨_, by rw [hexec, drainOne_of_alone htake hread], ?_⟩
  rw [he]
  have hfree : t.free = s.free := by rw [hh]; rfl
  refine ⟨?_, fun hl => ?_, fun e hm => (write_written hkey s.free s.mem hcell hm 0).2.2, ?_, fun k => ⟨?_, fun hk => ?_, ?_⟩⟩
  · change (t.core sid.core).buffer = rest
    rw [hbuf, if_pos rfl]
  · rw [ho hl]
    refine ⟨fun e hm => ?_, fun a ha hs => ?_, fun a ha hs => ?_⟩
    · obtain ⟨h1, h2, -⟩ := write_written hkey s.free s.mem hcell hm t.free
      exact ⟨h1, h2⟩
    · change Mem.read _ t.free b.cred a = _
      rw [hfree]; exact write_read_other hkey s.free s.mem ha hs
    · change _ = Mem.full _ t.free b.cred a
      rw [hfree]; exact (write_full_other hkey s.free s.mem ha hs).symm
  · rw [hh]; rfl
  · change t.core k = { s.core k with buffer := (t.core k).buffer, retained := (t.core k).retained }
    rcases hw.1 k with e | ⟨-, e⟩ <;> rw [e, core_setBuffer]
  · change (t.core k).buffer = _
    rw [hbuf, if_neg hk]
  · change (t.core k).retained = (s.core k).retained ∨ ((s.core k).retained = 3 ∧ (t.core k).retained = 0 ∧ _)
    rcases hw.1 k with e | ⟨hr, e⟩
    · exact .inl (by rw [e, core_setBuffer])
    · have hne : t.core k ≠ (s.modCore sid.core (fun k => { k with buffer := rest })).core k := fun n => by
        rw [n] at e
        rw [e] at hr
        cases hr
      exact .inr ⟨by rw [core_setBuffer] at hr; exact hr, by rw [e], hwake k hne⟩

end Sys2Proof.Machine
end

section
/-! PROOF. The Driost ports (R333-R337). -/

namespace Sys2Proof.Machine

open Sys2Proof.Safety

/-! ## Ports, routes and what follows from their change (R335-R337) -/

@[simp] theorem Hub.port_setPort (h : Hub) (p k : Nat) (q : Port) : (h.setPort p q).port k = if k = p then q else h.port k :=
  Sparse.at_set Port.reset h.ports p k q

@[simp] theorem Hub.port_review (h : Hub) (now k : Nat) : (h.review now).port k = h.port k := rfl

theorem bitAt_toNat {n : Nat} (v : BitVec n) (i : Nat) : bitAt v.toNat i = v.getLsbD i := by
  rw [bitAt, BitVec.getLsbD, Nat.testBit_eq_decide_div_mod_eq]; rfl

theorem mem_routePorts (h : Hub) (socket j : Nat) : j ∈ h.routePorts socket ↔ j < 8 ∧ (Sparse.at 0 h.droute socket).getLsbD j = true := by
  simp only [Hub.routePorts, List.mem_filter, List.mem_range, bitAt_toNat]

theorem routePorts_isEmpty (h : Hub) (socket : Nat) : (h.routePorts socket).isEmpty = true ↔ Sparse.at 0 h.droute socket = 0 := by
  rw [List.isEmpty_iff, List.eq_nil_iff_forall_not_mem]
  constructor
  · intro hn
    refine BitVec.eq_of_getLsbD_eq fun j hj => ?_
    have := hn j
    rw [mem_routePorts] at this
    rw [show BitVec.getLsbD (0 : BitVec 8) j = false from BitVec.getLsbD_zero, Bool.eq_false_iff]
    exact fun e => this ⟨hj, e⟩
  · intro h0 j hj
    have := ((mem_routePorts h socket j).1 hj).2
    rw [h0] at this
    cases this.symm.trans (BitVec.getLsbD_zero)

theorem unreachable_iff (h : Hub) (k : Nat) :
    h.unreachable k = true ↔ k ≠ h.sockid.toNat ∧ ∀ j < 8, (Sparse.at 0 h.droute k).getLsbD j = true → (h.port j).up = false := by
  simp only [Hub.unreachable, Bool.and_eq_true, decide_eq_true_eq, Bool.not_eq_true', List.any_eq_false, mem_routePorts, Bool.not_eq_true, and_imp]

theorem review_leftOff (h : Hub) (now : Nat) : (h.review now).leftOff = true ↔ h.leftOff = true ∨ ∃ k < 8, (h.port k).st ≠ .off := by
  simp only [Hub.review, Bool.or_eq_true, List.any_eq_true, List.mem_range, bne_iff_ne]

theorem review_lost (h : Hub) (now k : Nat) : k ∈ (h.review now).lost ↔
    k ∈ h.lost ∧ ∀ j < 8, (Sparse.at 0 h.droute k).getLsbD j = true → ¬ ((h.port j).up = true ∧ (h.port j).renewed = true) := by
  simp only [Hub.review, Hub.restored, List.mem_filter, Bool.not_eq_true', List.any_eq_false, mem_routePorts, Bool.and_eq_true, and_imp]

theorem review_reachable {h : Hub} (now : Nat) (hr : ∀ k < 64, h.unreachable k = false) : (h.review now).cutSince = none := by
  have : (List.range 64).any h.unreachable = false := by
    rw [List.any_eq_false]; intro k hk; rw [hr k (List.mem_range.1 hk)]; exact Bool.false_ne_true
  simp only [Hub.review, this, Bool.false_eq_true, if_false]

theorem review_cut {h : Hub} (now : Nat) (hr : ∃ k < 64, h.unreachable k = true) : (h.review now).cutSince = some (h.cutSince.getD now) := by
  obtain ⟨k, hk, hu⟩ := hr
  simp only [Hub.review, List.any_eq_true.2 ⟨k, List.mem_range.2 hk, hu⟩, if_true]

/-! ## A port takes a value -/

/-- A port takes a value, and nothing is sent. -/
def State.putPort (s : State) (p : Nat) (r : Port) : State := s.modHub (fun h => (h.setPort p r).review s.clk.time)

/-- Flits have been sent or kept: of a port, only the next sequence number and the replay buffer have changed. -/
def Resent (s t : State) : Prop :=
  t = { s with free := t.free, hub := { s.hub with ports := t.hub.ports, holding := t.hub.holding, forwarded := t.hub.forwarded } } ∧
  ∀ k, t.hub.port k = { s.hub.port k with nextSeq := (t.hub.port k).nextSeq, sent := (t.hub.port k).sent }

theorem resent_refl (s : State) : Resent s s := ⟨rfl, fun _ => rfl⟩

theorem resent_trans {s t u : State} (h : Resent s t) (k : Resent t u) : Resent s u :=
  ⟨by rw [k.1, h.1], fun n => by rw [k.2, h.2]⟩

theorem port_of_set {h t : Hub} {p : Nat} {r : Port} (ht : t.ports = h.ports.set p r) (k : Nat) : t.port k = if k = p then r else h.port k := by
  rw [Hub.port, ht]; exact Sparse.at_set Port.reset h.ports p k r

theorem resent_sendFlit (s : State) (f : Flit) : Resent s (s.sendFlit f) := by
  unfold State.sendFlit
  dsimp only
  split
  · exact ⟨rfl, fun _ => rfl⟩
  · refine ⟨rfl, fun k => ?_⟩
    rw [port_of_set (h := s.hub) rfl k]
    split
    next e => rw [e]
    next => rfl

theorem resent_resend (fs : List Flit) (s : State) : Resent s (s.resend fs) := by
  induction fs generalizing s with
  | nil => exact resent_refl s
  | cons f fs ih => exact resent_trans (resent_sendFlit s f) (ih _)

/-- A port has taken a value, and with it flits have been sent or kept. -/
def Moved (s : State) (p : Nat) (r : Port) (t : State) : Prop :=
  t = { s with free := t.free, hub := { s.hub with ports := t.hub.ports, leftOff := t.hub.leftOff, cutSince := t.hub.cutSince, lost := t.hub.lost,
                                                   holding := t.hub.holding, forwarded := t.hub.forwarded } } ∧
  (∀ k, t.hub.port k = { (if k = p then r else s.hub.port k) with nextSeq := (t.hub.port k).nextSeq, sent := (t.hub.port k).sent }) ∧
  (s.hub.holding = [] → (s.hub.port p).sent = [] → t.hub.forwarded = s.hub.forwarded ∧ t.hub.holding = [])

theorem moved_of_resent {s u t : State} {p : Nat} {r r' : Port} (ht : Resent u t)
    (hu : u = { s with free := u.free, hub := { s.hub with ports := u.hub.ports, leftOff := u.hub.leftOff, cutSince := u.hub.cutSince,
                                                           lost := u.hub.lost, holding := u.hub.holding } })
    (hp : u.hub.ports = s.hub.ports.set p r') (hr : r' = { r with sent := r'.sent })
    (hq : s.hub.holding = [] → (s.hub.port p).sent = [] → t.hub.forwarded = u.hub.forwarded ∧ t.hub.holding = []) : Moved s p r t := by
  refine ⟨by rw [ht.1, hu], fun k => ?_, fun h1 h2 => ?_⟩
  · rw [ht.2, port_of_set hp k]
    split
    · rw [hr]
    · rfl
  · obtain ⟨h3, h4⟩ := hq h1 h2
    exact ⟨by rw [h3, hu], h4⟩

theorem setPort_put {s : State} {p : Nat} {q : Port} (hd : ¬ (q.st = .down ∧ (s.hub.port p).st ≠ .down))
    (hu : (q.up && !(s.hub.port p).up) = false) : s.setPort p q = s.putPort p q := by
  unfold State.setPort
  dsimp only
  rw [if_neg hd, if_neg (by rw [hu]; exact Bool.false_ne_true)]; rfl

theorem moved_setPort (s : State) (p : Nat) {q : Port} (hs : q.sent = (s.hub.port p).sent) : Moved s p q (s.setPort p q) := by
  unfold State.setPort
  dsimp only
  split
  · refine moved_of_resent (resent_resend _ _) rfl rfl rfl (fun h1 h2 => ?_)
    rw [hs, h2, List.drop_nil]; exact ⟨rfl, h1⟩
  · split
    · refine moved_of_resent (resent_resend _ _) rfl rfl rfl (fun h1 h2 => ?_)
      rw [h1]; exact ⟨rfl, rfl⟩
    · exact moved_of_resent (resent_refl _) rfl rfl rfl (fun h1 h2 => ⟨rfl, h1⟩)

end Sys2Proof.Machine
end

section
/-! PROOF. Changes of a port's state (R335, R336). -/

namespace Sys2Proof.Machine

open Sys2Proof.Safety

/-! ## DPCTL (R335) -/

theorem exec_dpctlEnable (s : State) (p : Nat) (b : Bool) : exec (.dpctlEnable p b) s = .next (if s.linkOpen then s.setEnable p b else s) := rfl
theorem exec_dpctlReset (s : State) (p : Nat) : exec (.dpctlReset p) s = .next (if s.linkOpen then s.resetPort p else s) := rfl

theorem dpctl_of_closed {s : State} {p : Nat} (h : s.linkOpen = false ∨ 8 ≤ p) (b : Bool) :
    exec (.dpctlEnable p b) s = .next s ∧ exec (.dpctlReset p) s = .next s := by
  rw [exec_dpctlEnable, exec_dpctlReset]
  rcases h with h | h
  · simp [h]
  · simp [State.setEnable, State.resetPort, h]

theorem portStep_in {s : State} {p : Nat} {l : List PortState} (hp : p < 8) (h : l.contains (s.hub.port p).st = true) (f : Port → Port) :
    s.portStep p l f = s.setPort p (f (s.hub.port p)) := if_pos ⟨hp, h⟩

theorem portStep_out {s : State} {p : Nat} {l : List PortState} (h : 8 ≤ p ∨ l.contains (s.hub.port p).st = false) (f : Port → Port) :
    s.portStep p l f = s := by
  refine if_neg fun n => ?_
  rcases h with h | h
  · omega
  · rw [h] at n; cases n.2

section port
variable {s : State} {p : Nat}

theorem setPort_kept {q : Port} (h : q.st = (s.hub.port p).st) : s.setPort p q = s.putPort p q :=
  setPort_put (fun n => n.2 (h ▸ n.1)) (by rw [Port.up, Port.up, h, Bool.and_not_self])

theorem setPort_idle {q : Port} (hd : q.st ≠ .down) (hu : q.up = false) : s.setPort p q = s.putPort p q :=
  setPort_put (fun n => hd n.1) (by rw [hu]; rfl)

section dpctl
variable (hp : p < 8) (ho : s.linkOpen = true)
include hp ho

theorem enable_detects (h : (s.hub.port p).st = .off) (hs : s.hub.sockSet = true) :
    exec (.dpctlEnable p true) s = .next (s.putPort p { s.hub.port p with enable := true, st := .detect, since := s.clk.time }) := by
  rw [exec_dpctlEnable, if_pos ho, State.setEnable, if_neg (by omega)]
  simp only [h, hs, Bool.not_true, Bool.false_eq_true, and_false, if_false, if_true]
  exact congrArg Host.Outcome.next (setPort_idle (fun e => by cases e) rfl)

theorem enable_kept (h : (s.hub.port p).st ≠ .off ∨ s.hub.sockSet = false) :
    exec (.dpctlEnable p true) s = .next (s.putPort p { s.hub.port p with enable := true }) := by
  rw [exec_dpctlEnable, if_pos ho, State.setEnable, if_neg (by omega)]
  dsimp only
  by_cases hoff : (s.hub.port p).st = .off
  · rw [if_pos ⟨hoff, by simp [h.resolve_left (fun n => n hoff)]⟩]
    exact congrArg Host.Outcome.next (setPort_kept rfl)
  · rw [if_neg (fun n => hoff n.1), if_pos rfl, if_neg hoff]
    exact congrArg Host.Outcome.next (setPort_kept rfl)

theorem disable_kept (h : (s.hub.port p).st = .fenced ∨ (s.hub.port p).st = .down ∨ ((s.hub.port p).st = .off ∧ s.hub.sockSet = false)) :
    exec (.dpctlEnable p false) s = .next (s.putPort p { s.hub.port p with enable := false }) := by
  rw [exec_dpctlEnable, if_pos ho, State.setEnable, if_neg (by omega)]
  dsimp only
  by_cases hoff : (s.hub.port p).st = .off ∧ s.hub.sockSet = false
  · rw [if_pos ⟨hoff.1, by simp [hoff.2]⟩]
    exact congrArg Host.Outcome.next (setPort_kept rfl)
  · rw [if_neg (by simpa using hoff), if_neg Bool.false_ne_true, if_pos (h.imp_right (fun k => k.resolve_right hoff))]
    exact congrArg Host.Outcome.next (setPort_kept rfl)

theorem disable_down (h1 : (s.hub.port p).st ≠ .fenced) (h2 : (s.hub.port p).st ≠ .down) (h3 : (s.hub.port p).st ≠ .off ∨ s.hub.sockSet = true) :
    ∃ t, exec (.dpctlEnable p false) s = .next t ∧ Moved s p { s.hub.port p with st := .down, since := s.clk.time, enable := false } t := by
  refine ⟨_, ?_, moved_setPort s p rfl⟩
  rw [exec_dpctlEnable, if_pos ho, State.setEnable, if_neg (by omega)]
  dsimp only
  have hnamed : ¬ ((s.hub.port p).st = .off ∧ (!s.hub.sockSet) = true) := by
    rintro ⟨e, n⟩
    rw [h3.resolve_left (fun k => k e)] at n
    cases n
  rw [if_neg hnamed, if_neg Bool.false_ne_true, if_neg (not_or.2 ⟨h1, h2⟩)]

theorem reset_off (h : (s.hub.port p).st = .down ∨ (s.hub.port p).st = .fenced) : exec (.dpctlReset p) s =
    .next (s.putPort p { s.hub.port p with st := .off, since := s.clk.time, fails := 0, expect := 0, nextSeq := 0, sent := [], renewed := true }) := by
  rw [exec_dpctlReset, if_pos ho, State.resetPort]
  dsimp only
  rw [if_neg (by omega), if_pos h]
  exact congrArg Host.Outcome.next (setPort_idle (fun e => by cases e) rfl)

theorem reset_none (h1 : (s.hub.port p).st ≠ .down) (h2 : (s.hub.port p).st ≠ .fenced) : exec (.dpctlReset p) s = .next s := by
  rw [exec_dpctlReset, if_pos ho, State.resetPort, if_neg (by omega), if_neg (not_or.2 ⟨h1, h2⟩)]

end dpctl

/-! ## Detection, training, timeouts and failures (R335) -/

theorem exec_peerDetected (s : State) (p : Nat) (n : BitVec 6) : exec (.peerDetected p n) s =
    .next (s.portStep p [.detect] (fun q => { q with st := .train, since := s.clk.time, peer := n })) := rfl
theorem exec_portTrained (s : State) (p : Nat) (l : Lanes) : exec (.portTrained p l) s =
    .next (s.portStep p [.train, .retrain] (fun q => q.trained l s.hub.sockid s.clk.time)) := rfl
theorem exec_trainingTimeout (s : State) (p : Nat) : exec (.trainingTimeout p) s = .next (if (s.hub.port p).since + 1000000 ≤ s.clk.time then
    s.portStep p [.train, .retrain] (fun q => { q with st := .down, since := s.clk.time }) else s) := rfl
theorem exec_laneFailure (s : State) (p : Nat) : exec (.laneFailure p) s =
    .next (s.portStep p [.active, .half] (fun q => q.retrain s.clk.time)) := rfl

theorem up_iff (q : Port) : q.up = true ↔ q.st = .active ∨ q.st = .half := by simp [Port.up]

theorem contains_up (q : Port) : [PortState.active, .half].contains q.st = q.up := by
  rw [Bool.eq_iff_iff, up_iff]; simp

theorem contains_training (q : Port) : [PortState.train, .retrain].contains q.st = true ↔ q.st = .train ∨ q.st = .retrain := by
  simp

theorem peerDetected_detect (hp : p < 8) (n : BitVec 6) (h : (s.hub.port p).st = .detect) :
    exec (.peerDetected p n) s = .next (s.putPort p { s.hub.port p with st := .train, since := s.clk.time, peer := n }) := by
  rw [exec_peerDetected, portStep_in hp (by rw [h]; rfl)]
  exact congrArg Host.Outcome.next (setPort_idle (fun e => by cases e) rfl)

theorem peerDetected_other (n : BitVec 6) (h : 8 ≤ p ∨ (s.hub.port p).st ≠ .detect) : exec (.peerDetected p n) s = .next s := by
  rw [exec_peerDetected, portStep_out (h.imp_right (fun h => by simpa using h))]

theorem not_training {q : Port} (h : ¬ (q.st = .train ∨ q.st = .retrain)) : [PortState.train, .retrain].contains q.st = false :=
  Bool.eq_false_iff.2 (mt (contains_training q).1 h)

theorem portTrained_other (l : Lanes) (h : 8 ≤ p ∨ ¬ ((s.hub.port p).st = .train ∨ (s.hub.port p).st = .retrain)) :
    exec (.portTrained p l) s = .next s := by
  rw [exec_portTrained, portStep_out (h.imp_right not_training)]

theorem trainingTimeout_other (h : 8 ≤ p ∨ ¬ ((s.hub.port p).st = .train ∨ (s.hub.port p).st = .retrain) ∨ s.clk.time < (s.hub.port p).since + 1000000) :
    exec (.trainingTimeout p) s = .next s := by
  rw [exec_trainingTimeout]
  rcases h with h | h | h
  · rw [portStep_out (.inl h), ite_self]
  · rw [portStep_out (.inr (not_training h)), ite_self]
  · rw [if_neg (by omega)]

theorem laneFailure_other (h : 8 ≤ p ∨ (s.hub.port p).up = false) : exec (.laneFailure p) s = .next s := by
  rw [exec_laneFailure, portStep_out (h.imp_right (fun h => by rw [contains_up, h]))]

theorem laneFailure_up (hp : p < 8) (h : (s.hub.port p).up = true) : exec (.laneFailure p) s =
    .next (s.putPort p { s.hub.port p with st := .retrain, since := s.clk.time, retrains := (s.hub.port p).retrains + 1, fails := 0 }) := by
  rw [exec_laneFailure, portStep_in hp (by rw [contains_up, h])]
  exact congrArg Host.Outcome.next (setPort_idle (fun e => by cases e) rfl)

section training
variable (hp : p < 8) (ht : (s.hub.port p).st = .train ∨ (s.hub.port p).st = .retrain)
include hp ht

theorem portTrained_step (l : Lanes) : exec (.portTrained p l) s = .next (s.setPort p ((s.hub.port p).trained l s.hub.sockid s.clk.time)) := by
  rw [exec_portTrained, portStep_in hp ((contains_training _).2 ht)]

theorem portTrained_down (l : Lanes) (h : l = .neither ∨ (s.hub.port p).peer = s.hub.sockid) :
    ∃ t, exec (.portTrained p l) s = .next t ∧ Moved s p { s.hub.port p with st := .down, since := s.clk.time } t := by
  refine ⟨_, ?_, moved_setPort s p rfl⟩
  rw [portTrained_step hp ht]
  exact congrArg (fun q => Host.Outcome.next (s.setPort p q)) (if_pos h.symm)

/-- What the lanes of a port that train in time, or too late, make of it (R335). -/
theorem portTrained_up {l : Lanes} {st : PortState} {high : Bool} {bound : Nat} (hn : (s.hub.port p).peer ≠ s.hub.sockid)
    (hl : (l, st, high, bound) ∈ [(Lanes.all, PortState.active, false, 20000), (.low, .half, false, 40000), (.high, .half, true, 40000)]) :
    (s.clk.time ≤ (s.hub.port p).since + bound → ∃ t, exec (.portTrained p l) s = .next t ∧
      Moved s p { s.hub.port p with st := st, since := s.clk.time, halfHigh := high } t) ∧
    ((s.hub.port p).since + bound < s.clk.time → exec (.portTrained p l) s = .next (s.putPort p (s.hub.port p))) := by
  have key : (s.hub.port p).trained l s.hub.sockid s.clk.time =
      if s.clk.time - (s.hub.port p).since ≤ bound then { s.hub.port p with st := st, since := s.clk.time, halfHigh := high } else s.hub.port p := by
    simp only [List.mem_cons, Prod.mk.injEq, List.not_mem_nil, or_false] at hl
    obtain ⟨rfl, rfl, rfl, rfl⟩ | ⟨rfl, rfl, rfl, rfl⟩ | ⟨rfl, rfl, rfl, rfl⟩ := hl <;>
      exact if_neg (not_or.2 ⟨hn, nofun⟩)
  refine ⟨fun h => ⟨_, ?_, moved_setPort s p rfl⟩, fun h => ?_⟩
  · rw [portTrained_step hp ht, key, if_pos (by omega)]
  · rw [portTrained_step hp ht, key, if_neg (by omega)]
    exact congrArg Host.Outcome.next (setPort_kept rfl)

theorem trainingTimeout_down (h : (s.hub.port p).since + 1000000 ≤ s.clk.time) :
    ∃ t, exec (.trainingTimeout p) s = .next t ∧ Moved s p { s.hub.port p with st := .down, since := s.clk.time } t := by
  refine ⟨_, ?_, moved_setPort s p rfl⟩
  rw [exec_trainingTimeout, if_pos h, portStep_in hp ((contains_training _).2 ht)]

end training
end port

end Sys2Proof.Machine
end

section
/-! PROOF. Cut-off sockets and flits (R333-R337). -/

namespace Sys2Proof.Machine

open Sys2Proof.Safety

/-! ## Fenced ports (R335, R336) -/

theorem Sparse.at_map {α : Type} (d : α) (f : α → α) (hd : f d = d) (t : Sparse α) (k : Nat) :
    Sparse.at d (t.map (fun e => (e.1, f e.2))) k = f (Sparse.at d t k) := by
  induction t with
  | nil => exact hd.symm
  | cons e t ih =>
    obtain ⟨j, v⟩ := e
    simp only [Sparse.at, List.map_cons, Sparse.get?] at ih ⊢
    split
    · rfl
    · exact ih

/-- The socket has a route, none of whose ports carries flits (R336). -/
def Hub.CutOff (h : Hub) (k : Nat) : Prop :=
  k < 64 ∧ k ≠ h.sockid.toNat ∧ Sparse.at 0 h.droute k ≠ 0 ∧ ∀ j < 8, (Sparse.at 0 h.droute k).getLsbD j = true → (h.port j).up = false

theorem mem_cutOff (h : Hub) (k : Nat) :
    k ∈ (List.range 64).filter (fun k => h.unreachable k && decide (Sparse.at 0 h.droute k ≠ 0)) ↔ h.CutOff k := by
  rw [List.mem_filter, List.mem_range, Bool.and_eq_true, unreachable_iff, decide_eq_true_eq, Hub.CutOff]
  exact and_congr_right fun _ => and_assoc.trans (and_congr_right fun _ => and_comm)

theorem fence_facts (h : Hub) :
    h.fence = { h with lost := h.fence.lost, holding := h.fence.holding, ports := h.fence.ports } ∧
    (∀ k, h.fence.port k = { h.port k with renewed := false }) ∧ (∀ k, k ∈ h.fence.lost ↔ k ∈ h.lost ∨ h.CutOff k) ∧
    ∀ f, f ∈ h.fence.holding ↔ f ∈ h.holding ∧ ¬ h.CutOff f.socket := by
  refine ⟨rfl, fun k => Sparse.at_map Port.reset (fun q => { q with renewed := false }) rfl h.ports k, fun k => ?_, fun f => ?_⟩
  · rw [← mem_cutOff, ← List.mem_append]
    exact mem_dedup _ k
  · refine List.mem_filter.trans (and_congr_right fun _ => ?_)
    rw [Bool.not_eq_true', Bool.eq_false_iff, ne_eq, List.contains_iff_mem, mem_cutOff]

theorem exec_portFenceTimeout (s : State) (p : Nat) : exec (.portFenceTimeout p) s = execPortFenceTimeout p s := rfl

section fence
variable {s : State} {p : Nat}

theorem fenceTimeout_none (h : 8 ≤ p ∨ s.hub.cutSince = none ∨ (s.hub.port p).st ≠ .down ∨ s.clk.time < (s.hub.port p).since + 1000000 ∨
    ∃ cut, s.hub.cutSince = some cut ∧ s.clk.time < cut + 1000000) : exec (.portFenceTimeout p) s = .next s := by
  rw [exec_portFenceTimeout, execPortFenceTimeout]
  split
  next => rfl
  next cut hc =>
    refine if_neg fun ⟨hp, hd, ht⟩ => ?_
    have hmax : Nat.max cut (s.hub.port p).since = max cut (s.hub.port p).since := rfl
    rcases h with h | h | h | h | ⟨c, h, hl⟩
    · omega
    · rw [hc] at h; cases h
    · exact h hd
    · omega
    · rw [hc] at h; cases h; omega

theorem fenceTimeout_down (hp : p < 8) {cut : Nat} (hc : s.hub.cutSince = some cut) (hd : (s.hub.port p).st = .down)
    (h1 : cut + 1000000 ≤ s.clk.time) (h2 : (s.hub.port p).since + 1000000 ≤ s.clk.time) :
    exec (.portFenceTimeout p) s = .next ((s.putPort p { s.hub.port p with st := .fenced, since := s.clk.time }).modHub Hub.fence) := by
  have hmax : Nat.max cut (s.hub.port p).since = max cut (s.hub.port p).since := rfl
  rw [exec_portFenceTimeout, execPortFenceTimeout, hc]
  refine (if_pos ⟨hp, hd, by omega⟩).trans ?_
  exact congrArg (fun t => Host.Outcome.next (State.modHub t Hub.fence)) (setPort_idle (fun e => by cases e) rfl)

theorem cutOff_fenced (hd : (s.hub.port p).st = .down) (k : Nat) :
    (s.putPort p { s.hub.port p with st := .fenced, since := s.clk.time }).hub.CutOff k ↔ s.hub.CutOff k := by
  have hup : ∀ j, ((s.putPort p { s.hub.port p with st := .fenced, since := s.clk.time }).hub.port j).up = (s.hub.port j).up := fun j => by
    change (Hub.port (Hub.review _ _) j).up = _
    rw [Hub.port_review, Hub.port_setPort]
    split
    next e => rw [e, Port.up, Port.up, hd]; rfl
    next => rfl
  simp only [Hub.CutOff, hup]
  rfl

theorem fenceTimeout_facts (hp : p < 8) {cut : Nat} (hc : s.hub.cutSince = some cut) (hd : (s.hub.port p).st = .down)
    (h1 : cut + 1000000 ≤ s.clk.time) (h2 : (s.hub.port p).since + 1000000 ≤ s.clk.time) :
    let u := s.putPort p { s.hub.port p with st := .fenced, since := s.clk.time }
    ∃ t, exec (.portFenceTimeout p) s = .next t ∧
      t = { u with hub := { u.hub with lost := t.hub.lost, holding := t.hub.holding, ports := t.hub.ports } } ∧
      (∀ k, t.hub.port k = { u.hub.port k with renewed := false }) ∧ (∀ k, k ∈ t.hub.lost ↔ k ∈ u.hub.lost ∨ s.hub.CutOff k) ∧
      ∀ f, f ∈ t.hub.holding ↔ f ∈ s.hub.holding ∧ ¬ s.hub.CutOff f.socket := by
  intro u
  obtain ⟨h3, h4, h5, h6⟩ := fence_facts u.hub
  refine ⟨_, fenceTimeout_down hp hc hd h1 h2, rfl, h4, fun k => ?_, fun f => ?_⟩
  · rw [← cutOff_fenced hd k]; exact h5 k
  · rw [← cutOff_fenced hd f.socket]; exact h6 f

end fence

/-! ## Sending a flit (R333, R335) -/

theorem mem_upPorts (s : State) (socket j : Nat) : j ∈ (s.hub.routePorts socket).filter (fun p => (s.hub.port p).up) ↔
    j < 8 ∧ (Sparse.at 0 s.hub.droute socket).getLsbD j = true ∧ (s.hub.port j).up = true := by
  rw [List.mem_filter, mem_routePorts, and_assoc]

theorem sendFlit_held {s : State} {f : Flit} (h : ∀ j < 8, (Sparse.at 0 s.hub.droute f.socket).getLsbD j = true → (s.hub.port j).up = false) :
    s.sendFlit f = s.modHub (fun h => { h with holding := h.holding ++ [f] }) := by
  have hnil : (s.hub.routePorts f.socket).filter (fun p => (s.hub.port p).up) = [] := by
    rw [List.eq_nil_iff_forall_not_mem]
    intro j hj
    obtain ⟨h1, h2, h3⟩ := (mem_upPorts s f.socket j).1 hj
    rw [h j h1 h2] at h3
    cases h3
  unfold State.sendFlit
  dsimp only
  rw [hnil]; rfl

theorem sendFlit_sent {s : State} {f : Flit} (h : ∃ j < 8, (Sparse.at 0 s.hub.droute f.socket).getLsbD j = true ∧ (s.hub.port j).up = true) :
    ∃ j < 8, (Sparse.at 0 s.hub.droute f.socket).getLsbD j = true ∧ (s.hub.port j).up = true ∧
      s.sendFlit f = { s with free := s.free + 1, hub := { s.hub with
        ports := s.hub.ports.set j { s.hub.port j with
          nextSeq := (s.hub.port j).nextSeq + 1,
          sent := ((s.hub.port j).sent ++ [{ f with seq := (s.hub.port j).nextSeq }]).drop ((s.hub.port j).sent.length + 1 - 64) },
        forwarded := s.hub.forwarded ++ [(j, { f with seq := (s.hub.port j).nextSeq })] } } := by
  unfold State.sendFlit
  dsimp only
  have hpos : 0 < ((s.hub.routePorts f.socket).filter (fun p => (s.hub.port p).up)).length := by
    obtain ⟨j, h1, h2, h3⟩ := h
    exact List.length_pos_of_mem ((mem_upPorts s f.socket j).2 ⟨h1, h2, h3⟩)
  have hlt := Nat.mod_lt (Config.routePort s.free) hpos
  rw [List.getElem?_eq_getElem hlt]
  obtain ⟨h1, h2, h3⟩ := (mem_upPorts s f.socket _).1 (List.getElem_mem hlt)
  exact ⟨_, h1, h2, h3, rfl⟩

/-! ## Receiving a flit (R333, R334) -/

theorem exec_flitReceive (s : State) (p : Nat) (f : Flit) : exec (.flitReceive p f) s = execFlitReceive p f s := rfl

section receive
variable {s : State} {p : Nat} {f : Flit}

theorem receive_none (h : 8 ≤ p ∨ (s.hub.port p).up = false ∨ f.payload.length ≠ 240) : exec (.flitReceive p f) s = .next s := by
  rw [exec_flitReceive, execFlitReceive, if_pos (by simpa using h)]

section up
variable (hp : p < 8) (hu : (s.hub.port p).up = true) (hf : f.payload.length = 240)
include hp hu hf

theorem receive_step : exec (.flitReceive p f) s =
    if !f.crcOk then .next (s.setPort p ((s.hub.port p).replay s.clk.time))
    else if f.seq ≠ (s.hub.port p).expect then .next s
    else .next ((s.putPort p { s.hub.port p with expect := (s.hub.port p).expect + 1, fails := 0 }).takeFlit f) := by
  have hput : s.setPort p { s.hub.port p with expect := (s.hub.port p).expect + 1, fails := 0 } =
      s.putPort p { s.hub.port p with expect := (s.hub.port p).expect + 1, fails := 0 } := setPort_kept rfl
  rw [exec_flitReceive, execFlitReceive, if_neg (by simp [hu, hf]; exact hp), portStep_in hp (by rw [contains_up, hu]),
    portStep_in hp (by rw [contains_up, hu]), hput]

theorem receive_bad (hc : f.crcOk = false) (hn : (s.hub.port p).fails ≠ 7) : exec (.flitReceive p f) s =
    .next (s.putPort p { s.hub.port p with fails := (s.hub.port p).fails + 1, replays := (s.hub.port p).replays + 1 }) := by
  rw [receive_step hp hu hf, if_pos (by rw [hc]; rfl), Port.replay, if_neg (by omega)]
  exact congrArg Host.Outcome.next (setPort_kept rfl)

theorem receive_eighth_bad (hc : f.crcOk = false) (hn : (s.hub.port p).fails = 7) : exec (.flitReceive p f) s =
    .next (s.putPort p { s.hub.port p with st := .retrain, since := s.clk.time, retrains := (s.hub.port p).retrains + 1, fails := 0,
                                           replays := (s.hub.port p).replays + 1 }) := by
  rw [receive_step hp hu hf, if_pos (by rw [hc]; rfl), Port.replay, if_pos (by omega)]
  exact congrArg Host.Outcome.next (setPort_idle (fun e => by cases e) rfl)

theorem receive_again (hc : f.crcOk = true) (hq : f.seq ≠ (s.hub.port p).expect) : exec (.flitReceive p f) s = .next s := by
  rw [receive_step hp hu hf, if_neg (by rw [hc]; exact Bool.false_ne_true), if_pos hq]

theorem receive_next (hc : f.crcOk = true) (hq : f.seq = (s.hub.port p).expect) : exec (.flitReceive p f) s =
    .next ((s.putPort p { s.hub.port p with expect := (s.hub.port p).expect + 1, fails := 0 }).takeFlit f) := by
  rw [receive_step hp hu hf, if_neg (by rw [hc]; exact Bool.false_ne_true), if_neg (fun n => n hq)]

end up

theorem takeFlit_own (h : f.socket = s.hub.sockid.toNat) : s.takeFlit f = s.modHub (fun h => { h with delivered := h.delivered ++ [f.payload] }) :=
  if_pos h

theorem takeFlit_dropped (h : f.socket ≠ s.hub.sockid.toNat) (hd : 3 ≤ f.hops ∨ Sparse.at 0 s.hub.droute f.socket = 0 ∨ f.socket ∈ s.hub.lost) :
    s.takeFlit f = s := by
  rw [State.takeFlit, if_neg h, if_pos]
  rwa [routePorts_isEmpty, List.contains_iff_mem]

theorem takeFlit_forwarded (h : f.socket ≠ s.hub.sockid.toNat) (h1 : f.hops < 3) (h2 : Sparse.at 0 s.hub.droute f.socket ≠ 0)
    (h3 : f.socket ∉ s.hub.lost) : s.takeFlit f = s.sendFlit { f with hops := f.hops + 1 } := by
  rw [State.takeFlit, if_neg h, if_neg]
  rw [routePorts_isEmpty, List.contains_iff_mem]
  rintro (n | n | n)
  · omega
  · exact h2 n
  · exact h3 n

end receive

end Sys2Proof.Machine
end

section
/-! PROOF. What the host writes and reads (R5, R301, R337, R341, R394), and the statement about links. -/

namespace Sys2Proof.Machine

open Sys2Proof.Safety

/-! ## Registers (R5, R337, R339) -/

theorem exec_sockidWrite (s : State) (v : BitVec 6) : exec (.sockidWrite v) s = .next (if s.linkOpen then s.setSocket v else s) := rfl
theorem exec_registerWrite (s : State) (o : Nat) (w : Word) : exec (.registerWrite o w) s =
    .next (if o % 8 = 0 ∧ (s.linkOpen ∨ s.hub.phase = 15) then s.hubWrite o 0xFF w.toNat else s) := rfl

theorem linkOpen_iff (s : State) : s.linkOpen = true ↔ s.hub.phase = 4 ∨ s.hub.phase = 5 := by simp [State.linkOpen]

theorem not_phase15 {s : State} (h : s.linkOpen = true) : s.hub.phase ≠ 15 := by
  rcases (linkOpen_iff s).1 h with e | e <;> rw [e] <;> decide

theorem sockidWrite_free (s : State) (v : BitVec 6) (h : s.linkOpen = true ∧ s.hub.leftOff = false) :
    exec (.sockidWrite v) s = .next (s.modHub (fun h => ({ h with sockid := v, sockSet := true } : Hub).review s.clk.time)) := by
  rw [exec_sockidWrite, if_pos h.1, State.setSocket, if_neg (by simp [h.2])]

theorem sockidWrite_kept (s : State) (v : BitVec 6) (h : ¬ (s.linkOpen = true ∧ s.hub.leftOff = false)) : exec (.sockidWrite v) s = .next s := by
  rw [exec_sockidWrite]
  split
  next ho =>
    rw [State.setSocket, if_pos]
    exact eq_true_of_ne_false (fun n => h ⟨ho, n⟩)
  next => rfl

theorem registerWrite_unaligned (s : State) (w : Word) {o : Nat} (h : o % 8 ≠ 0) : exec (.registerWrite o w) s = .next s := by
  rw [exec_registerWrite, if_neg (fun n => h n.1)]

theorem ofNat_toNat_setWidth (w : Word) (n : Nat) : BitVec.ofNat n w.toNat = w.setWidth n := by
  refine BitVec.eq_of_toNat_eq ?_
  rw [BitVec.toNat_ofNat, BitVec.toNat_setWidth]

theorem hubWrite_sockid {s : State} (w : Word) (h : s.hub.phase ≠ 15) : s.hubWrite 0x200400 0xFF w.toNat = s.setSocket (w.setWidth 6) := by
  unfold State.hubWrite
  rw [if_neg (fun n => h n.1), if_neg (by omega), if_neg (by omega), if_neg (by omega), if_pos rfl, if_pos (by decide), ofNat_toNat_setWidth]

theorem registerWrite_sockid (s : State) (w : Word) : exec (.registerWrite 0x200400 w) s = exec (.sockidWrite (w.setWidth 6)) s := by
  rw [exec_registerWrite, exec_sockidWrite]
  by_cases ho : s.linkOpen = true
  · rw [if_pos ⟨rfl, .inl ho⟩, if_pos ho, hubWrite_sockid w (not_phase15 ho)]
  · rw [if_neg ho]
    split
    next h =>
      have h15 : s.hub.phase = 15 := h.2.resolve_left ho
      exact congrArg Host.Outcome.next (if_pos ⟨h15, by decide⟩)
    next => rfl

theorem registerWrite_arg (s : State) (w : Word) {k : Nat} (h1 : 1 ≤ k) (h2 : k ≤ 14) (ho : s.linkOpen = true) :
    ∃ t, exec (.registerWrite (0x300000 + 8 * k) w) s = .next t ∧
      t = { s with hub := { s.hub with args := t.hub.args } } ∧ ∀ j, Sparse.at 0 t.hub.args j = if j = k then w else Sparse.at 0 s.hub.args j := by
  refine ⟨s.modHub (fun h => { h with args := Sparse.put 0 h.args k w }), ?_, rfl, fun j => Sparse.at_put 0 s.hub.args k j w⟩
  have hword : s.hubWrite (0x300000 + 8 * k) 0xFF w.toNat = s.writeMail k 0xFF w.toNat := by
    unfold State.hubWrite
    rw [if_neg (fun n => not_phase15 ho n.1), if_neg (by omega), if_neg (by omega), if_neg (by omega), if_neg (by omega), if_neg (by omega),
      if_pos (by omega), show (0x300000 + 8 * k - 0x300000) / 8 = k by omega]
  rw [exec_registerWrite, if_pos ⟨by omega, .inl ho⟩, hword, State.writeMail, if_neg (by omega), if_pos h2, BitVec.ofNat_toNat, BitVec.setWidth_eq]

/-! ## What a party that is no strand reaches -/

theorem clusterCaches_wake {a b : ClusterState} (h : ClusterCaches a b) : ClusterCaches a.wake b.wake := by
  have hc : b.curc = a.curc := by rw [h]
  by_cases h0 : a.curc = 0
  · rw [show a.wake = a from if_pos h0, show b.wake = b from if_pos (hc.trans h0)]; exact h
  · rw [show a.wake = { a.settle with curc := 0, changing := a.changing } from if_neg h0,
      show b.wake = { b.settle with curc := 0, changing := b.changing } from if_neg (by rw [hc]; exact h0), h]
    rfl

theorem reached_of_woken {s t u : State} (h : CacheOnly s t) (k : Woken t u) : Reached s u := by
  have hret : ∀ c, (t.core c).retained = (s.core c).retained := fun c => by rw [h.2.1 c]
  refine ⟨fun c => ?_, fun n => ?_⟩
  · rcases k.1 c with e | ⟨hr, e⟩
    · exact ⟨by rw [e, hret]; exact h.2.1 c, .inl (by rw [e, hret])⟩
    · refine ⟨?_, .inr ⟨by rw [← hret]; exact hr, by rw [e]⟩⟩
      rw [e, h.2.1 c]; rfl
  · rcases k.2 n with e | e
    · exact .inl (by rw [e]; exact h.2.2 n)
    · exact .inr (by rw [e]; exact clusterCaches_wake (h.2.2 n))

theorem fieldCell_cacheOnly {s t : State} (h : CacheOnly s t) (e : Host.Cell) : t.fieldCell e = s.fieldCell e := by rw [h.1]; rfl

theorem storedCells_plain {s : State} {l : List Host.Cell} (h : ∀ c ∈ l, s.fieldCell c = some c) : s.storedCells l = l := by
  induction l with
  | nil => rfl
  | cons e l ih =>
    rw [State.storedCells, List.filterMap_cons, h e List.mem_cons_self]
    exact congrArg _ (ih fun c hc => h c (List.mem_cons_of_mem _ hc))

theorem keyFits_of_shared : KeyFits Cred.shared := fun _ h => by cases h

theorem readBytes_eq {m : Mem} {f : Nat} {c : Cred} {addr : Nat} {bs : List Byte} (h : ∀ e ∈ cellsAt addr bs, m.read f c e.1 = e.2) :
    m.readBytes f c addr bs.length = bs := by
  refine List.ext_getElem (by rw [Mem.readBytes, List.length_map, List.length_range]) fun i h1 h2 => ?_
  rw [show (m.readBytes f c addr bs.length)[i] = m.read f c (addr + i) by simp [Mem.readBytes]]
  exact h (addr + i, bs[i]) (mem_cellsAt.2 ⟨i, List.getElem?_eq_getElem h2, rfl⟩)

/-- The host's bytes in plain memory where nobody waits: they are there, and nothing else has changed to a reader (R394). -/
theorem hostStore_facts {s : State} {addr : Nat} {bs : List Byte} (hw : s.waiters = []) (hf : ∀ c ∈ cellsAt addr bs, s.fieldCell c = some c) :
    let stored := s.hostStore addr bs
    stored = { s with mem := stored.mem, caches := stored.caches, cores := stored.cores, clusters := stored.clusters } ∧ Reached s stored ∧
    (∀ f, stored.mem.readBytes f Cred.shared addr bs.length = bs) ∧
    ∀ a, (a < addr ∨ addr + bs.length ≤ a) → s.mem.sight Cred.shared a ≠ .stale → stored.mem.read stored.free Cred.shared a = s.mem.read s.free Cred.shared a := by
  have hc := cacheOnly_siltUses s Cred.shared true (linesOf (cellsAt addr bs))
  obtain ⟨t, hh, hwk, -, he⟩ := store_of_no_waiters (s := s.siltUses Cred.shared true (linesOf (cellsAt addr bs))) (by rw [hc.1]; exact hw)
    Cred.shared (cellsAt addr bs)
  rw [storedCells_plain (fun c hm => by rw [fieldCell_cacheOnly hc]; exact hf c hm), cacheOnly_mem hc, cacheOnly_free hc] at he
  intro stored
  have hst : stored = { t with mem := s.mem.write s.free Cred.shared (cellsAt addr bs) } := he
  have hmem : stored.mem = s.mem.write s.free Cred.shared (cellsAt addr bs) := by rw [hst]
  have hframe : stored = { s with mem := stored.mem, caches := stored.caches, cores := stored.cores, clusters := stored.clusters } := by
    rw [hst, hh, hc.1]
  refine ⟨hframe, ?_, fun f => ?_, fun a ha hs => ?_⟩
  · rw [hst]; exact reached_of_woken hc hwk
  · rw [hmem]
    exact readBytes_eq fun e hm => (write_written keyFits_of_shared s.free s.mem (functional_cellsAt addr bs) hm f).1
  · rw [hmem, show stored.free = s.free by rw [hframe]]
    refine write_read_other keyFits_of_shared s.free s.mem (fun e hm => ?_) hs
    obtain ⟨i, hi, hx⟩ := mem_cellsAt.1 hm
    have := (List.getElem?_eq_some_iff.1 hi).1
    omega

/-! ## A store leaves the hub -/

theorem foldl_hub {α : Type} {f : State → α → State} (k : ∀ s a, (f s a).hub = s.hub) (l : List α) (s : State) : (l.foldl f s).hub = s.hub := by
  induction l generalizing s with
  | nil => rfl
  | cons a l ih => rw [List.foldl_cons, ih, k]

theorem serve_hub (s : State) (w : Waiter) : (s.serve w).hub = s.hub := by
  unfold State.serve
  split
  · dsimp only [State.modStrand_hub]
    split
    · rfl
    · rw [soil_frame]
  · rfl

theorem feRound_hub (n : Nat) (locs : List Nat) (s : State) : (s.feRound n locs).hub = s.hub := by
  induction n generalizing s with
  | zero => rfl
  | succ n ih =>
    unfold State.feRound
    split
    · rfl
    · rw [ih, serve_hub]

theorem roundsAt_hub (s : State) (locs : List Nat) : (s.roundsAt locs).hub = s.hub := by
  refine (feRound_hub _ _ _).trans ?_
  unfold State.follow
  exact foldl_hub (fun _ _ => State.modStrand_hub _ _ _) _ _

theorem hostStore_hub (s : State) (addr : Nat) (bs : List Byte) : (s.hostStore addr bs).hub = s.hub := by
  refine (roundsAt_hub _ _).trans ?_
  change ((linesOf _).foldl State.reachLine _).hub = s.hub
  rw [(reachLines_homes _ _).1, (cacheOnly_siltUses s Cred.shared true _).1]

/-! ## Host writes (R341, R394) -/

theorem exec_hostPostedWrite (s : State) (addr : Nat) (bs : List Byte) (b : Bool) :
    exec (.hostPostedWrite addr bs b) s = execHostPostedWrite addr bs b s := rfl

/-- What a host write of doublewords places for machine level: nothing once a BUILD has been accepted (assumption 4). -/
theorem placeTables_facts (l : List (Nat × Word)) (s : State) : ∃ t, l.foldl (fun s e => s.placeTables e.1 e.2) s = t ∧
    t = { s with clusters := t.clusters, urgentTable := t.urgentTable, partitions := t.partitions } ∧ (s.hub.built = true → t = s) := by
  induction l generalizing s with
  | nil => exact ⟨s, rfl, rfl, fun _ => rfl⟩
  | cons e l ih =>
    have hstep : s.placeTables e.1 e.2 = { s with
        clusters := (s.placeTables e.1 e.2).clusters, urgentTable := (s.placeTables e.1 e.2).urgentTable, partitions := (s.placeTables e.1 e.2).partitions } := by
      unfold State.placeTables
      split
      · rfl
      · rcases Config.chainWrite e.1 e.2 with _ | ⟨_, _⟩ <;> rcases Config.urgentWrite e.1 e.2 with _ | ⟨_, _⟩ <;>
          rcases Config.partitionWrite e.1 e.2 with _ | ⟨_, _⟩ <;> rfl
    obtain ⟨t, h1, h2, h3⟩ := ih (s.placeTables e.1 e.2)
    refine ⟨t, h1, by rw [h2, hstep], fun hb => ?_⟩
    have he : s.placeTables e.1 e.2 = s := if_pos hb
    rw [he] at h3
    exact h3 hb

section write
variable {s : State} {addr : Nat} {bs : List Byte} (b : Bool)

theorem hostWrite_dram (h : addr + bs.length ≤ Config.dramEnd) : exec (.hostPostedWrite addr bs b) s =
    .next (if s.linkOpen && !s.writeHeld Cred.shared (cellsAt addr bs) then
      (wordsIn addr bs).foldl (fun s e => s.placeTables e.1 e.2) (s.hostStore addr bs) else s) := by
  have h' : addr + bs.length ≤ 0x9000000000 := h
  rw [exec_hostPostedWrite]
  refine (if_neg fun n => ?_).trans (if_pos h)
  have : 0x7000000000000 ≤ addr := n.1
  omega

theorem hostWrite_held (h : addr + bs.length ≤ Config.dramEnd)
    (hn : ¬ (s.hub.phase = 4 ∨ s.hub.phase = 5) ∨ s.writeHeld Cred.shared (cellsAt addr bs) = true) :
    exec (.hostPostedWrite addr bs b) s = .next s := by
  rw [hostWrite_dram b h, if_neg]
  rw [← linkOpen_iff] at hn
  rcases hn with hn | hn <;> simp [hn]

theorem hostWrite_entered (h : addr + bs.length ≤ Config.dramEnd) (ho : s.hub.phase = 4 ∨ s.hub.phase = 5)
    (hn : s.writeHeld Cred.shared (cellsAt addr bs) = false) :
    ∃ t, exec (.hostPostedWrite addr bs b) s = .next t ∧
      t = { s.hostStore addr bs with clusters := t.clusters, urgentTable := t.urgentTable, partitions := t.partitions } ∧
      (s.hub.built = true → t = s.hostStore addr bs) := by
  obtain ⟨t, h1, h2, h3⟩ := placeTables_facts (wordsIn addr bs) (s.hostStore addr bs)
  refine ⟨t, ?_, h2, fun hb => h3 (by rw [hostStore_hub]; exact hb)⟩
  rw [hostWrite_dram b h, if_pos (by rw [(linkOpen_iff s).2 ho, hn]; rfl), h1]

theorem hostWrite_hostMemory (h1 : Config.hostBase ≤ addr) (h2 : addr + bs.length ≤ Config.physEnd) :
    exec (.hostPostedWrite addr bs b) s = .next (s.hostStore addr bs) := by
  have h1' : 0x8000000000000 ≤ addr := h1
  rw [exec_hostPostedWrite]
  refine ((if_neg fun n => ?_).trans (if_neg fun n => ?_)).trans (if_pos ⟨h1, h2⟩)
  · have : addr + bs.length ≤ 0x7000100000000 := n.2
    omega
  · have : addr + bs.length ≤ 0x9000000000 := n
    omega

theorem leNat_lt (bs : List Byte) : leNat bs < 2 ^ (8 * bs.length) := by
  induction bs with
  | nil => simp [leNat]
  | cons x bs ih =>
    have hx := x.isLt
    rw [leNat, List.length_cons, show 8 * (bs.length + 1) = 8 + 8 * bs.length by omega, Nat.pow_add]
    omega

theorem hubStore_doubleword {s : State} {addr : Nat} {bs : List Byte} (h1 : Config.hubBase ≤ addr) (ha : addr % 8 = 0) (hl : bs.length = 8) :
    s.hubStore addr bs = s.hubWrite (addr - Config.hubBase) 0xFF (leNat bs) := by
  have h1' : 0x7000000000000 ≤ addr := h1
  have hoff : alignDown (addr - Config.hubBase) 8 = addr - Config.hubBase := by
    change (addr - 0x7000000000000) / 8 * 8 = addr - 0x7000000000000
    omega
  have hn : Nat.min bs.length (8 - 0) = 8 := by rw [hl]; rfl
  have hold : ∀ w : Word, w.toNat - bitsAt w.toNat (8 * 0) (8 * 8) * 2 ^ (8 * 0) + leNat bs * 2 ^ (8 * 0) = leNat bs := fun w => by
    have hw := w.isLt
    have : bitsAt w.toNat (8 * 0) (8 * 8) = w.toNat := by simp only [bitsAt]; omega
    rw [this]; omega
  unfold State.hubStore
  dsimp only
  rw [hoff, ha, hn, List.take_of_length_le (by omega), hold, show (2 ^ 8 - 1) * 2 ^ 0 = 0xFF from rfl]

theorem hostWrite_hub (h1 : Config.hubBase ≤ addr) (h2 : addr + 8 ≤ Config.hubEnd) (ha : addr % 8 = 0) (hl : bs.length = 8)
    (ho : (s.hub.phase = 4 ∨ s.hub.phase = 5) ∨ s.hub.phase = 15) : exec (.hostPostedWrite addr bs b) s =
      exec (.registerWrite (addr - Config.hubBase) (BitVec.ofNat 64 (leNat bs))) s := by
  have h1' : 0x7000000000000 ≤ addr := h1
  have halign : (addr - Config.hubBase) % 8 = 0 := by
    change (addr - 0x7000000000000) % 8 = 0
    omega
  have hlt : leNat bs < 2 ^ 64 := by have := leNat_lt bs; rwa [hl] at this
  have hstores : s.hubStores bs.length addr bs = s.hubStore addr bs := by
    have hne : bs.isEmpty = false := by rw [List.isEmpty_eq_false_iff]; rintro rfl; cases hl
    rw [hl, State.hubStores, hne, if_neg Bool.false_ne_true]
    dsimp only
    rw [ha, hl, show List.drop (Nat.min 8 (8 - 0)) bs = [] from List.drop_eq_nil_of_le (by rw [hl]; exact Nat.le_refl 8)]
    simp only [State.hubStores, List.isEmpty_nil, if_true]
  rw [← linkOpen_iff] at ho
  rw [exec_hostPostedWrite, exec_registerWrite, if_pos ⟨halign, ho⟩]
  refine (if_pos ⟨h1, by rw [hl]; exact h2⟩).trans ?_
  rw [if_pos (by rcases ho with ho | ho <;> simp [ho]), hstores, hubStore_doubleword h1 ha hl, BitVec.toNat_ofNat, Nat.mod_eq_of_lt hlt]

end write

/-! ## Host reads (R394) -/

theorem exec_hostRead (s : State) (addr n : Nat) : exec (.hostRead addr n) s = execHostRead addr n s := rfl

/-- Bytes go to the host. -/
def State.handOut (s : State) (l : List Byte) : State := { s with free := s.free + 1, hub := { s.hub with hostOut := s.hub.hostOut ++ [l] } }

section read
variable {s : State} {addr n : Nat}

theorem hostRead_held (h : addr + n ≤ Config.dramEnd) (hn : ¬ (s.hub.phase = 4 ∨ s.hub.phase = 5) ∨
    s.anyHeld Cred.shared false (linesOf (cellsAt addr (List.replicate n 0))) = true) : exec (.hostRead addr n) s = .next s := by
  rw [exec_hostRead]
  refine (if_pos h).trans (if_pos ?_)
  rw [← linkOpen_iff] at hn
  rcases hn with hn | hn
  · rw [Bool.eq_false_iff.2 hn]; rfl
  · rw [hn, Bool.or_true]

theorem hostRead_dram (h : addr + n ≤ Config.dramEnd) (ho : s.hub.phase = 4 ∨ s.hub.phase = 5)
    (hn : s.anyHeld Cred.shared false (linesOf (cellsAt addr (List.replicate n 0))) = false) :
    ∃ t, exec (.hostRead addr n) s = .next t ∧ Reached s t ∧
      t = { s.handOut (s.mem.readBytes s.free Cred.shared addr n) with caches := t.caches, cores := t.cores, clusters := t.clusters } := by
  have hc := cacheOnly_siltUses { s with free := s.free + 1 } Cred.shared false (linesOf (cellsAt addr (List.replicate n 0)))
  have hstep : exec (.hostRead addr n) s = .next ((({ s with free := s.free + 1 }).siltUses Cred.shared false
      (linesOf (cellsAt addr (List.replicate n 0)))).modHub (fun h => { h with hostOut := h.hostOut ++ [s.mem.readBytes s.free Cred.shared addr n] })) := by
    rw [exec_hostRead]
    exact (if_pos h).trans (if_neg (by rw [(linkOpen_iff s).2 ho, hn]; exact Bool.false_ne_true))
  have hr := reached_of_woken hc (woken_refl _)
  refine ⟨_, hstep, hr, ?_⟩
  rw [hc.1]; rfl

theorem hostRead_hub (h1 : Config.hubBase ≤ addr) (h2 : addr + n ≤ Config.hubEnd) (ho : (s.hub.phase = 4 ∨ s.hub.phase = 5) ∨ s.hub.phase = 15) :
    exec (.hostRead addr n) s = .next (s.handOut (s.hubBytes addr n)) := by
  have h1' : 0x7000000000000 ≤ addr := h1
  rw [← linkOpen_iff] at ho
  rw [exec_hostRead]
  refine ((if_neg fun k => ?_).trans (if_pos ⟨h1, h2⟩)).trans ?_
  · have : addr + n ≤ 0x9000000000 := k
    omega
  · rw [if_pos (by rcases ho with ho | ho <;> simp [ho])]; rfl

end read

/-! ## Fields of control blocks and fault queues (R5, R292, R301) -/

theorem clear_low_bit (old : Byte) : BitVec.ofNat 8 (putBits (BitVec.setWidth 64 old) 0 1 0).toNat = old &&& 0xFE := by
  refine BitVec.eq_of_getLsbD_eq fun i hi => ?_
  have hmask : (0xFE : Byte).getLsbD i = decide (i ≠ 0) := (show ∀ i < 8, (0xFE : Byte).getLsbD i = decide (i ≠ 0) by decide) i hi
  rw [ofNat_toNat_setWidth, BitVec.getLsbD_setWidth, getLsbD_putBits, BitVec.getLsbD_and, hmask, BitVec.getLsbD_setWidth]
  by_cases h0 : i = 0
  · subst h0; simp
  · rw [if_neg (by omega)]
    simp [hi, h0, show i < 64 by omega]

theorem fieldByte_facts (k : Queue) (old new : Byte) :
    (∀ o, o < 4 ∨ (8 ≤ o ∧ o < 16) ∨ 32 ≤ o → k.fieldByte o old new = some new) ∧
    (∀ o, 4 ≤ o → o < 8 → k.fieldByte o old new = if k.st = .halted then some new else none) ∧
    (∀ o, 16 ≤ o → o < 32 → o ≠ 18 → k.fieldByte o old new = none) ∧
    k.fieldByte 18 old new = some (if new.getLsbD 0 then old &&& 0xFE else old) := by
  refine ⟨fun o h => ?_, fun o h1 h2 => ?_, fun o h1 h2 h3 => ?_, ?_⟩ <;> unfold Queue.fieldByte
  · rcases h with h | h | h
    · rw [if_pos h]
    · rw [if_neg (by omega), if_neg (by omega), if_pos h.2]
    · rw [if_neg (by omega), if_neg (by omega), if_neg (by omega), if_neg (by omega), if_neg (by omega)]
  · rw [if_neg (by omega), if_pos h2]
    simp only [beq_iff_eq]
  · rw [if_neg (by omega), if_neg (by omega), if_neg (by omega), if_neg h3, if_pos h2]
  · rw [if_neg (by omega), if_neg (by omega), if_neg (by omega), if_pos rfl, bitAt_toNat, clear_low_bit]

theorem fieldCell_fq {s : State} {x : Nat} {c : Context} {o : Nat} (b : Byte) (hq : s.queues = []) (hc : s.contexts = [(x, c)])
    (hp : c.pageable = true) (hs : c.st ≠ .halted) (ho : o < 64 + 32 * c.fqSize) :
    s.fieldCell (c.fqPlace + o, b) = if (8 ≤ o ∧ o < 64) ∨ (64 ≤ o ∧ (o - 64) % 32 = 18) then some (c.fqPlace + o, b) else none := by
  have hend : c.fqPlace + o < c.fqEntry c.fqSize := by unfold Context.fqEntry; omega
  have hin : c.fqHolds (c.fqPlace + o) = true := by
    simp only [Context.fqHolds, hp, Bool.true_and, Bool.and_eq_true, bne_iff_ne, decide_eq_true_eq]
    exact ⟨⟨hs, Nat.le_add_right _ _⟩, hend⟩
  have hwr : fqWritable (c.fqPlace + o - c.fqPlace) = true ↔ (8 ≤ o ∧ o < 64) ∨ (64 ≤ o ∧ (o - 64) % 32 = 18) := by
    simp only [fqWritable, Nat.add_sub_cancel_left, Bool.or_eq_true, Bool.and_eq_true, decide_eq_true_eq]
  simp only [State.fieldCell, hq, hc, List.find?_nil, List.find?_cons, hin, hwr]

theorem ptpMessage_clamped (s : State) (v : Int) : exec (.ptpMessage v) s = .next { s with clk := { s.clk with slew := max (-100) (min 100 v) } } := by
  have hv : (if v < -100 then -100 else if 100 < v then 100 else v) = max (-100) (min 100 v) := by
    split
    · omega
    · split <;> omega
  rw [← hv]; rfl

end Sys2Proof.Machine
end

section
/-! PROOF. The statement about links, from the lemmas about ports, flits, registers and the host link. -/

namespace Sys2Proof.Machine

open Sys2Proof.Safety

/-- Settles O54: a change of a port is `putPort` or `Moved` (`setPort_put`, `moved_setPort`), a flit goes by `takeFlit` and `sendFlit`, and a
host write is a write of memory under the shared key (`hostStore_facts`) or of one register. -/
theorem linkEvents : Obligations.LinkEvents := by
  intro s p q now put moved training down retrained
  refine ⟨fun h => ⟨rfl, review_leftOff h now, review_lost h now, review_reachable now, review_cut now, unreachable_iff h⟩,
    fun h b => dpctl_of_closed h b, fun hp n f l i hi => ?outside, fun hp ho => ⟨?_, ?_, ?_, ?_, ?_, ?_⟩, fun hp => ?port,
    fun v w o => ⟨sockidWrite_free s v, sockidWrite_kept s v, registerWrite_unaligned s w, registerWrite_sockid s w,
      fun k h1 h2 ho => registerWrite_arg s w h1 h2 ho⟩,
    fun addr bs b n => ⟨hostStore_facts, fun h => ⟨hostWrite_held b h, hostWrite_entered b h⟩, hostWrite_hostMemory b,
      fun h1 h2 h3 h4 h5 => hostWrite_hub b h1 h2 h3 h4 h5, fun h => ⟨hostRead_dram h, hostRead_held h⟩, fun h1 h2 h3 => hostRead_hub h1 h2 h3⟩,
    fieldByte_facts, fun x c o b hq hc hp hs ho => fieldCell_fq b hq hc hp hs ho, ptpMessage_clamped s⟩
  case outside =>
    simp only [List.mem_cons, List.not_mem_nil, or_false] at hi
    rcases hi with rfl | rfl | rfl | rfl | rfl | rfl
    · exact peerDetected_other n (.inl hp)
    · exact portTrained_other l (.inl hp)
    · exact trainingTimeout_other (.inl hp)
    · exact laneFailure_other (.inl hp)
    · exact fenceTimeout_none (.inl hp)
    · exact receive_none (.inl hp)
  case port =>
    refine ⟨fun n => ⟨peerDetected_detect hp n, fun h => peerDetected_other n (.inr h)⟩,
      fun l => ⟨fun h => portTrained_other l (.inr h), fun ht h => portTrained_down hp ht l h⟩, fun ht hn => ?_,
      fun ht h => trainingTimeout_down hp ht h, fun h => trainingTimeout_other (.inr h), laneFailure_up hp, fun h => laneFailure_other (.inr h),
      fun cut hc hd h1 h2 => fenceTimeout_facts hp hc hd h1 h2, fun h => fenceTimeout_none (.inr h), fun f hf => ?_, fun f hf => receive_none (.inr (.inr hf))⟩
    · obtain ⟨all, allLate⟩ := portTrained_up hp ht hn (.head _)
      obtain ⟨low, lowLate⟩ := portTrained_up hp ht hn (.tail _ (.head _))
      obtain ⟨high, highLate⟩ := portTrained_up hp ht hn (.tail _ (.tail _ (.head _)))
      exact ⟨all, allLate, fun h => ⟨low h, high h⟩, fun h => ⟨lowLate h, highLate h⟩⟩
    · intro route taken
      refine ⟨fun hu => receive_none (.inr (.inl hu)), fun hu hc => ⟨receive_bad hp hu hf hc, receive_eighth_bad hp hu hf hc⟩,
        fun hu => receive_again hp hu hf, fun hu hc hq => ?_⟩
      have step := receive_next hp hu hf hc hq
      refine ⟨fun h => step.trans (congrArg Host.Outcome.next (takeFlit_own h)), fun h hd => step.trans (congrArg Host.Outcome.next (takeFlit_dropped h hd)),
        fun h1 h2 h3 h4 => ?_⟩
      have forwarded := step.trans (congrArg Host.Outcome.next (takeFlit_forwarded (s := taken) h1 h2 h3 h4))
      refine ⟨fun hup => forwarded.trans (congrArg Host.Outcome.next (sendFlit_held (s := taken) (f := { f with hops := f.hops + 1 }) hup)), fun hup => ?_⟩
      obtain ⟨j, hj, hr, hju, e⟩ := sendFlit_sent (s := taken) (f := { f with hops := f.hops + 1 }) hup
      exact ⟨j, _, _, hj, hr, rfl, hju, rfl, forwarded.trans (congrArg Host.Outcome.next e)⟩
  · exact enable_detects hp ho
  · exact enable_kept hp ho
  · exact disable_kept hp ho
  · exact disable_down hp ho
  · exact reset_off hp ho
  · exact reset_none hp ho

end Sys2Proof.Machine
end

section
/-! PROOF. The refutation of the statement about memory events: a dirty line whose write-back is held keeps its way (R324, R327, R330). -/

namespace Sys2Proof.Machine

/-! ## Lines that cannot leave their slice (R327, R330) -/

/-- A dirty line for which the write-back buffer has no room stays in its slice. -/
theorem evictLine_held {s : State} {line : Nat} (hd : s.caches.lineDirty line = true) (hr : s.wbackRoom line = false) :
    s.evictLine line = s :=
  if_pos (by rw [hd, hr]; rfl)

/-- Where every line of the slices is held so, reserving ways takes no line away (R324). -/
theorem trimSilt_held {s : State} (h : ∀ e ∈ s.caches.silt, s.caches.lineDirty e.1 = true ∧ s.wbackRoom e.1 = false) : s.trimSilt = s := by
  refine List.foldlRecOn _ _ (motive := (· = s)) rfl fun t ht e he => ?_
  obtain ⟨hd, hr⟩ := h e (List.mem_filter.1 he).1
  rw [ht]
  exact evictLine_held hd hr

theorem exec_memcfgShways (s : State) (w : BitVec 2) : exec (.memcfgShways w) s = .next (if s.memcfgOpen then s.setShways w else s) := rfl

theorem memcfgShways_open {s : State} (w : BitVec 2) (ho : 3 ≤ s.hub.phase.toNat ∧ s.hub.phase.toNat ≤ 5) (hb : s.hub.built = false) :
    exec (.memcfgShways w) s = .next (s.modHub (fun h => { h with shways := w })).trimSilt := by
  have hopen : s.memcfgOpen = true := by simp [State.memcfgOpen, ho]
  rw [exec_memcfgShways, if_pos hopen, State.setShways, hb, if_neg Bool.false_ne_true]

/-! ## The counterexample -/

/-- Lines 96 · 4,096 apart share slice 0 and its set 0 while every die is pooled (R325, R328). -/
def setZeroLine (k : Nat) : Nat := 0x60000 * k

/-- Before the first BUILD, stack 0 is quiesced by a ratio change, the write-back buffer of slice 0 has its 32 entries, and nine ways of
set 0 of the slice hold dirty lines. -/
def heldWays : State :=
  { State.reset with
    hub := { State.reset.hub with phase := 4, busy := 1, ratioAt := [(0, 0)] }
    caches := { State.reset.caches with
      silt := (List.range 9).map fun k => (setZeroLine k, { slot := 1023, prio := 2, used := k })
      uses := 9
      dirty := (List.range 9).map fun k => (setZeroLine k, { held := { bytes := [], empty := [] }, live := true })
      wback := (List.range 32).map fun k => { line := k + 1, held := { bytes := [], empty := [] }, again := false } } }

/-- Refutes O53: a write of SHWAYS = 11 leaves eight ways, but in `heldWays` the ninth line of its set is dirty, its stack is quiesced and the
write-back buffer of its slice is full, so the line can go nowhere (R327 holds the write-back and loses nothing) and stays, although eight
lines of its set stand before it. -/
theorem not_memoryEvents : ¬ Obligations.MemoryEvents := by
  intro h
  obtain ⟨hmemcfg, -⟩ := h heldWays 0
  obtain ⟨-, -, -, hwrite, -⟩ := hmemcfg 0 0 0 3
  have hopen : 3 ≤ heldWays.hub.phase.toNat ∧ heldWays.hub.phase.toNat ≤ 5 := by decide
  obtain ⟨-, t, hstep, -, hlines⟩ := hwrite hopen rfl
  have hheld : (heldWays.modHub (fun h => { h with shways := 3 })).trimSilt = heldWays.modHub (fun h => { h with shways := 3 }) :=
    trimSilt_held (by decide)
  rw [memcfgShways_open 3 hopen rfl, hheld] at hstep
  cases hstep
  have hstays : (setZeroLine 8, ({ slot := 1023, prio := 2, used := 8 } : SiltLine)) ∈ heldWays.caches.silt := by decide
  have hfew := ((hlines _).1 hstays).2
  exact absurd hfew (by decide)

end Sys2Proof.Machine
end

section
/-! PROOF. The statement about range fences (R165-R169, R223). -/

namespace Sys2Proof.Machine

open Sys2Proof.Safety

/-! ## The retirement of a fence (R167, R168) -/

/-- The copies that a fence waits for are those of the strand that are counted in a slot meeting an item. -/
theorem mem_fenceSet (u : State) (items : List (Nat × Nat)) (k : Nat) :
    k ∈ u.fenceSet items ↔ ∃ c, (k, c) ∈ u.copies ∧ c.uid = u.me.uid ∧ ∃ i ∈ c.slots, ∃ r, u.me.slots.get? i = some r ∧
      ∃ e ∈ items, rangesMeet u.cur.core r.lo r.hi e.1 e.2 = true := by
  simp only [State.fenceSet, List.mem_map, List.mem_filter, Bool.and_eq_true, beq_iff_eq, List.any_eq_true]
  constructor
  · rintro ⟨⟨_, c⟩, ⟨hm, hu, i, hi, hit⟩, rfl⟩
    refine ⟨c, hm, hu, i, hi, ?_⟩
    split at hit
    next r hr => exact ⟨r, hr, List.any_eq_true.1 hit⟩
    next => cases hit
  · rintro ⟨c, hm, hu, i, hi, r, hr, hit⟩
    exact ⟨(k, c), ⟨hm, hu, i, hi, by simpa only [hr, List.any_eq_true] using hit⟩, rfl⟩

/-- A fence over some items has retired: it waits for the copies counted in slots that meet an item with bytes, or, where there are none,
bars its items from what has been fetched. -/
def FenceRetired (u t : State) (given : List (Nat × Nat)) : Prop :=
  ∃ w items, items = given.filter (fun e => decide (e.1 < e.2)) ∧
    (∀ k, k ∈ w ↔ ∃ c, (k, c) ∈ u.copies ∧ c.uid = u.me.uid ∧ ∃ i ∈ c.slots, ∃ r, u.me.slots.get? i = some r ∧
      ∃ e ∈ items, rangesMeet u.cur.core r.lo r.hi e.1 e.2 = true) ∧
    Local u t ∧ t.core u.cur.core = u.core u.cur.core ∧
    (w ≠ [] → t.me = spentAt { u.me with fences := u.me.fences ++ [{ items := items, waits := w }] } (u.me.pc + 4)) ∧
    (w = [] → t.me = { spentAt u.me (u.me.pc + 4) with
      fetched := u.me.fetched.map (fun l => (l.1, { l.2 with barred := l.2.barred ++ items })) })

theorem me_retire (s : State) : s.retire.me = spentAt s.me (s.me.pc + 4) := (went_retireTo s _).2.1

theorem retireFence_retired (u : State) (given : List (Nat × Nat)) : FenceRetired u (u.retireFence given) given := by
  unfold State.retireFence
  dsimp only
  refine ⟨u.fenceSet (given.filter (fun e => decide (e.1 < e.2))), _, rfl, mem_fenceSet u _,
    local_trans (local_modMe u _) (went_retireTo _ _).1, rfl, fun hw => ?_, fun hw => ?_⟩
  · rw [me_retire, State.me_modMe, if_neg (by simpa using hw)]
  · rw [me_retire, State.me_modMe, if_pos (by simpa using hw)]
    rfl

/-! ## Fences that wait (R167) -/

theorem unlessFour_full {s : State} {f : Fence} {rest : List Fence} (hf : s.me.fences = f :: rest) (hr : 3 ≤ rest.length) (work : Run) :
    s.unlessFour work = .ok (s.setStrand s.cur { s.me with fences := { f with blocks := true } :: rest }) := by
  have hlen : 4 ≤ s.me.fences.length := by rw [hf, List.length_cons]; omega
  rw [State.unlessFour, if_pos hlen, State.modMe, State.modStrand]
  simp only [Strand.blockFence, show (s.strand s.cur).fences = f :: rest from hf]
  rfl

theorem unlessFour_blocked {s : State} (hl : s.me.fences.length < 4) (hb : ∃ f ∈ s.me.fences, f.blocks = true) (work : Run) :
    s.unlessFour work = .ok s := by
  rw [State.unlessFour, if_neg (by omega), if_pos (List.any_eq_true.2 hb)]

theorem unlessFour_free {s : State} (hl : s.me.fences.length < 4) (hb : ∀ f ∈ s.me.fences, f.blocks = false) (work : Run) :
    s.unlessFour work = work := by
  rw [State.unlessFour, if_neg (by omega), if_neg (by simpa using hb)]

theorem unlessHeld_of_unheldAll {s : State} {ranges : List (Nat × Nat)} (h : UnheldAll s ranges) (work : Run) :
    s.unlessHeld ranges work = work := by
  rw [State.unlessHeld, if_neg (by simpa [UnheldAll] using h)]

/-! ## The words -/

/-- What a fence word does with fewer than four fences pending (R223). -/
def State.fenceWork (s : State) (i : Instr) : Run :=
  match i with
  | .fenceR d a => .ok (s.retireFence [((s.x d).toNat, Nat.min ((s.x d).toNat + (s.x a).toNat) (2 ^ 64))])
  | .fenceH a n => s.unlessHeld (s.refreshReads (s.x a) n.toNat)
      (match s.refresh (s.x a) 0 n.toNat with
       | .error e => .error e
       | .ok (items, t) => .ok (t.retireFence items))
  | .fenceL a n => s.unlessHeld [((s.x a).toNat, (s.x a).toNat + 16 * n.toNat)]
      (match s.readSpan (s.x a).toNat (16 * n.toNat) 8 with
       | .error e => .error e
       | .ok (bs, t) => .ok (t.retireFence ((List.range n.toNat).map (fun k =>
           (leNat ((bs.drop (16 * k)).take 8), leNat ((bs.drop (16 * k + 8)).take 8))))))
  | _ => .ok s

theorem exec_fenceR (d a : IntReg) (s : State) : exec (.fenceR d a) s = execFenceR d a s := rfl
theorem exec_fenceH (a : IntReg) (n : BitVec 3) (s : State) : exec (.fenceH a n) s = execFenceH a n s := rfl
theorem exec_fenceL (a : IntReg) (n : BitVec 3) (s : State) : exec (.fenceL a n) s = execFenceL a n s := rfl

theorem exec_fence {s : State} (d a : IntReg) (n : BitVec 3) (hs : Ready s plain false) {i : Instr}
    (hi : i ∈ [Instr.fenceR d a, Instr.fenceH a n, Instr.fenceL a n]) : exec i s = finish s (s.unlessFour (s.fenceWork i)) := by
  simp only [List.mem_cons, List.not_mem_nil, or_false] at hi
  rcases hi with rfl | rfl | rfl
  · rw [exec_fenceR, execFenceR, word_of_ready hs]; rfl
  · rw [exec_fenceH, execFenceH, word_of_ready hs]; rfl
  · rw [exec_fenceL, execFenceL, word_of_ready hs]; rfl

theorem exec_fenceSatisfied (s : State) (sid : StrandId) (i : Nat) : exec (.fenceSatisfied sid i) s = execFenceSatisfied sid i s := rfl

theorem exec_fenceSatisfied_done {s : State} {sid : StrandId} {i : Nat} {f : Fence} (hf : (s.strand sid).fences[i]? = some f)
    (hw : f.waits = []) :
    exec (.fenceSatisfied sid i) s =
      .next (s.modStrand sid (fun t => { (t.freshen f.items) with fences := t.fences.take i ++ t.fences.drop (i + 1) })) := by
  simp [exec_fenceSatisfied, execFenceSatisfied, hf, hw, spliceAt]

/-- Settles O36: a word that no fence holds up is a `retireFence`, and what that leaves is `FenceRetired`. -/
theorem rangeFences : Obligations.RangeFences := by
  intro s d a n hs
  have hR : Instr.fenceR d a ∈ [Instr.fenceR d a, Instr.fenceH a n, Instr.fenceL a n] := by simp
  have hH : Instr.fenceH a n ∈ [Instr.fenceR d a, Instr.fenceH a n, Instr.fenceL a n] := by simp
  have hL : Instr.fenceL a n ∈ [Instr.fenceR d a, Instr.fenceH a n, Instr.fenceL a n] := by simp
  refine ⟨fun i hi => ⟨fun f rest hf hr => ?_, fun hl hb => ?_⟩, fun hl hb => ⟨?_, fun hu items u hr => ?_, fun hu bs u hr => ?_⟩,
    fun sid i f hf hw => ?_⟩
  · rw [exec_fence d a n hs hi, unlessFour_full hf hr, finish_ok]
  · rw [exec_fence d a n hs hi, unlessFour_blocked hl hb, finish_ok]
  · refine ⟨_, ?_, retireFence_retired s _⟩
    rw [exec_fence d a n hs hR, unlessFour_free hl hb]
    rfl
  · refine ⟨_, ?_, retireFence_retired u items⟩
    rw [exec_fence d a n hs hH, unlessFour_free hl hb, State.fenceWork, unlessHeld_of_unheldAll hu, hr]
    rfl
  · refine ⟨_, ?_, retireFence_retired u _⟩
    have hu' : UnheldAll s [((s.x a).toNat, (s.x a).toNat + 16 * n.toNat)] := by simpa [UnheldAll, Unheld] using hu
    rw [exec_fence d a n hs hL, unlessFour_free hl hb, State.fenceWork, unlessHeld_of_unheldAll hu', hr]
    rfl
  · exact ⟨_, exec_fenceSatisfied_done hf hw, rfl, fun j hj => by simp [hj], by simp [Strand.freshen]⟩

end Sys2Proof.Machine
end

section
/-! PROOF. What the accesses of a copy change, and what a write of one leaves (R161-R163, R212). -/

namespace Sys2Proof.Machine

open Sys2Proof.Safety

/-! ## Places of a copy's accesses change caches alone -/

/-- A walk for a party that is no strand changes caches alone: there is no store buffer to drain (R285). -/
theorem cacheOnly_locateIn_none {s t : State} {core : Nat} {asid : Option Nat} {c : Cred} {user : Bool} {va : Nat} {kind : Access} {hidden : Bool}
    {p : Place} (h : s.locateIn none core asid c user va kind hidden = .ok (p, t)) : CacheOnly s t := by
  rcases cacheOnly_locateIn h with h | ⟨u, h1, h2⟩
  · exact h
  · exact cacheOnly_trans h1 h2

theorem cacheOnly_copyReach {s t : State} {c : Copy} {va : Nat} {kind : Access} {hidden : Bool} {may : Nat → Bool} {p : Place}
    (h : s.copyReach c va kind hidden may = .ok (p, t)) : CacheOnly s t := by
  unfold State.copyReach at h
  split at h
  · cases h
  · cases h; exact cacheOnly_refl s
  · cases h
  · split at h
    · split at h <;> cases h
      exact cacheOnly_refl s
    · exact cacheOnly_locateIn_none h

theorem cacheOnly_spanRead {s t : State} {c : Copy} {va n : Nat} {p : Place} (h : s.spanRead c va n = .ok (p, t)) : CacheOnly s t := by
  unfold State.spanRead at h
  split at h
  · cases h
  next q s' hq =>
    split at h <;> cases h
    exact cacheOnly_copyReach hq

theorem cacheOnly_pieceWrite {s t : State} {c : Copy} {dst : Nat} {p : Place} (h : s.pieceWrite c dst = .ok (p, t)) : CacheOnly s t := by
  unfold State.pieceWrite at h
  split at h
  · cases h
  next q s' hq =>
    split at h <;> cases h
    exact cacheOnly_copyReach hq

theorem cacheOnly_afterFault (s : State) (core : Nat) (e : Trap) : CacheOnly s (s.afterFault core e) := by
  rcases hc : e.caches with _ | c <;> rcases hd : e.drop with _ | va <;> simp only [State.afterFault, hc, hd]
  · exact cacheOnly_refl s
  · exact cacheOnly_dropTlb s core va
  · exact cacheOnly_caches s c
  · exact cacheOnly_trans (cacheOnly_caches s c) (cacheOnly_dropTlb _ core va)

theorem cacheOnly_flipLeaf {s t : State} {c : Copy} {asid va : Nat} {e : TlbEntry} (h : s.flipLeaf c asid va = .ok (e, t)) : CacheOnly s t := by
  have checked : ∀ {r q : TlbEntry × State},
      (if pteShadow r.1.leaf.toNat then checkLeaf r .write (c.level == .user) else .ok r) = .ok q → q = r := fun {r q} hq => by
    split at hq
    · exact checkLeaf_ok hq
    · cases hq; rfl
  have again : ∀ {f : TransFault} {q : TlbEntry × State},
      (if f.held then (.error f : Except TransFault (TlbEntry × State))
       else match (s.afterWalk f).freshLeaf none c.issuer.core asid va with
        | .error f => .error f
        | .ok r => if pteShadow r.1.leaf.toNat then checkLeaf r .write (c.level == .user) else .ok r) = .ok q → CacheOnly s q.2 := fun {f q} hq => by
    split at hq
    · cases hq
    · split at hq
      · cases hq
      next r hr =>
        rw [checked hq]
        exact cacheOnly_trans (cacheOnly_afterWalk s f) (cacheOnly_freshLeaf (e := r.1) (t := r.2) hr)
  unfold State.flipLeaf at h
  dsimp only at h
  split at h
  · cases h
  · split at h
    · exact again h
    next r hr =>
      split at h
      next q hq =>
        cases h
        have : (e, t) = r := checked hq
        exact cacheOnly_cachedLeaf (e := e) (by rw [hr, ← this])
      · exact again h

theorem cacheOnly_nextFlip (fuel : Nat) (s : State) (c : Copy) (lo hi : Nat) : CacheOnly s (s.nextFlip fuel c lo hi).2 := by
  induction fuel generalizing s lo with
  | zero => exact cacheOnly_refl s
  | succ k ih =>
    unfold State.nextFlip
    split
    · exact cacheOnly_refl s
    · split
      · exact cacheOnly_refl s
      · split
        · exact cacheOnly_refl s
        · split
          · exact cacheOnly_afterFault s _ _
          next e s' hl =>
            split
            · exact cacheOnly_flipLeaf hl
            · exact cacheOnly_trans (cacheOnly_flipLeaf hl) (ih s' _)

theorem cacheOnly_flipNext (s : State) (c : Copy) : CacheOnly s (s.flipNext c).2 := by
  unfold State.flipNext
  split
  · exact cacheOnly_refl s
  · exact cacheOnly_nextFlip _ s c _ _

/-! ## Cores, clusters and caches -/

theorem homes_of_cacheOnly {s t : State} (h : CacheOnly s t) : Homes s t := by
  unfold Homes
  rw [h.1]

theorem homes_wakeSpad (s : State) (loc : Nat) : Homes s (s.wakeSpad loc) := by
  by_cases h : isSpad loc = true ∧ (s.core (spadCore loc)).retained = 3
  · rw [wakeSpad_of_depth h]; rfl
  · rw [wakeSpad_of_not h]; rfl

/-! ## A write of a copy where nobody waits -/

/-- An asynchronous write to memory where nobody waits is one write of memory; cores may wake, and caches change (R43, R328). -/
theorem rawWrite_of_no_waiters {s : State} {q : Place} {bs : List Byte} (hw : s.waiters = []) (hh : isHub q.loc = false)
    (hf : ∀ e ∈ cellsAt q.loc bs, s.fieldCell e = some e) :
    ∃ t, Homes s t ∧ s.rawWrite q bs = { t with mem := s.mem.write s.free q.cred (cellsAt q.loc bs) } := by
  have stored : ∀ u, CacheOnly s u →
      ∃ t, Homes s t ∧ u.store q.cred (cellsAt q.loc bs) = { t with mem := s.mem.write s.free q.cred (cellsAt q.loc bs) } := fun u hu => by
    obtain ⟨t, ht, -, -, he⟩ := store_of_no_waiters (s := u) (by rw [hu.1]; exact hw) q.cred (cellsAt q.loc bs)
    rw [storedCells_plain fun e hm => by rw [fieldCell_cacheOnly hu]; exact hf e hm, cacheOnly_mem hu, cacheOnly_free hu] at he
    exact ⟨t, homes_trans (homes_of_cacheOnly hu) ht, he⟩
  unfold State.rawWrite
  rw [if_neg (by simp [hh])]
  split
  · exact stored _ (cacheOnly_siltUses s q.cred true _)
  · exact stored s (cacheOnly_refl s)

/-- The cells of bytes at a location. -/
theorem forall_mem_cellsAt {P : Host.Cell → Prop} {lo : Nat} {bs : List Byte} (h : ∀ k < bs.length, ∀ v, P (lo + k, v)) :
    ∀ e ∈ cellsAt lo bs, P e := fun e he => by
  obtain ⟨k, hk, hx⟩ := mem_cellsAt.1 he
  have hlt := (List.getElem?_eq_some_iff.1 hk).1
  rw [show e = (lo + k, e.2) from Prod.ext hx rfl]
  exact h k hlt e.2

/-- Bytes written one after another under a credential are there to its reader in full words, and no other byte changes to it (R98, R269). -/
theorem writeAt_facts {c : Cred} (hc : KeyFits c) (free : Nat) (m : Mem) (lo : Nat) (bs : List Byte) :
    (∀ f, (m.write free c (cellsAt lo bs)).readBytes f c lo bs.length = bs) ∧
    (∀ k < bs.length, (m.write free c (cellsAt lo bs)).rawFull (lo + k) = true) ∧
    ∀ a, (a < lo ∨ lo + bs.length ≤ a) → m.sight c a ≠ .stale → (m.write free c (cellsAt lo bs)).read free c a = m.read free c a := by
  refine ⟨fun f => readBytes_eq fun e he => (write_written hc free m (functional_cellsAt lo bs) he f).1, fun k hk => ?_, fun a ha hs => ?_⟩
  · exact (write_written hc free m (functional_cellsAt lo bs) (e := (lo + k, bs[k])) (mem_cellsAt.2 ⟨k, List.getElem?_eq_getElem hk, rfl⟩) 0).2.1
  · refine write_read_other hc free m (forall_mem_cellsAt fun k hk _ => ?_) hs
    dsimp only
    omega

end Sys2Proof.Machine
end

section
/-! PROOF. The statement about the progress of an issued copy (R161-R163, R170, R171, R203, R207, R212). -/

namespace Sys2Proof.Machine

open Sys2Proof.Safety

theorem exec_copyIssue (sid : StrandId) (s : State) : exec (.copyIssue sid) s = execCopyIssue sid s := rfl
theorem exec_copyRead (id off : Nat) (s : State) : exec (.copyRead id off) s = execCopyRead id off s := rfl
theorem exec_copyWrite (id off : Nat) (s : State) : exec (.copyWrite id off) s = execCopyWrite id off s := rfl
theorem exec_copyFault (id : Nat) (s : State) : exec (.copyFault id) s = execCopyFault id s := rfl
theorem exec_publishFlip (id : Nat) (s : State) : exec (.publishFlip id) s = execPublishFlip id s := rfl

/-! ## Issue of a held copy (R203) -/

/-- The word that a held copy executes again. -/
def HeldCopy.instr (h : HeldCopy) : Instr :=
  match h.op with
  | .send => Instr.send h.d h.a h.b
  | .sendh => Instr.sendh h.d h.a (h.b.setWidth 5)
  | .sendr => Instr.sendr h.d h.a (h.b.setWidth 5)
  | .tsend => Instr.tsend h.d h.a h.b
  | .publish => Instr.publish h.d h.a

/-- The work of that word. -/
def HeldCopy.work (h : HeldCopy) : State → Run :=
  match h.op with
  | .send => State.doSend h.d h.a h.b
  | .sendh => State.doPacket .sendh h.d h.a h.b
  | .sendr => State.doPacket .sendr h.d h.a h.b
  | .tsend => State.doTsend h.d h.a h.b
  | .publish => State.doPublish h.d h.a

theorem exec_send (d a b : IntReg) (s : State) : exec (.send d a b) s = execSend d a b s := rfl
theorem exec_sendh (d a : IntReg) (b : VReg) (s : State) : exec (.sendh d a b) s = execSendh d a b s := rfl
theorem exec_sendr (d a : IntReg) (b : VReg) (s : State) : exec (.sendr d a b) s = execSendr d a b s := rfl
theorem exec_tsend (d a b : IntReg) (s : State) : exec (.tsend d a b) s = execTsend d a b s := rfl
theorem exec_publish (d a : IntReg) (s : State) : exec (.publish d a) s = execPublish d a s := rfl

theorem zeroExtend_setWidth_of_lt {b : IntReg} (h : b.toNat < 32) : (b.setWidth 5).zeroExtend 6 = b := by
  apply BitVec.eq_of_toNat_eq
  simp only [BitVec.zeroExtend_eq_setWidth, BitVec.toNat_setWidth]
  omega

theorem exec_heldInstr {h : HeldCopy} (hb : h.b.toNat < 32) (s : State) : exec h.instr s = word plain false h.work s := by
  have hv := zeroExtend_setWidth_of_lt hb
  obtain ⟨op, d, a, b⟩ := h
  dsimp only at hv
  cases op <;> simp only [HeldCopy.instr, HeldCopy.work]
  case send => rw [exec_send, execSend]
  case sendh => rw [exec_sendh, execSendh, hv]
  case sendr => rw [exec_sendr, execSendr, hv]
  case tsend => rw [exec_tsend, execTsend]
  case publish => rw [exec_publish, execPublish]

/-- An instruction word always gives a next state. -/
theorem word_is_next (a : Accepts) (p : Bool) (work : State → Run) (s : State) : ∃ t, word a p work s = .next t := by
  unfold word finish
  split
  · exact ⟨_, rfl⟩
  · split
    · exact ⟨_, rfl⟩
    · split <;> exact ⟨_, rfl⟩

theorem copyIssue_again {s : State} {sid : StrandId} {h : HeldCopy} (hh : (s.strand sid).held = some h) (hb : h.b.toNat < 32)
    (hr : (s.setStrand sid { s.strand sid with held := none }).runnable sid = true) :
    ∃ t, exec h.instr { ((s.setStrand sid { s.strand sid with held := none }).toRetire sid.core) with
        cur := sid, cut := none, replay := (s.strand sid).got } = .next t ∧
      exec (.copyIssue sid) s = .next (if (t.strand sid).held.isSome then s else { t with cur := s.cur }) := by
  rw [exec_heldInstr hb]
  obtain ⟨t, ht⟩ := word_is_next plain false h.work { ((s.setStrand sid { s.strand sid with held := none }).toRetire sid.core) with
    cur := sid, cut := none, replay := (s.strand sid).got }
  refine ⟨t, ht, ?_⟩
  rw [exec_copyIssue, execCopyIssue]
  simp only [hh, hr, Bool.not_true, Bool.false_eq_true, if_false]
  change (match word plain false h.work _ with
    | Host.Outcome.next s2 => if (s2.strand sid).held.isSome then Host.Outcome.next s else Host.Outcome.next { s2 with cur := s.cur }
    | o => o) = _
  rw [ht]
  dsimp only
  split <;> rfl

/-! ## Select bits (R171) -/

theorem mem_flip (m : Mem) (b f : Nat) : f ∈ (m.flip b).selects ↔ if f = b then b ∉ m.selects else f ∈ m.selects := by
  by_cases hb : b ∈ m.selects
  · simp only [Mem.flip, List.contains_eq_mem, hb, decide_true, if_true, removeNat, List.mem_filter, bne_iff_ne, not_true_eq_false]
    split <;> simp_all
  · simp only [Mem.flip, List.contains_eq_mem, hb, decide_false, Bool.false_eq_true, if_false, mem_insertNat, not_false_eq_true]
    split <;> simp_all

/-- A copy that leaves its send queue, or stays in it, changes its core alone. -/
theorem dequeueCopy_or_not (b : Prop) [Decidable b] (u : State) (core id : Nat) :
    (if b then u.dequeueCopy core id else u) = { u with cores := (if b then u.dequeueCopy core id else u).cores } := by
  split <;> rfl

section progress
variable {s s1 : State} {id off va : Nat} {c : Copy} {q : Place} (hget : s.copies.get? id = some c) (herr : c.error = none) (hwait : c.wait = none)
include hget herr hwait

/-! ## Reads (R161, R206, R207) -/

/-- The line, or the aligned word of an uncached or device page, that a copy reads of. -/
def Place.unit (q : Place) : Nat := if q.ca = 0 then 64 else 8

/-- The copy after its read of a line. -/
def Copy.afterRead (c : Copy) (u : State) (q : Place) (va lo hi : Nat) : Copy :=
  { c with todo := c.todo.flatMap (Span.outside lo hi),
           pieces := c.pieces ++ (c.todo.filterMap (Span.inside lo hi)).flatMap (fun p => piecesFor p.dst (u.partRead q va p)) }

theorem copyRead_line (hop : c.op ≠ .publish) (hprog : s.inProgress c id = true) (hpast : s.storesPast c id = true)
    (htodo : todoByte c.todo off = some va) (hread : s.spanRead c va 1 = .ok (q, s1)) (hheld : s1.placeHeld q false = false)
    (hgood : ∀ p ∈ c.todo.filterMap (Span.inside (alignDown va q.unit) (alignDown va q.unit + q.unit)),
      s1.mem.poisoned q.cred (q.loc + p.src - va) p.len = false) :
    ∃ t, exec (.copyRead id off) s = .next t ∧ t.mem = s.mem ∧ (∀ i, t.strand i = s.strand i) ∧
      t.copies.get? id = some (c.afterRead s1 q va (alignDown va q.unit) (alignDown va q.unit + q.unit)) := by
  have hany : (c.todo.filterMap (Span.inside (alignDown va q.unit) (alignDown va q.unit + q.unit))).any
      (fun p => s1.mem.poisoned q.cred (q.loc + p.src - va) p.len) = false := by
    simpa only [List.any_eq_false, Bool.not_eq_true] using hgood
  have hgo : (c.error.isSome || c.wait.isSome || c.op == .publish || !s.inProgress c id || !s.storesPast c id) = false := by
    simp [herr, hwait, hop, hprog, hpast]
  have hc := cacheOnly_spanRead hread
  have hu := homes_trans (homes_of_cacheOnly hc)
    (homes_trans (homes_wakeSpad s1 q.loc) (homes_of_cacheOnly (cacheOnly_siltUses _ q.cred false q.lines)))
  unfold Place.unit at *
  rw [exec_copyRead, execCopyRead]
  simp only [hget, hgo, htodo, hread, hheld, hany, Bool.or_self, Bool.false_eq_true, if_false]
  rw [dequeueCopy_or_not]
  exact ⟨_, rfl, by rw [hu], fun i => by rw [hu]; rfl, (Sparse.get?_set _ _ _ _).trans (if_pos rfl)⟩

/-! ## Writes (R162, R170) -/

theorem copyWrite_word {p : Piece} (hprog : s.inProgress c id = true) (hp : c.pieces[off]? = some p)
    {bytes : List (Nat × Byte)} (hbytes : bytes = pieceBytes c.pieces (p.dst / 8)) {dst : Nat} (hdst : dst = (bytes.map (·.1)).headD p.dst)
    (hrest : ∀ r ∈ c.todo, meets r.dst (r.dst + r.len) (p.dst / 8 * 8) (p.dst / 8 * 8 + 8) = false)
    (hwrite : s.pieceWrite c dst = .ok (q, s1)) (hsync : s.syncBelow c dst = false) (hheld : s1.placeHeld q true = false)
    (hf : ∀ k < bytes.length, ∀ v, s1.fieldCell (q.loc + k, v) = some (q.loc + k, v)) (hhub : isHub q.loc = false) (hw : s.waiters = []) :
    ∃ u, Homes s u ∧ exec (.copyWrite id off) s = .next { u with
      mem := s.mem.write s.free q.cred (cellsAt q.loc (bytes.map (·.2))),
      copies := s.copies.set id { c with pieces := c.pieces.filter (fun r => r.dst / 8 != p.dst / 8), written := c.written + bytes.length } } := by
  subst hbytes hdst
  have hany : c.todo.any (fun r => meets r.dst (r.dst + r.len) (p.dst / 8 * 8) (p.dst / 8 * 8 + 8)) = false := by
    simpa only [List.any_eq_false, Bool.not_eq_true] using hrest
  have hc := cacheOnly_pieceWrite hwrite
  obtain ⟨u, hu, he⟩ := rawWrite_of_no_waiters (s := s1) (q := q) (bs := (pieceBytes c.pieces (p.dst / 8)).map (·.2)) (by rw [hc.1]; exact hw) hhub
    (forall_mem_cellsAt (by simpa only [List.length_map] using hf))
  refine ⟨u, homes_trans (homes_of_cacheOnly hc) hu, ?_⟩
  have hcopies : u.copies = s.copies := by rw [hu, hc.1]
  rw [exec_copyWrite, execCopyWrite]
  simp only [hget, herr, hwait, hprog, hp, hany, hwrite, hsync, hheld, he, hcopies, cacheOnly_mem hc, cacheOnly_free hc, Option.isSome_none,
    Bool.not_true, Bool.or_self, Bool.false_eq_true, if_false]

/-! ## Flips (R171) -/

theorem publishFlip_page {e : TlbEntry} (hop : c.op = .publish) (hflip : (s.flipNext c).1 = some (va, .ok e))
    (hold : s.olderWrites c id e.base (e.base + e.size) = false) (hw : s.waiters = []) :
    ∃ t, exec (.publishFlip id) s = .next t ∧
      t = { s with mem := { s.mem with selects := t.mem.selects }, copies := t.copies, cores := t.cores, clusters := t.clusters, caches := t.caches } ∧
      t.mem.selects = (s.mem.flip (leafFrame e.size e.leaf.toNat + e.size)).selects := by
  have hpair : s.flipNext c = (some (va, .ok e), (s.flipNext c).2) := Prod.ext hflip rfl
  have hc := cacheOnly_flipNext s c
  generalize (s.flipNext c).2 = u at hpair hc
  have hround : ({ u with mem := u.mem.flip (leafFrame e.size e.leaf.toNat + e.size) } : State).roundsAt [] =
      { u with mem := u.mem.flip (leafFrame e.size e.leaf.toNat + e.size) } := roundsAt_of_no_waiters (by change u.waiters = []; rw [hc.1]; exact hw) _
  rw [exec_publishFlip, execPublishFlip]
  simp only [hget, herr, hwait, hop, hpair, hold, hround, Option.isSome_none, bne_self_eq_false, Bool.or_self, Bool.false_eq_true, if_false]
  have hn := cacheOnly_nextFlip (pagesOf (e.base + e.size) (c.dst + c.dstLen))
    ({ u with mem := u.mem.flip (leafFrame e.size e.leaf.toNat + e.size) } : State) c (e.base + e.size) (c.dst + c.dstLen)
  refine ⟨_, rfl, ?_, ?_⟩
  · rw [hn.1, hc.1]; rfl
  · rw [hn.1, hc.1]

/-! ## Faults (R163, R212) -/

/-- The copy after a fault that waits for the fault queue, or ends it. -/
def Copy.afterFault (c : Copy) (e : Trap) (f : Option PagerFault) : Copy :=
  match f with
  | some f => { c with wait := some f }
  | none => { c with error := some e.cause, wait := none, todo := [], pieces := [] }

theorem copyFault_ends {e : Trap} (hpk : c.op.isPacket = false) (hrun : c.op = .publish ∨ s.inProgress c id = true)
    (htrap : s.copyTrap c id = some e) :
    ∃ t, exec (.copyFault id) s = .next t ∧ t.mem = s.mem ∧ (∀ i, t.strand i = s.strand i) ∧ t.copies.get? id = some (c.afterFault e
      (if (c.level == .user && (c.asid.bind (fun a => s.contexts.get? a)).any (fun x => x.pageable)) = true then e.fault else none)) := by
  have hc := cacheOnly_afterFault s c.issuer.core e
  have hgo : (c.error.isSome || c.wait.isSome || c.op.isPacket || (c.op != .publish && !s.inProgress c id)) = false := by
    rw [herr, hwait, hpk]
    rcases hrun with h | h <;> simp [h]
  rw [exec_copyFault, execCopyFault]
  simp only [hget, hgo, htrap, Bool.false_eq_true, if_false]
  generalize s.afterFault c.issuer.core e = u at hc
  have hcopies : u.copies = s.copies := by rw [hc.1]
  have hctx : (c.asid.bind fun a => u.contexts.get? a) = c.asid.bind fun a => s.contexts.get? a := by rw [hc.1]
  rw [hctx]
  split
  next f hf =>
    rw [hf]
    exact ⟨_, rfl, (cacheOnly_mem hc :), (cacheOnly_strand hc :), (Sparse.get?_set _ _ _ _).trans (if_pos rfl)⟩
  next hf =>
    rw [hf]
    refine ⟨_, rfl, ?_⟩
    simp only [State.failCopy, hcopies, hget]
    exact ⟨(cacheOnly_mem hc :), (cacheOnly_strand hc :), (Sparse.get?_set _ _ _ _).trans (if_pos rfl)⟩

end progress

/-- Settles O32, each clause by the lemma of its event: `copyIssue_again`, `copyRead_line`, `copyWrite_word` with `writeAt_facts`,
`publishFlip_page` with `mem_flip`, and `copyFault_ends`. -/
theorem copyProgress : Obligations.CopyProgress := by
  intro s s1 id off va c q
  refine ⟨fun sid h hh hb hr => copyIssue_again hh hb hr, fun hget herr hwait => ⟨?_, ?_, ?_, ?_⟩⟩
  · intro hop hprog hpast htodo hread hheld line lo hgood
    obtain ⟨t, he, hm, hst, hc⟩ := copyRead_line hget herr hwait hop hprog hpast htodo hread hheld hgood
    exact ⟨t, he, hm, hst, _, hc, rfl, rfl, rfl⟩
  · intro p hprog hp word bytes dst hrest hwrite hsync hheld hf hhub hw hkey
    obtain ⟨u, hu, he⟩ := copyWrite_word hget herr hwait hprog hp rfl rfl hrest hwrite hsync hheld hf hhub hw
    obtain ⟨hread, hfull, hother⟩ := writeAt_facts hkey s.free s.mem q.loc (bytes.map (·.2))
    rw [List.length_map] at hread hfull hother
    have hfree : u.free = s.free := by rw [hu]
    refine ⟨_, he, hread _, hfull, fun a ha hs => ?_, fun i => ?_, ?_⟩
    · change Mem.read _ u.free q.cred a = _
      rw [hfree]
      exact hother a ha hs
    · change u.strand i = s.strand i
      rw [hu]; rfl
    · exact (Sparse.get?_set _ _ _ _).trans (if_pos rfl)
  · intro va e hop hflip hold hw
    obtain ⟨t, he, ht, hsel⟩ := publishFlip_page hget herr hwait hop hflip hold hw
    refine ⟨t, he, ht, ?_, fun f hf => ?_⟩
    · rw [hsel, mem_flip, if_pos rfl]
    · rw [hsel, mem_flip, if_neg hf]
  · intro e hpk hrun htrap
    obtain ⟨t, he, hm, hst, hc⟩ := copyFault_ends hget herr hwait hpk hrun htrap
    refine ⟨t, he, hm, hst, fun f hq hf => ?_, fun hq => ?_⟩
    · rw [hc, if_pos hq, hf]; rfl
    · rw [hc]
      rcases hq with hq | hq
      · rw [if_neg (by rw [hq]; exact Bool.false_ne_true)]; rfl
      · rw [hq, ite_self]; rfl

end Sys2Proof.Machine
end

section
/-! PROOF. The refutation of the statement about the completion of a copy: a strand name whose number is 8 names a strand of the next core
(R11, R213). -/

namespace Sys2Proof.Machine

/-- A `send` of strand 0 of core 0 with nothing left to do, which will set tag 0 of core 1 (R213). -/
def doneSend : Copy :=
  { op := .send, issuer := { core := 0, num := 0 }, uid := 0, level := .user, asid := none, cred := Cred.shared, cls := .send, group := none,
    slots := [], todo := [], pieces := [], dst := 0, dstLen := 0, written := 0, tag := 0, tagEn := true, tagCore := 1, record := none,
    packet := none, error := none, wait := none }

/-- Strand 0 of core 1, whose tid value is 8, is parked in a wait for tag 0 (R220) as that copy completes. -/
def awaitingTag : State :=
  { State.reset with strands := [(8, { Strand.fresh .parked 8 with wait := some (.tagAny 5 1) })], copies := [(1, doneSend)] }

/-- The name of core 0 with the number 8: a strand number stops at 5 (R11), and the tid value is that of strand 0 of core 1. -/
def overflowName : StrandId := { core := 0, num := 8 }

theorem exec_copyComplete (id : Nat) (s : State) : exec (.copyComplete id) s = execCopyComplete id s := rfl

theorem copyComplete_awaitingTag : exec (.copyComplete 1) awaitingTag = .next (awaitingTag.completeCopy 1) := by
  rw [exec_copyComplete]
  rfl

/-- The completion serves the parked wait: it latches the tag's value. -/
theorem served_awaitingTag : ((awaitingTag.completeCopy 1).strand overflowName).served = some 1 := by decide

/-- Refutes O33: the clause that a strand whose name is not of the tag's core keeps everything ranges over all names, and in `awaitingTag`
the name `overflowName`, of core 0, is that of the strand of core 1 whose wait the tag ends. -/
theorem not_copyCompletion : ¬ Obligations.CopyCompletion := by
  rintro ⟨hdone, -⟩
  obtain ⟨t, hstep, -, -, -, -, hnorecord, -⟩ := hdone awaitingTag 1 doneSend rfl (.inr ⟨rfl, rfl, rfl⟩) rfl
  rw [copyComplete_awaitingTag] at hstep
  cases hstep
  obtain ⟨-, hothers, -⟩ := hnorecord rfl
  have huid : (awaitingTag.strand overflowName).uid ≠ doneSend.uid := by decide
  have hcore : overflowName.core ≠ doneSend.tagCore := by decide
  have hkept : (awaitingTag.completeCopy 1).strand overflowName = awaitingTag.strand overflowName := (hothers overflowName huid).2 hcore
  have hbefore : (awaitingTag.strand overflowName).served = none := rfl
  have hserved := served_awaitingTag
  rw [hkept, hbefore] at hserved
  cases hserved

end Sys2Proof.Machine
end
